-- ==== Sys2Proof/Word.lean ====
section
/-! DEFINITION. The words of the KGL-320 and the shapes of data every file uses (R11, R175, R177). -/

namespace Sys2Proof

/-- A byte, the unit of every address space (R11). -/
abbrev Byte := BitVec 8

/-- A 16-bit word. -/
abbrev W16 := BitVec 16

/-- A 32-bit word: one vector lane, one address register (R177). -/
abbrev W32 := BitVec 32

/-- A 64-bit word: a hart register, a scalar register, a tick count (R60, R177). -/
abbrev W64 := BitVec 64

/-- A vector register: 128 lanes of 32 bits (R177). -/
abbrev Lanes := Vector W32 128

/-- A predicate: one bit a lane, bit i for lane i (R177, R352). -/
abbrev Mask := BitVec 128

/-- A sparse table by number: what is not listed holds the default its reader names. -/
abbrev Tab (α : Type) := List (Nat × α)

/-- A 64-byte record: run descriptor, copy packet, stack command (R127, R145, R277). -/
abbrev Rec64 := BitVec 512

/-- A launch record of 256 bytes (R44). -/
abbrev LaunchRec := BitVec 2048

end Sys2Proof
end

