-- ==== Sys2Proof/Machine/SfuTables.lean ====
section
/-! DEFINITION. The seven tables of R260: entry j is the integer nearest to 2^24 times g(j), for j = 0 to 256, computed from
the formula of g. -/

namespace Sys2Proof.Machine.Sfu

def rs00 : List Nat := [16777216, 16744544, 16712062, 16679768, 16647660, 16615738, 16583998, 16552439, 16521060,
  16489859, 16458834, 16427983, 16397305, 16366799, 16336462, 16306293, 16276290, 16246453, 16216779, 16187267,
  16157916, 16128723, 16099689, 16070810, 16042087, 16013517, 15985099, 15956832, 15928714, 15900744, 15872921,
  15845244]
def rs01 : List Nat := [15817711, 15790321, 15763073, 15735965, 15708997, 15682167, 15655474, 15628916, 15602494,
  15576205, 15550048, 15524023, 15498128, 15472362, 15446725, 15421214, 15395829, 15370569, 15345434, 15320421,
  15295530, 15270760, 15246109, 15221578, 15197165, 15172869, 15148689, 15124625, 15100674, 15076837, 15053113,
  15029500]
def rs02 : List Nat := [15005998, 14982606, 14959323, 14936148, 14913081, 14890120, 14867265, 14844515, 14821869,
  14799326, 14776886, 14754547, 14732310, 14710172, 14688135, 14666196, 14644355, 14622611, 14600964, 14579413,
  14557957, 14536595, 14515327, 14494152, 14473070, 14452079, 14431180, 14410370, 14389651, 14369021, 14348479,
  14328025]
def rs03 : List Nat := [14307658, 14287378, 14267184, 14247075, 14227051, 14207111, 14187255, 14167482, 14147791,
  14128182, 14108654, 14089208, 14069841, 14050554, 14031346, 14012217, 13993165, 13974192, 13955295, 13936474,
  13917730, 13899061, 13880467, 13861947, 13843502, 13825129, 13806830, 13788603, 13770448, 13752365, 13734353,
  13716411]
def rs04 : List Nat := [13698540, 13680738, 13663005, 13645341, 13627746, 13610218, 13592758, 13575365, 13558038,
  13540778, 13523583, 13506454, 13489389, 13472389, 13455454, 13438582, 13421773, 13405027, 13388344, 13371723,
  13355163, 13338665, 13322228, 13305852, 13289535, 13273279, 13257082, 13240945, 13224866, 13208845, 13192883,
  13176978]
def rs05 : List Nat := [13161131, 13145341, 13129607, 13113930, 13098309, 13082744, 13067234, 13051779, 13036378,
  13021032, 13005740, 12990502, 12975318, 12960186, 12945107, 12930081, 12915107, 12900185, 12885314, 12870495,
  12855727, 12841009, 12826342, 12811725, 12797158, 12782641, 12768173, 12753753, 12739383, 12725061, 12710787,
  12696561]
def rs06 : List Nat := [12682383, 12668252, 12654169, 12640132, 12626142, 12612198, 12598300, 12584448, 12570642,
  12556881, 12543165, 12529494, 12515868, 12502286, 12488748, 12475254, 12461803, 12448396, 12435032, 12421711,
  12408433, 12395198, 12382004, 12368853, 12355743, 12342675, 12329649, 12316663, 12303719, 12290815, 12277952,
  12265129]
def rs07 : List Nat := [12252346, 12239603, 12226900, 12214236, 12201612, 12189026, 12176480, 12163972, 12151502,
  12139071, 12126678, 12114323, 12102005, 12089725, 12077482, 12065277, 12053108, 12040976, 12028880, 12016821,
  12004799, 11992812, 11980861, 11968945, 11957066, 11945221, 11933412, 11921637, 11909897, 11898192, 11886522,
  11874885]
def rs08 : List Nat := [11863283]
/-- g(j) = (1 + j/256)^(-1/2) (R260). -/
def rs0 : List (List Nat) := [rs00, rs01, rs02, rs03, rs04, rs05, rs06, rs07, rs08]

def rs10 : List Nat := [11863283, 11840180, 11817212, 11794377, 11771673, 11749101, 11726657, 11704342, 11682154,
  11660091, 11638153, 11616338, 11594646, 11573074, 11551623, 11530290, 11509075, 11487977, 11466994, 11446126,
  11425372, 11404730, 11384199, 11363779, 11343468, 11323266, 11303172, 11283184, 11263302, 11243524, 11223850,
  11204279]
def rs11 : List Nat := [11184811, 11165443, 11146176, 11127008, 11107938, 11088966, 11070092, 11051313, 11032629,
  11014040, 10995545, 10977142, 10958832, 10940612, 10922484, 10904445, 10886495, 10868634, 10850860, 10833173,
  10815573, 10798058, 10780627, 10763281, 10746018, 10728839, 10711741, 10694725, 10677789, 10660934, 10644158,
  10627461]
def rs12 : List Nat := [10610843, 10594302, 10577839, 10561452, 10545141, 10528905, 10512744, 10496657, 10480644,
  10464704, 10448836, 10433040, 10417316, 10401663, 10386080, 10370566, 10355123, 10339747, 10324441, 10309202,
  10294030, 10278925, 10263886, 10248913, 10234006, 10219163, 10204385, 10189671, 10175020, 10160432, 10145907,
  10131443]
def rs13 : List Nat := [10117042, 10102702, 10088422, 10074203, 10060044, 10045944, 10031904, 10017922, 10003999,
  9990133, 9976325, 9962574, 9948880, 9935242, 9921660, 9908133, 9894662, 9881246, 9867884, 9854576, 9841321, 9828120,
  9814972, 9801877, 9788834, 9775843, 9762903, 9750015, 9737177, 9724391, 9711654, 9698967]
def rs14 : List Nat := [9686330, 9673742, 9661203, 9648713, 9636271, 9623877, 9611531, 9599232, 9586981, 9574776,
  9562617, 9550505, 9538439, 9526418, 9514442, 9502512, 9490627, 9478785, 9466989, 9455236, 9443526, 9431861, 9420238,
  9408658, 9397121, 9385626, 9374173, 9362762, 9351392, 9340064, 9328777, 9317531]
def rs15 : List Nat := [9306325, 9295160, 9284034, 9272949, 9261903, 9250897, 9239929, 9229001, 9218111, 9207260,
  9196447, 9185672, 9174935, 9164235, 9153573, 9142948, 9132360, 9121808, 9111293, 9100814, 9090372, 9079965, 9069594,
  9059258, 9048957, 9038692, 9028461, 9018266, 9008104, 8997977, 8987884, 8977825]
def rs16 : List Nat := [8967799, 8957807, 8947849, 8937923, 8928030, 8918171, 8908343, 8898549, 8888786, 8879056,
  8869357, 8859690, 8850055, 8840451, 8830878, 8821336, 8811826, 8802345, 8792896, 8783476, 8774087, 8764728, 8755399,
  8746100, 8736830, 8727589, 8718378, 8709196, 8700043, 8690919, 8681823, 8672756]
def rs17 : List Nat := [8663717, 8654706, 8645724, 8636769, 8627842, 8618943, 8610071, 8601227, 8592410, 8583619,
  8574856, 8566120, 8557410, 8548726, 8540070, 8531439, 8522834, 8514256, 8505703, 8497176, 8488674, 8480198, 8471748,
  8463322, 8454922, 8446547, 8438196, 8429870, 8421569, 8413293, 8405040, 8396812]
def rs18 : List Nat := [8388608]
/-- g(j) = (2 + j/128)^(-1/2) (R260). -/
def rs1 : List (List Nat) := [rs10, rs11, rs12, rs13, rs14, rs15, rs16, rs17, rs18]

def rc0 : List Nat := [16777216, 16711935, 16647160, 16582885, 16519105, 16455813, 16393005, 16330674, 16268816,
  16207424, 16146494, 16086020, 16025997, 15966421, 15907286, 15848588, 15790321, 15732481, 15675063, 15618063,
  15561476, 15505297, 15449523, 15394148, 15339169, 15284581, 15230380, 15176563, 15123124, 15070061, 15017368,
  14965043]
def rc1 : List Nat := [14913081, 14861479, 14810232, 14759338, 14708792, 14658591, 14608732, 14559211, 14510025,
  14461169, 14412642, 14364439, 14316558, 14268994, 14221746, 14174810, 14128182, 14081860, 14035841, 13990121,
  13944699, 13899571, 13854733, 13810184, 13765921, 13721940, 13678240, 13634817, 13591669, 13548793, 13506186,
  13463847]
def rc2 : List Nat := [13421773, 13379960, 13338408, 13297112, 13256072, 13215284, 13174746, 13134457, 13094412,
  13054612, 13015052, 12975732, 12936648, 12897800, 12859184, 12820798, 12782641, 12744710, 12707004, 12669520,
  12632257, 12595212, 12558384, 12521771, 12485370, 12449181, 12413200, 12377427, 12341860, 12306497, 12271335,
  12236374]
def rc3 : List Nat := [12201612, 12167046, 12132676, 12098499, 12064515, 12030721, 11997115, 11963697, 11930465,
  11897416, 11864551, 11831866, 11799361, 11767034, 11734883, 11702908, 11671107, 11639478, 11608020, 11576731,
  11545611, 11514658, 11483870, 11453246, 11422785, 11392486, 11362347, 11332368, 11302546, 11272880, 11243370,
  11214014]
def rc4 : List Nat := [11184811, 11155759, 11126858, 11098107, 11069503, 11041047, 11012737, 10984571, 10956549,
  10928670, 10900932, 10873335, 10845877, 10818557, 10791375, 10764329, 10737418, 10710642, 10683998, 10657487,
  10631107, 10604858, 10578737, 10552745, 10526881, 10501143, 10475530, 10450042, 10424678, 10399437, 10374317,
  10349319]
def rc5 : List Nat := [10324441, 10299682, 10275041, 10250519, 10226113, 10201823, 10177648, 10153587, 10129640,
  10105805, 10082083, 10058471, 10034970, 10011579, 9988296, 9965121, 9942054, 9919093, 9896238, 9873488, 9850842,
  9828300, 9805861, 9783525, 9761289, 9739155, 9717121, 9695186, 9673350, 9651612, 9629972, 9608428]
def rc6 : List Nat := [9586981, 9565629, 9544372, 9523209, 9502140, 9481164, 9460280, 9439489, 9418788, 9398178,
  9377658, 9357227, 9336885, 9316632, 9296466, 9276387, 9256395, 9236489, 9216668, 9196932, 9177281, 9157713, 9138228,
  9118827, 9099507, 9080269, 9061112, 9042036, 9023041, 9004124, 8985287, 8966529]
def rc7 : List Nat := [8947849, 8929246, 8910721, 8892272, 8873899, 8855603, 8837381, 8819235, 8801162, 8783164,
  8765239, 8747388, 8729608, 8711901, 8694266, 8676702, 8659208, 8641785, 8624432, 8607149, 8589935, 8572789, 8555712,
  8538702, 8521761, 8504886, 8488078, 8471336, 8454660, 8438050, 8421505, 8405024]
def rc8 : List Nat := [8388608]
/-- g(j) = 1 / (1 + j/256) (R260). -/
def rc : List (List Nat) := [rc0, rc1, rc2, rc3, rc4, rc5, rc6, rc7, rc8]

def ex0 : List Nat := [8388608, 8411352, 8434157, 8457025, 8479954, 8502945, 8525999, 8549116, 8572295, 8595536,
  8618841, 8642209, 8665641, 8689136, 8712694, 8736317, 8760003, 8783754, 8807569, 8831449, 8855394, 8879403, 8903477,
  8927617, 8951823, 8976093, 9000430, 9024833, 9049301, 9073837, 9098438, 9123107]
def ex1 : List Nat := [9147842, 9172644, 9197514, 9222451, 9247455, 9272528, 9297668, 9322877, 9348154, 9373499,
  9398913, 9424396, 9449948, 9475570, 9501261, 9527021, 9552851, 9578752, 9604722, 9630764, 9656875, 9683058, 9709311,
  9735636, 9762032, 9788499, 9815039, 9841650, 9868333, 9895089, 9921917, 9948818]
def ex2 : List Nat := [9975792, 10002839, 10029960, 10057154, 10084422, 10111763, 10139179, 10166669, 10194234,
  10221873, 10249587, 10277377, 10305242, 10333182, 10361198, 10389290, 10417458, 10445703, 10474024, 10502422,
  10530897, 10559449, 10588079, 10616786, 10645571, 10674434, 10703375, 10732395, 10761494, 10790671, 10819928,
  10849263]
def ex3 : List Nat := [10878679, 10908174, 10937749, 10967404, 10997140, 11026956, 11056853, 11086831, 11116891,
  11147032, 11177254, 11207559, 11237946, 11268415, 11298967, 11329601, 11360319, 11391120, 11422004, 11452973,
  11484025, 11515161, 11546382, 11577687, 11609078, 11640553, 11672114, 11703760, 11735492, 11767310, 11799215,
  11831206]
def ex4 : List Nat := [11863283, 11895448, 11927700, 11960039, 11992466, 12024981, 12057584, 12090275, 12123055,
  12155924, 12188882, 12221930, 12255067, 12288294, 12321610, 12355018, 12388516, 12422104, 12455784, 12489555,
  12523418, 12557372, 12591419, 12625557, 12659789, 12694113, 12728530, 12763041, 12797645, 12832343, 12867135,
  12902021]
def ex5 : List Nat := [12937002, 12972078, 13007249, 13042515, 13077877, 13113335, 13148888, 13184539, 13220286,
  13256129, 13292070, 13328109, 13364245, 13400479, 13436812, 13473242, 13509772, 13546401, 13583129, 13619956,
  13656884, 13693911, 13731039, 13768268, 13805598, 13843028, 13880561, 13918195, 13955931, 13993769, 14031710,
  14069754]
def ex6 : List Nat := [14107901, 14146151, 14184505, 14222963, 14261526, 14300193, 14338964, 14377841, 14416824,
  14455912, 14495106, 14534406, 14573813, 14613326, 14652947, 14692675, 14732511, 14772455, 14812507, 14852668,
  14892937, 14933316, 14973805, 15014403, 15055111, 15095929, 15136859, 15177899, 15219050, 15260313, 15301688,
  15343175]
def ex7 : List Nat := [15384775, 15426487, 15468313, 15510252, 15552304, 15594471, 15636752, 15679147, 15721658,
  15764283, 15807025, 15849882, 15892855, 15935945, 15979152, 16022476, 16065917, 16109476, 16153153, 16196949,
  16240863, 16284897, 16329050, 16373322, 16417715, 16462228, 16506861, 16551616, 16596492, 16641490, 16686609,
  16731851]
def ex8 : List Nat := [16777216]
/-- g(j) = 2^(j/256) / 2 (R260). -/
def ex : List (List Nat) := [ex0, ex1, ex2, ex3, ex4, ex5, ex6, ex7, ex8]

def lg0 : List Nat := [0, 94364, 188362, 281996, 375270, 468185, 560745, 652952, 744810, 836320, 927485, 1018309,
  1108793, 1198939, 1288752, 1378232, 1467383, 1556207, 1644705, 1732882, 1820738, 1908277, 1995500, 2082410, 2169009,
  2255299, 2341283, 2426963, 2512340, 2597417, 2682196, 2766679]
def lg1 : List Nat := [2850868, 2934766, 3018374, 3101694, 3184728, 3267478, 3349946, 3432134, 3514044, 3595678,
  3677038, 3758124, 3838941, 3919488, 3999768, 4079782, 4159533, 4239023, 4318251, 4397222, 4475935, 4554394, 4632599,
  4710552, 4788255, 4865709, 4942916, 5019878, 5096595, 5173071, 5249305, 5325300]
def lg2 : List Nat := [5401057, 5476578, 5551864, 5626916, 5701737, 5776327, 5850688, 5924821, 5998727, 6072409,
  6145867, 6219103, 6292118, 6364913, 6437490, 6509850, 6581994, 6653924, 6725641, 6797146, 6868440, 6939525, 7010402,
  7081072, 7151536, 7221795, 7291852, 7361706, 7431359, 7500812, 7570066, 7639123]
def lg3 : List Nat := [7707984, 7776649, 7845119, 7913397, 7981483, 8049377, 8117082, 8184598, 8251926, 8319067,
  8386022, 8452793, 8519380, 8585785, 8652008, 8718050, 8783912, 8849596, 8915102, 8980431, 9045584, 9110562, 9175366,
  9239998, 9304457, 9368745, 9432863, 9496811, 9560591, 9624203, 9687648, 9750928]
def lg4 : List Nat := [9814042, 9876993, 9939780, 10002404, 10064867, 10127170, 10189312, 10251295, 10313120,
  10374787, 10436298, 10497652, 10558852, 10619897, 10680789, 10741528, 10802114, 10862550, 10922835, 10982970,
  11042956, 11102794, 11162484, 11222028, 11281425, 11340677, 11399784, 11458748, 11517568, 11576245, 11634780,
  11693175]
def lg5 : List Nat := [11751428, 11809542, 11867517, 11925353, 11983051, 12040612, 12098037, 12155325, 12212479,
  12269497, 12326382, 12383133, 12439752, 12496238, 12552593, 12608817, 12664911, 12720875, 12776710, 12832416,
  12887994, 12943445, 12998770, 13053968, 13109041, 13163988, 13218811, 13273511, 13328087, 13382540, 13436871,
  13491080]
def lg6 : List Nat := [13545168, 13599135, 13652983, 13706711, 13760320, 13813810, 13867183, 13920438, 13973576,
  14026597, 14079503, 14132294, 14184969, 14237530, 14289978, 14342312, 14394532, 14446641, 14498638, 14550523,
  14602297, 14653961, 14705514, 14756958, 14808293, 14859519, 14910637, 14961648, 15012551, 15063347, 15114037,
  15164621]
def lg7 : List Nat := [15215099, 15265473, 15315742, 15365906, 15415967, 15465925, 15515779, 15565531, 15615181,
  15664730, 15714177, 15763523, 15812769, 15861915, 15910962, 15959909, 16008758, 16057508, 16106160, 16154714,
  16203172, 16251532, 16299796, 16347964, 16396036, 16444013, 16491896, 16539683, 16587377, 16634976, 16682482,
  16729896]
def lg8 : List Nat := [16777216]
/-- g(j) = log2(1 + j/256) (R260). -/
def lg : List (List Nat) := [lg0, lg1, lg2, lg3, lg4, lg5, lg6, lg7, lg8]

def sn0 : List Nat := [0, 102943, 205882, 308814, 411733, 514638, 617523, 720384, 823219, 926023, 1028791, 1131521,
  1234209, 1336849, 1439440, 1541976, 1644455, 1746871, 1849222, 1951503, 2053710, 2155841, 2257890, 2359854, 2461729,
  2563511, 2665197, 2766783, 2868265, 2969638, 3070900, 3172046]
def sn1 : List Nat := [3273072, 3373976, 3474752, 3575398, 3675909, 3776281, 3876512, 3976596, 4076531, 4176312,
  4275936, 4375399, 4474698, 4573827, 4672785, 4771567, 4870169, 4968587, 5066819, 5164860, 5262706, 5360355, 5457801,
  5555042, 5652074, 5748893, 5845495, 5941878, 6038037, 6133968, 6229669, 6325135]
def sn2 : List Nat := [6420363, 6515349, 6610090, 6704582, 6798821, 6892805, 6986529, 7079990, 7173184, 7266109,
  7358759, 7451133, 7543226, 7635036, 7726557, 7817788, 7908725, 7999364, 8089701, 8179734, 8269459, 8358873, 8447972,
  8536753, 8625213, 8713348, 8801154, 8888630, 8975771, 9062573, 9149035, 9235152]
def sn3 : List Nat := [9320922, 9406340, 9491405, 9576112, 9660458, 9744441, 9828057, 9911303, 9994176, 10076672,
  10158790, 10240524, 10321873, 10402834, 10483403, 10563577, 10643353, 10722729, 10801701, 10880266, 10958422,
  11036165, 11113493, 11190402, 11266890, 11342953, 11418590, 11493797, 11568571, 11642909, 11716809, 11790268]
def sn4 : List Nat := [11863283, 11935852, 12007971, 12079638, 12150850, 12221604, 12291899, 12361731, 12431097,
  12499995, 12568423, 12636378, 12703856, 12770857, 12837376, 12903413, 12968963, 13034026, 13098597, 13162675,
  13226258, 13289343, 13351928, 13414009, 13475586, 13536656, 13597215, 13657263, 13716797, 13775814, 13834313,
  13892291]
def sn5 : List Nat := [13949745, 14006675, 14063077, 14118950, 14174291, 14229098, 14283370, 14337104, 14390298,
  14442951, 14495059, 14546622, 14597637, 14648103, 14698017, 14747378, 14796184, 14844432, 14892122, 14939251,
  14985817, 15031819, 15077256, 15122124, 15166424, 15210152, 15253308, 15295889, 15337895, 15379323, 15420172,
  15460440]
def sn6 : List Nat := [15500126, 15539229, 15577747, 15615678, 15653022, 15689776, 15725939, 15761510, 15796488,
  15830871, 15864658, 15897848, 15930439, 15962431, 15993821, 16024610, 16054795, 16084375, 16113350, 16141719,
  16169479, 16196631, 16223173, 16249104, 16274424, 16299131, 16323224, 16346702, 16369565, 16391812, 16413442,
  16434454]
def sn7 : List Nat := [16454846, 16474620, 16493773, 16512305, 16530216, 16547504, 16564169, 16580211, 16595628,
  16610420, 16624588, 16638129, 16651044, 16663331, 16674992, 16686025, 16696429, 16706205, 16715352, 16723869,
  16731757, 16739015, 16745643, 16751640, 16757007, 16761743, 16765847, 16769321, 16772163, 16774374, 16775953,
  16776900]
def sn8 : List Nat := [16777216]
/-- g(j) = sin(pi j / 512) (R260). -/
def sn : List (List Nat) := [sn0, sn1, sn2, sn3, sn4, sn5, sn6, sn7, sn8]

def th0 : List Nat := [0, 524117, 1047213, 1568272, 2086297, 2600313, 3109375, 3612577, 4109053, 4597990, 5078627,
  5550257, 6012239, 6463992, 6905000, 7334811, 7753039, 8159364, 8553528, 8935332, 9304639, 9661368, 10005488,
  10337020, 10656031, 10962629, 11256960, 11539205, 11809576, 12068313, 12315676, 12551949]
def th1 : List Nat := [12777430, 12992430, 13197274, 13392291, 13577819, 13754197, 13921766, 14080867, 14231838,
  14375014, 14510725, 14639296, 14761043, 14876276, 14985298, 15088400, 15185868, 15277975, 15364986, 15447157,
  15524733, 15597951, 15667035, 15732202, 15793661, 15851608, 15906232, 15957713, 16006223, 16051926, 16094975,
  16135520]
def th2 : List Nat := [16173699, 16209646, 16243486, 16275339, 16305319, 16333532, 16360079, 16385057, 16408555,
  16430661, 16451454, 16471010, 16489403, 16506700, 16522966, 16538261, 16552641, 16566162, 16578873, 16590824,
  16602058, 16612618, 16622544, 16631875, 16640645, 16648888, 16656635, 16663916, 16670758, 16677189, 16683232,
  16688912]
def th3 : List Nat := [16694249, 16699264, 16703976, 16708404, 16712566, 16716475, 16720149, 16723601, 16726845,
  16729892, 16732756, 16735446, 16737974, 16740349, 16742580, 16744677, 16746646, 16748497, 16750235, 16751869,
  16753403, 16754845, 16756200, 16757472, 16758668, 16759791, 16760846, 16761838, 16762769, 16763644, 16764466,
  16765238]
def th4 : List Nat := [16765964, 16766645, 16767285, 16767887, 16768452, 16768983, 16769481, 16769950, 16770390,
  16770804, 16771192, 16771557, 16771900, 16772222, 16772524, 16772809, 16773076, 16773326, 16773562, 16773783,
  16773991, 16774187, 16774370, 16774543, 16774705, 16774857, 16775000, 16775134, 16775260, 16775379, 16775490,
  16775594]
def th5 : List Nat := [16775693, 16775785, 16775872, 16775953, 16776030, 16776102, 16776169, 16776232, 16776292,
  16776348, 16776401, 16776450, 16776496, 16776540, 16776581, 16776619, 16776656, 16776690, 16776721, 16776751,
  16776780, 16776806, 16776831, 16776854, 16776876, 16776897, 16776916, 16776934, 16776951, 16776967, 16776982,
  16776997]
def th6 : List Nat := [16777010, 16777022, 16777034, 16777045, 16777055, 16777065, 16777074, 16777083, 16777091,
  16777099, 16777106, 16777112, 16777119, 16777125, 16777130, 16777135, 16777140, 16777145, 16777149, 16777153,
  16777157, 16777161, 16777164, 16777167, 16777170, 16777173, 16777175, 16777178, 16777180, 16777182, 16777184,
  16777186]
def th7 : List Nat := [16777188, 16777190, 16777191, 16777193, 16777194, 16777196, 16777197, 16777198, 16777199,
  16777200, 16777201, 16777202, 16777203, 16777204, 16777204, 16777205, 16777206, 16777206, 16777207, 16777207,
  16777208, 16777208, 16777209, 16777209, 16777210, 16777210, 16777211, 16777211, 16777211, 16777211, 16777212,
  16777212]
def th8 : List Nat := [16777212]
/-- g(j) = tanh(j / 32) (R260). -/
def th : List (List Nat) := [th0, th1, th2, th3, th4, th5, th6, th7, th8]

/-- Entry j of a table kept in pieces of 32. -/
def entry (t : List (List Nat)) (j : Nat) : Nat := (t.getD (j / 32) []).getD (j % 32) 0

end Sys2Proof.Machine.Sfu
end

