-- ==== Sys2Proof/Config.lean ====
section
/-! DEFINITION. What one implementation fixes and the free values: values the spec leaves open after a step that goes on.
Every free value is an opaque constant applied to State.free, a counter the step reads and advances (notes/assumptions). -/

namespace Sys2Proof.Config

/-- The value read of a register in the shadow of a landing of an earlier segment: true, the new value (R180). -/
opaque shadowNew : Nat → Bool

/-- An overlapped destination byte of a copy, and an index word rewritten during a gather (R129). -/
opaque copyByte : Nat → BitVec 8

/-- An element of an accumulator whose mma read operands that were written inside its window, or whose mma a debugger
cancelled (R305, R319, R320). -/
opaque accWord : Nat → BitVec 32

/-- The TLB entry that a new translation replaces (R137). -/
opaque tlbVictim : Nat → Nat

/-- A byte returned by another package of the pod (R128, R168). -/
opaque podByte : Nat → BitVec 8

/-- Whether the other package of the pod admits an access (R167). -/
opaque podAdmits : Nat → Bool

/-- The temperature, in degrees C, of the hottest sensor at a shutdown (R386). -/
opaque hottest : Nat → Nat

/-- Vendor and device, class and revision, subsystem, device number of the virtual functions, as the configuration space gives
them (R153). -/
opaque pciIds : Nat → BitVec 32

/-- The header log of the configuration space after a number of logged errors (R153). -/
opaque aerHeader : Nat → BitVec 32

/-- A firmware image as the package may hold it: its bytes, security version, public key and signature (R389). -/
structure Firmware where
  bytes : List (BitVec 8)
  version : Nat
  key : Nat × Nat
  sig : Nat × Nat
  deriving DecidableEq, Repr, Inhabited

/-- The firmware image that the package holds at a package reset (R389). -/
opaque firmware : Nat → Firmware

/-- The digest of the key that verifies firmware images, fused at manufacture (R389). -/
opaque fusedKeyDigest : List (BitVec 8)

/-- The boot ROM's version as measurement 1 gives it (R389). -/
opaque romVersion : List (BitVec 8)

/-- The device certificate chain and its digest (R389). -/
opaque certificate : List (BitVec 8)

/-- A signature by the fused identity key over a message (R389). -/
opaque identitySign : List (BitVec 8) → List (BitVec 8)

/-- The fused key-agreement secret key (R165). -/
opaque keyAgreementPrivate : Nat

/-- CTExponent, DataTransferSize and MaxSPDMmsgSize of the responder, and the same fields of a requester's GET_CAPABILITIES
with its flags (R389). -/
opaque spdmSizes : BitVec 72
opaque spdmRequester : Nat → List (BitVec 8)

/-- The responder's nonce (R389). -/
opaque spdmNonce : Nat → BitVec 256

/-- The place of the pieces the spec leaves opaque in a save area: an engine entry's intermediate state (R319), the layout
of the loop state (R352). -/
opaque savePayload : Nat → BitVec 8

/-- The bin of the temperature histogram that a die is in for a minute (R386). -/
opaque tempBin : Nat → Nat

/-- The corrected errors of HBM met in a powered minute: stack and row of each (R386, R388). -/
opaque corrected : Nat → List (Nat × Nat)

/-- The row of a stack that holds a byte of it, and the bank of a row (R388). -/
opaque hbmRow : Nat → Nat → Nat
opaque hbmBank : Nat → Nat → Nat

/-- The bytes in which the attestation gives the configuration and the lifetime records (R389, measurements 3 and 6). -/
opaque configLayout : List Nat → List (BitVec 8)
opaque lifetimeLayout : List Nat → List (BitVec 8)

/-- Banks of a stack; spare rows of a bank, and spare lanes of a link's module, that are not working or that manufacture test has
used (R166, R388). -/
opaque hbmBanks : Nat
opaque usedRows : Nat → Nat → Nat
opaque usedLanes : Nat → Nat

end Sys2Proof.Config
end

