-- ==== Sys2Proof/Syntax.lean ====
section
/-! DEFINITION. The instructions and events of the KGL-320: one constructor of Instr for every row of the opcode table,
with the operands the spec gives it. Field widths are those of R68, R70, R171 to R174. -/

namespace Sys2Proof

/-! ### The control core: base instructions (R60, R61) -/

/-- Register to register operations of RV64IM, Zba, Zbb and Zicond (R60). -/
inductive AluOp
  | add | sub | sll | slt | sltu | xor | srl | sra | or | and
  | addw | subw | sllw | srlw | sraw
  | mul | mulh | mulhsu | mulhu | div | divu | rem | remu
  | mulw | divw | divuw | remw | remuw
  | sh1add | sh2add | sh3add | addUw | sh1addUw | sh2addUw | sh3addUw
  | andn | orn | xnor | max | maxu | min | minu | rol | ror | rolw | rorw
  | czeroEqz | czeroNez
  deriving DecidableEq, Repr

/-- Register to 12-bit immediate operations (R60). -/
inductive AluImmOp
  | addi | slti | sltiu | xori | ori | andi | addiw
  deriving DecidableEq, Repr

/-- Shifts by a 6-bit constant (R60). -/
inductive ShiftImmOp
  | slli | srli | srai | rori | slliUw
  deriving DecidableEq, Repr

/-- Shifts of 32-bit words by a 5-bit constant (R60). -/
inductive ShiftImmWOp
  | slliw | srliw | sraiw | roriw
  deriving DecidableEq, Repr

/-- Operations on one register (Zbb, R60). -/
inductive UnaryOp
  | clz | ctz | cpop | clzw | ctzw | cpopw | sextB | sextH | zextH | orcB | rev8
  deriving DecidableEq, Repr

/-- Conditions of a branch (R60). -/
inductive BranchOp
  | beq | bne | blt | bge | bltu | bgeu
  deriving DecidableEq, Repr

/-- What CONTROL_COMPUTE covers: the register operations and the transfers of control (R60 to R64). -/
inductive ComputeOp
  | alu (op : AluOp) (rd rs1 rs2 : BitVec 5)
  | aluImm (op : AluImmOp) (rd rs1 : BitVec 5) (imm : BitVec 12)
  | shiftImm (op : ShiftImmOp) (rd rs1 : BitVec 5) (sh : BitVec 6)
  | shiftImmW (op : ShiftImmWOp) (rd rs1 : BitVec 5) (sh : BitVec 5)
  | unary (op : UnaryOp) (rd rs1 : BitVec 5)
  | lui (rd : BitVec 5) (imm : BitVec 20)
  | auipc (rd : BitVec 5) (imm : BitVec 20)
  /-- off is the target's distance in 2-byte units. -/
  | jal (rd : BitVec 5) (off : BitVec 20)
  | jalr (rd rs1 : BitVec 5) (imm : BitVec 12)
  /-- off is the target's distance in 2-byte units. -/
  | branch (op : BranchOp) (rs1 rs2 : BitVec 5) (off : BitVec 12)
  deriving DecidableEq, Repr

/-- The six Zicsr forms (R66). -/
inductive CsrOp
  | rw | rs | rc | rwi | rsi | rci
  deriving DecidableEq, Repr

/-- The loads of RV64I (R22). -/
inductive LoadOp
  | lb | lh | lw | ld | lbu | lhu | lwu
  deriving DecidableEq, Repr

/-- The atomic memory operations of RV64A (R61). -/
inductive AmoOp
  | swap | add | xor | and | or | min | max | minu | maxu
  deriving DecidableEq, Repr

/-- The operation codes of k.amo (R70, R74). -/
inductive KAmoOp
  | add | swap | and | or | xor | min | max | cas
  deriving DecidableEq, Repr

/-! ### The bundle slots (R171 to R174, R197, R206, R245) -/

/-- Scalar register form: flag, destination, two sources (R197). -/
structure SR where
  kc : BitVec 3
  sd : BitVec 6
  sa : BitVec 6
  sb : BitVec 6
  deriving DecidableEq, Repr

/-- Scalar unary form (R197). -/
structure SU where
  kc : BitVec 3
  sd : BitVec 6
  sa : BitVec 6
  deriving DecidableEq, Repr

/-- Scalar form with a 10-bit immediate (R197). -/
structure SI where
  kc : BitVec 3
  sd : BitVec 6
  sa : BitVec 6
  imm : BitVec 10
  deriving DecidableEq, Repr

/-- Scalar shift by a constant (R197). -/
structure SSh where
  kc : BitVec 3
  sd : BitVec 6
  sa : BitVec 6
  cnt : BitVec 6
  deriving DecidableEq, Repr

/-- Move of an immediate, and special read: flag, destination, 10 bits (R197). -/
structure SM where
  kc : BitVec 3
  sd : BitVec 6
  imm : BitVec 10
  deriving DecidableEq, Repr

/-- Scalar compare of two registers (R197). -/
structure SC where
  kc : BitVec 3
  kd : BitVec 3
  sa : BitVec 6
  sb : BitVec 6
  deriving DecidableEq, Repr

/-- Scalar compare with an immediate (R197). -/
structure SCI where
  kc : BitVec 3
  kd : BitVec 3
  sa : BitVec 6
  imm : BitVec 10
  deriving DecidableEq, Repr

/-- Flag logic (R197). -/
structure SK where
  kc : BitVec 3
  kd : BitVec 3
  ka : BitVec 3
  kb : BitVec 3
  deriving DecidableEq, Repr

/-- The type of a floating-point vector operation: t = 0, 1, 2 (R188). -/
inductive FTy
  | f | h2 | b2
  deriving DecidableEq, Repr

/-- Floating-point binary and fused forms (R245). -/
structure VF where
  ty : FTy
  pr : BitVec 4
  d : BitVec 7
  a : BitVec 7
  b : BitVec 7
  deriving DecidableEq, Repr

/-- Floating-point compare (R245). -/
structure VFC where
  ty : FTy
  pr : BitVec 4
  pd : BitVec 4
  a : BitVec 7
  b : BitVec 7
  deriving DecidableEq, Repr

/-- Floating-point classify (R245). -/
structure VFU where
  ty : FTy
  pr : BitVec 4
  d : BitVec 7
  a : BitVec 7
  deriving DecidableEq, Repr

/-- Integer binary form (R245); for vsel, pr is the selector. -/
structure V3 where
  pr : BitVec 4
  d : BitVec 7
  a : BitVec 7
  b : BitVec 7
  deriving DecidableEq, Repr

/-- Integer compare (R245). -/
structure VC where
  pr : BitVec 4
  pd : BitVec 4
  a : BitVec 7
  b : BitVec 7
  deriving DecidableEq, Repr

/-- Move, reduce, partition, and the X slot's approximations (R245, R174). -/
structure V2 where
  pr : BitVec 4
  d : BitVec 7
  a : BitVec 7
  deriving DecidableEq, Repr

/-- A vector form with a small constant of n bits (R245). -/
structure VN (n : Nat) where
  pr : BitVec 4
  d : BitVec 7
  a : BitVec 7
  n : BitVec n
  deriving DecidableEq, Repr

/-- vmovi (R245). -/
structure VImm where
  pr : BitVec 4
  d : BitVec 7
  imm : BitVec 14
  deriving DecidableEq, Repr

/-- vbcs (R245). -/
structure VS where
  pr : BitVec 4
  d : BitVec 7
  s : BitVec 6
  deriving DecidableEq, Repr

/-- Predicate logic (R245). -/
structure PL where
  pr : BitVec 4
  pd : BitVec 4
  pa : BitVec 4
  pb : BitVec 4
  deriving DecidableEq, Repr

/-- ppop (R245). -/
structure PP where
  pr : BitVec 4
  d : BitVec 7
  pa : BitVec 4
  deriving DecidableEq, Repr

/-- cvt: source code, destination code, rounding code (R189, R245). -/
structure Cvt where
  pr : BitVec 4
  d : BitVec 7
  a : BitVec 7
  src : BitVec 4
  dst : BitVec 4
  rnd : BitVec 3
  deriving DecidableEq, Repr

/-- mma and mma.acc (R174, R306). -/
structure XM where
  prof : BitVec 4
  acc : BitVec 5
  aa : BitVec 4
  ab : BitVec 4
  fpe : BitVec 4
  deriving DecidableEq, Repr

/-- mdrain (R174, R311). -/
structure XD where
  acc : BitVec 5
  ad : BitVec 4
  dfmt : BitVec 4
  rnd : BitVec 3
  deriving DecidableEq, Repr

/-- rstat (R174, R312). -/
structure XR where
  acc : BitVec 5
  d : BitVec 7
  stat : BitVec 3
  deriving DecidableEq, Repr

/-- Memory form with an 11-bit offset (R206). -/
structure MO where
  pr : BitVec 4
  dm : BitVec 7
  ar : BitVec 4
  off : BitVec 11
  deriving DecidableEq, Repr

/-- Strided memory form (R206). -/
structure MS where
  pr : BitVec 4
  dm : BitVec 7
  ar : BitVec 4
  s : BitVec 6
  off : BitVec 5
  deriving DecidableEq, Repr

/-- Indexed memory form (R206). -/
structure MX where
  pr : BitVec 4
  dm : BitVec 7
  ar : BitVec 4
  vi : BitVec 7
  deriving DecidableEq, Repr

/-- Scalar load and store (R206). -/
structure MSc where
  pr : BitVec 4
  s : BitVec 6
  ar : BitVec 4
  off : BitVec 11
  deriving DecidableEq, Repr

/-- spill and fill (R206). -/
structure MSp where
  pr : BitVec 4
  dm : BitVec 7
  slot : BitVec 11
  deriving DecidableEq, Repr

/-! ### Events from outside (R101, R105, R154, R167) -/

/-- Where a request of the port leads: one of the two memory BARs of a function (R154), or its configuration space
(R153). -/
inductive Bar
  | bar0 | bar2 | config
  deriving DecidableEq, Repr

/-- A posted Memory Write of the PCIe port: requester (the function), BAR, offset, its bytes under the byte enables, and
whether it is poisoned or fails ECRC (R101, R106, R154). -/
structure Tlp where
  f : Nat
  bar : Bar
  addr : Nat
  data : List (Option Byte)
  bad : Bool
  deriving DecidableEq, Repr

/-- A host read: requester, BAR, offset, length in bytes, tag (R105, R154). -/
structure HostRead where
  f : Nat
  bar : Bar
  addr : Nat
  len : Nat
  tag : Nat
  deriving DecidableEq, Repr

/-- Barrier traffic of another package at .pod: an arrival, a retirement, or the completion of a member here (R294, R295); a
task by its launch, tile, context and number on its own package. -/
inductive PodBarrier
  | arrival (group launch tile ctx task count : Nat)
  | retired (group launch tile ctx task : Nat)
  | completion (launch tile task : Nat) (report : BitVec 256)
  deriving DecidableEq, Repr

/-- An access arriving on the pod links: sending package and whether it holds a valid PODID, the I/O die that carries it,
package physical address, the bytes of a write or the length of a read (R167); or barrier traffic (R294). -/
structure PodAccess where
  src : Nat
  srcValid : Bool
  io : Nat
  addr : Nat
  wr : Option (List Byte)
  len : Nat
  barrier : Option PodBarrier := none
  deriving DecidableEq, Repr

/-- The instructions and events of the part: one constructor for each row of the opcode table, the rows with operands
first. The tile, context, slot or function page a step is done for is no operand: it stands in State.focus. -/
inductive Instr
  /-- FUNCTION_LEVEL_RESET (R169). -/
  | functionLevelReset (f : Nat)
  /-- INBOUND_POSTED_WRITE (R101). -/
  | inboundPostedWrite (t : Tlp)
  /-- ROUTE_APPLY (R104). -/
  | routeApply (id : Nat)
  /-- ROUTE_ACK (R102). -/
  | routeAck (id : Nat)
  /-- HOST_READ (R105). -/
  | hostRead (r : HostRead)
  /-- REGISTER_WRITE (R155). -/
  | registerWrite (f : Nat) (off : Nat) (v : W64)
  /-- DOORBELL (R158). -/
  | doorbell (f q : Nat)
  /-- TLARM_WRITE (R157). -/
  | tlarmWrite (f q : Nat) (v : W64)
  /-- QOWN_WRITE (R158). -/
  | qownWrite (f q : Nat) (v : BitVec 5)
  /-- ASID_ENTRY_WRITE (R160). -/
  | asidEntryWrite (f a : Nat) (high : Bool) (v : W64)
  /-- STALLED_CLEAR (R156). -/
  | stalledClear (f page : Nat)
  /-- REGERR_CLEAR (R156). -/
  | regerrClear (f page : Nat)
  /-- INVALIDATE_PAGE (R162). -/
  | invalidatePage (f : Nat) (asid : W16) (va : BitVec 32)
  /-- INVALIDATE_ASID (R162). -/
  | invalidateAsid (f : Nat) (asid : W16)
  /-- INVALIDATE_ALL (R162). -/
  | invalidateAll (f : Nat)
  /-- INVALIDATE_NONE (R162). -/
  | invalidateNone (f : Nat)
  /-- FAULT_REPLY_RETRY (R141). -/
  | faultReplyRetry (f t c : Nat) (seq : W32)
  /-- FAULT_REPLY_ABORT (R141). -/
  | faultReplyAbort (f t c : Nat) (seq : W32)
  /-- KEY_LOAD (R165). -/
  | keyLoad (slot : Nat)
  /-- KEY_CLEAR (R164). -/
  | keyClear (slot : Nat)
  /-- DEPARTED_SET_FLUSH (R348). -/
  | departedSetFlush (t k : Nat)
  /-- CQUERY (R346). -/
  | cquery (f t c : Nat)
  /-- NEGOTIATE_ALGORITHMS (R389). -/
  | negotiateAlgorithms (asym hash : W32)
  /-- GET_CERTIFICATE (R389). -/
  | getCertificate (off len : Nat)
  /-- CHALLENGE (R389). -/
  | challenge (nonce : BitVec 256)
  /-- GET_MEASUREMENTS (R389). -/
  | getMeasurements (index : Nat) (nonce : BitVec 256)
  /-- LAUNCH_HEAD_VALIDATION (R48). -/
  | launchHeadValidation (q : Nat)
  /-- CLOCK_STRETCH (R380). -/
  | clockStretch (t : Nat) (pct : Nat)
  /-- LANE_SWAP (R388). -/
  | laneSwap (link : Nat)
  /-- LINK_RETRAIN (R28). -/
  | linkRetrain (link : Nat)
  /-- ROW_REPAIR (R388). -/
  | rowRepair (stack row : Nat)
  /-- BARRIER_ARRIVAL (R294). -/
  | barrierArrival (id : Nat)
  /-- RETIREMENT_MESSAGE (R295). -/
  | retirementMessage (id : Nat)
  /-- BARRIER_COMPLETION (R295). -/
  | barrierCompletion (id : Nat)
  /-- SEMAPHORE_CREDIT (R24). -/
  | semaphoreCredit (id : Nat)
  /-- WRITE_APPLY (R118). -/
  | writeApply (id : Nat)
  /-- REMOTE_ATOMIC (R74). -/
  | remoteAtomic (id : Nat)
  /-- FUTURE_PUT_APPLY (R82). -/
  | futurePutApply (id : Nat)
  /-- READ_SERVE (R119). -/
  | readServe (id : Nat)
  /-- READ_RESPONSE (R119). -/
  | readResponse (id : Nat)
  /-- FRONTIER_MESSAGE (R118). -/
  | frontierMessage (src home : Nat)
  /-- FRONTIER_REQUEST (R118). -/
  | frontierRequest (home src : Nat)
  /-- FRONTIER_UPDATE (R118). -/
  | frontierUpdate (id : Nat)
  /-- COPY_HEAD_CHECK (R131). -/
  | copyHeadCheck (t k ch : Nat)
  /-- COPY_MOVE (R129). -/
  | copyMove (id : Nat)
  /-- COPY_GATHER (R129). -/
  | copyGather (id : Nat)
  /-- COPY_CONVERT (R144). -/
  | copyConvert (id : Nat)
  /-- COPY_ACCUM (R144). -/
  | copyAccum (id : Nat)
  /-- COPY_ACCUMK (R147). -/
  | copyAccumk (id : Nat)
  /-- SECTOR_LANDED (R132). -/
  | sectorLanded (id : Nat)
  /-- STACK_GATHER (R146). -/
  | stackGather (t k ord : Nat)
  /-- STACK_REDUCE (R146). -/
  | stackReduce (t k ord : Nat)
  /-- STACK_CONVERT (R146). -/
  | stackConvert (t k ord : Nat)
  /-- STACK_OPEN (R147). -/
  | stackOpen (t k ord : Nat)
  /-- SESSION_FOLD (R147). -/
  | sessionFold (id stack : Nat)
  /-- STACK_ENTRY_LEAVE (R86). -/
  | stackEntryLeave (t k : Nat)
  /-- POD_SECTOR_TIMEOUT (R168). -/
  | podSectorTimeout (id : Nat)
  /-- CSRR (R18). -/
  | csrr (csr : BitVec 12) (rd : BitVec 5)
  /-- CSR_WRITE (R66). -/
  | csrWrite (op : CsrOp) (csr : BitVec 12) (rd rs : BitVec 5)
  /-- CONTROL_LOAD (R22). -/
  | controlLoad (op : LoadOp) (rd rs1 : BitVec 5) (imm : BitVec 12)
  /-- CONTROL_STORE (R22). -/
  | controlStore (sz : BitVec 2) (rs1 rs2 : BitVec 5) (imm : BitVec 12)
  /-- LR (R61). -/
  | lr (dbl aq rl : Bool) (rd rs1 : BitVec 5)
  /-- SC (R61). -/
  | sc (dbl aq rl : Bool) (rd rs1 rs2 : BitVec 5)
  /-- CONTROL_AMO (R61). -/
  | controlAmo (op : AmoOp) (dbl aq rl : Bool) (rd rs1 rs2 : BitVec 5)
  /-- FENCE (R61). -/
  | fence (imm : BitVec 12) (rs1 rd : BitVec 5)
  /-- FENCE_I (R61). -/
  | fenceI (imm : BitVec 12) (rs1 rd : BitVec 5)
  /-- CONTROL_COMPUTE (R62). -/
  | controlCompute (op : ComputeOp)
  /-- K_LDA (R72). -/
  | kLda (sz : BitVec 2) (scope : BitVec 3) (spad : Bool) (rd rs1 : BitVec 5)
  /-- K_STL (R73). -/
  | kStl (sz : BitVec 2) (scope : BitVec 3) (spad : Bool) (rs1 rs2 : BitVec 5)
  /-- K_AMO_W (R74). -/
  | kAmoW (op : KAmoOp) (scope : BitVec 3) (spad : Bool) (rd rs1 rs2 : BitVec 5)
  /-- K_AMO_D (R74). -/
  | kAmoD (op : KAmoOp) (scope : BitVec 3) (spad : Bool) (rd rs1 rs2 : BitVec 5)
  /-- K_FENCE (R75). -/
  | kFence (scope : BitVec 3)
  /-- K_SARM (R77). -/
  | kSarm (rs1 rs2 : BitVec 5)
  /-- K_SARM_Z (R77). -/
  | kSarmZ (rs1 rs2 : BitVec 5)
  /-- K_SPOST (R78). -/
  | kSpost (scope : BitVec 3) (rs1 rs2 : BitVec 5)
  /-- K_SWAIT (R79). -/
  | kSwait (rd rs1 rs2 : BitVec 5)
  /-- K_SREAD (R80). -/
  | kSread (rd rs1 : BitVec 5)
  /-- K_FPUT (R82). -/
  | kFput (scope : BitVec 3) (rs1 rs2 : BitVec 5)
  /-- K_FGET (R83). -/
  | kFget (rd rs1 : BitVec 5)
  /-- K_FTRY (R83). -/
  | kFtry (rd rs1 : BitVec 5)
  /-- K_RUN (R87). -/
  | kRun (rd rs1 : BitVec 5)
  /-- K_RUNI (R87). -/
  | kRuni (rd rs1 rs2 : BitVec 5)
  /-- K_COPY (R88). -/
  | kCopy (ch : BitVec 2) (rd rs1 : BitVec 5)
  /-- K_COPYI_IN (R88). -/
  | kCopyiIn (ch : BitVec 2) (rd rs1 rs2 : BitVec 5)
  /-- K_COPYI_OUT (R88). -/
  | kCopyiOut (ch : BitVec 2) (rd rs1 rs2 : BitVec 5)
  /-- K_STK (R89). -/
  | kStk (rd rs1 : BitVec 5)
  /-- K_MFENCE (R90). -/
  | kMfence (mask : BitVec 6)
  /-- K_TLWAIT (R91). -/
  | kTlwait (q : BitVec 3) (rd rs1 rs2 : BitVec 5)
  /-- K_TLREAD (R91). -/
  | kTlread (q : BitVec 3) (rd : BitVec 5)
  /-- K_QSTAT (R91). -/
  | kQstat (q : BitVec 3) (rd : BitVec 5)
  /-- K_PARCEL (R92). -/
  | kParcel (rd : BitVec 5)
  /-- K_PINFO (R92). -/
  | kPinfo (sel : BitVec 3) (rd rs1 : BitVec 5)
  /-- K_BAR (R94). -/
  | kBar (scope : BitVec 3) (rd rs1 rs2 : BitVec 5)
  /-- K_BARW (R94). -/
  | kBarw (scope : BitVec 3) (rd rs1 rs2 : BitVec 5)
  /-- K_CLOSURE (R94). -/
  | kClosure (scope : BitVec 3) (rd rs1 : BitVec 5)
  /-- K_LAUNCH (R95). -/
  | kLaunch (q : BitVec 3) (rd rs1 rs2 : BitVec 5)
  /-- K_HYIELD (R85). -/
  | kHyield (rs1 : BitVec 5)
  /-- K_PAUSE (R97). -/
  | kPause (n : BitVec 12)
  /-- K_STAMP (R98). -/
  | kStamp (id : BitVec 12) (rd : BitVec 5)
  /-- K_TRACE (R98). -/
  | kTrace (id : BitVec 12) (rs1 : BitVec 5)
  /-- K_ACCT (R98). -/
  | kAcct (rd rs1 : BitVec 5)
  /-- K_RAISE (R98). -/
  | kRaise (rs1 : BitVec 5)
  /-- K_RAISE_F (R98). -/
  | kRaiseF (rs1 : BitVec 5)
  /-- ADD (R198). -/
  | add (g : SR)
  /-- SUB (R198). -/
  | sub (g : SR)
  /-- MUL (R198). -/
  | mul (g : SR)
  /-- MULH (R198). -/
  | mulh (g : SR)
  /-- MULHN (R198). -/
  | mulhn (g : SR)
  /-- AND (R198). -/
  | and (g : SR)
  /-- OR (R198). -/
  | or (g : SR)
  /-- XOR (R198). -/
  | xor (g : SR)
  /-- ANDN (R198). -/
  | andn (g : SR)
  /-- SHL (R198). -/
  | shl (g : SR)
  /-- SHR (R198). -/
  | shr (g : SR)
  /-- SRA (R198). -/
  | sra (g : SR)
  /-- ROTL (R198). -/
  | rotl (g : SR)
  /-- MIN (R198). -/
  | min (g : SR)
  /-- MAX (R198). -/
  | max (g : SR)
  /-- MINN (R198). -/
  | minn (g : SR)
  /-- MAXN (R198). -/
  | maxn (g : SR)
  /-- CLZ (R198). -/
  | clz (g : SU)
  /-- POPC (R198). -/
  | popc (g : SU)
  /-- SEL (R201). -/
  | sel (g : SR)
  /-- ADDI (R199). -/
  | addi (g : SI)
  /-- MOVI (R199). -/
  | movi (g : SM)
  /-- MOVHI (R199). -/
  | movhi (g : SI)
  /-- SHL_I (R199). -/
  | shlI (g : SSh)
  /-- SHR_I (R199). -/
  | shrI (g : SSh)
  /-- SRA_I (R199). -/
  | sraI (g : SSh)
  /-- ROTL_I (R199). -/
  | rotlI (g : SSh)
  /-- AND_I (R199). -/
  | andI (g : SI)
  /-- OR_I (R199). -/
  | orI (g : SI)
  /-- XOR_I (R199). -/
  | xorI (g : SI)
  /-- CEQ (R200). -/
  | ceq (g : SC)
  /-- CNE (R200). -/
  | cne (g : SC)
  /-- CLT (R200). -/
  | clt (g : SC)
  /-- CLE (R200). -/
  | cle (g : SC)
  /-- CLTN (R200). -/
  | cltn (g : SC)
  /-- CLEN (R200). -/
  | clen (g : SC)
  /-- CEQ_I (R200). -/
  | ceqI (g : SCI)
  /-- CNE_I (R200). -/
  | cneI (g : SCI)
  /-- CLT_I (R200). -/
  | cltI (g : SCI)
  /-- CLE_I (R200). -/
  | cleI (g : SCI)
  /-- CLTN_I (R200). -/
  | cltnI (g : SCI)
  /-- CLEN_I (R200). -/
  | clenI (g : SCI)
  /-- KAND (R200). -/
  | kand (g : SK)
  /-- KOR (R200). -/
  | kor (g : SK)
  /-- KXOR (R200). -/
  | kxor (g : SK)
  /-- SMOV (R201). -/
  | smov (g : SM)
  /-- ASET (R202). -/
  | aset (kc : BitVec 3) (ad : BitVec 4) (sa : BitVec 6) (imm : BitVec 10)
  /-- AADD (R202). -/
  | aadd (kc : BitVec 3) (ad : BitVec 4) (imm : BitVec 10)
  /-- AGET (R202). -/
  | aget (kc : BitVec 3) (sd : BitVec 6) (aa : BitVec 4)
  /-- BBC (R203). -/
  | bbc (kc : BitVec 3) (n : BitVec 14)
  /-- MARK (R204). -/
  | mark (id : BitVec 12)
  /-- FADD (R246). -/
  | fadd (g : VF)
  /-- FSUB (R246). -/
  | fsub (g : VF)
  /-- FMUL (R246). -/
  | fmul (g : VF)
  /-- FMA (R246). -/
  | fma (g : VF)
  /-- FMS (R246). -/
  | fms (g : VF)
  /-- FNMA (R246). -/
  | fnma (g : VF)
  /-- FNMS (R246). -/
  | fnms (g : VF)
  /-- FMIN (R248). -/
  | fmin (g : VF)
  /-- FMAX (R248). -/
  | fmax (g : VF)
  /-- FMINN (R248). -/
  | fminn (g : VF)
  /-- FMAXN (R248). -/
  | fmaxn (g : VF)
  /-- FCEQ (R249). -/
  | fceq (g : VFC)
  /-- FCLT (R249). -/
  | fclt (g : VFC)
  /-- FCLE (R249). -/
  | fcle (g : VFC)
  /-- FCUN (R249). -/
  | fcun (g : VFC)
  /-- FCLASS (R250). -/
  | fclass (g : VFU)
  /-- VADD_I32 (R251). -/
  | vaddI32 (g : V3)
  /-- VSUB_I32 (R251). -/
  | vsubI32 (g : V3)
  /-- VMUL_I32 (R251). -/
  | vmulI32 (g : V3)
  /-- VAND (R251). -/
  | vand (g : V3)
  /-- VOR (R251). -/
  | vor (g : V3)
  /-- VXOR (R251). -/
  | vxor (g : V3)
  /-- VANDN (R251). -/
  | vandn (g : V3)
  /-- VSHL (R251). -/
  | vshl (g : V3)
  /-- VSHR (R251). -/
  | vshr (g : V3)
  /-- VSRA (R251). -/
  | vsra (g : V3)
  /-- VMIN_I32 (R251). -/
  | vminI32 (g : V3)
  /-- VMAX_I32 (R251). -/
  | vmaxI32 (g : V3)
  /-- VMIN_N32 (R251). -/
  | vminN32 (g : V3)
  /-- VMAX_N32 (R251). -/
  | vmaxN32 (g : V3)
  /-- VCEQ_I32 (R251). -/
  | vceqI32 (g : VC)
  /-- VCLT_I32 (R251). -/
  | vcltI32 (g : VC)
  /-- VCLT_N32 (R251). -/
  | vcltN32 (g : VC)
  /-- VMOV (R252). -/
  | vmov (g : V2)
  /-- VMOVI (R252). -/
  | vmovi (g : VImm)
  /-- VBCS (R252). -/
  | vbcs (g : VS)
  /-- VSEL (R252). -/
  | vsel (g : V3)
  /-- PACK (R253). -/
  | pack (g : V3)
  /-- UNPACK (R253). -/
  | unpack (g : VN 2)
  /-- PERM (R255). -/
  | perm (g : V3)
  /-- BCL (R255). -/
  | bcl (g : VN 4)
  /-- XCL (R255). -/
  | xcl (g : VN 3)
  /-- VRED_ADD_F (R256). -/
  | vredAddF (g : V2)
  /-- VRED_MAX_F (R256). -/
  | vredMaxF (g : V2)
  /-- VRED_ADD_I32 (R256). -/
  | vredAddI32 (g : V2)
  /-- PART (R257). -/
  | part (g : V2)
  /-- PAND (R258). -/
  | pand (g : PL)
  /-- POR (R258). -/
  | por (g : PL)
  /-- PXOR (R258). -/
  | pxor (g : PL)
  /-- PANDN (R258). -/
  | pandn (g : PL)
  /-- PPOP (R258). -/
  | ppop (g : PP)
  /-- CVT (R254). -/
  | cvt (g : Cvt)
  /-- RSQA (R261). -/
  | rsqa (g : V2)
  /-- RCPA (R261). -/
  | rcpa (g : V2)
  /-- EXP2A (R262). -/
  | exp2a (g : V2)
  /-- LOG2A (R262). -/
  | log2a (g : V2)
  /-- SINA (R263). -/
  | sina (g : V2)
  /-- COSA (R263). -/
  | cosa (g : V2)
  /-- TANHA (R264). -/
  | tanha (g : V2)
  /-- MMA (R306). -/
  | mma (g : XM)
  /-- MMA_ACC (R306). -/
  | mmaAcc (g : XM)
  /-- MZERO (R310). -/
  | mzero (acc : BitVec 5)
  /-- MDRAIN (R311). -/
  | mdrain (g : XD)
  /-- MSET_F (R302). -/
  | msetF (ent : BitVec 4) (s : BitVec 6)
  /-- MSET_C (R302). -/
  | msetC (ent : BitVec 4) (a : BitVec 4)
  /-- MSET_S (R302). -/
  | msetS (ent : BitVec 4) (s : BitVec 6) (a : BitVec 4)
  /-- RSTAT (R312). -/
  | rstat (g : XR)
  /-- VLD (R209). -/
  | vld (g : MO)
  /-- VLD_B (R209). -/
  | vldB (g : MO)
  /-- VLD_S (R209). -/
  | vldS (g : MS)
  /-- VLDX (R209). -/
  | vldx (g : MX)
  /-- VST (R210). -/
  | vst (g : MO)
  /-- VST_S (R210). -/
  | vstS (g : MS)
  /-- VSTX (R210). -/
  | vstx (g : MX)
  /-- SLD (R211). -/
  | sld (g : MSc)
  /-- SST (R211). -/
  | sst (g : MSc)
  /-- SPILL (R212). -/
  | spill (g : MSp)
  /-- FILL (R212). -/
  | fill (g : MSp)
  /-- SWAIT (R216). -/
  | swait (g s : BitVec 6)
  /-- SPOST (R217). -/
  | spost (s : BitVec 6) (scope : BitVec 3) (count : BitVec 13)
  /-- SARM (R218). -/
  | sarm (g s : BitVec 6)
  /-- SARM_Z (R218). -/
  | sarmZ (g s : BitVec 6)
  /-- POD_LINK_FAILURE (R168). -/
  | podLinkFailure (io lane : Nat)
  /-- INCOMING_POD_ACCESS (R167). -/
  | incomingPodAccess (a : PodAccess)
  /-- POD_ACKNOWLEDGEMENT (R122). -/
  | podAcknowledgement (id : Nat)
  /-- PCIE_LINK_TRAINING (R153). -/
  | pcieLinkTraining (lanes gts : Nat)
  /-- MSI_X_UNMASK (R161). -/
  | msiXUnmask (f v : Nat)
  /-- POWER_LIMIT_THROTTLE (R385). -/
  | powerLimitThrottle (die : Nat) (on : Bool)
  /-- ILLEGAL_INSTRUCTION (R68). -/
  | illegalInstruction (w : W32)
  /-- IENC (R185). -/
  | ienc (w : W32)
  /-- PACKAGE_RESET (R38). -/
  | packageReset
  /-- INVALIDATION_DONE (R137). -/
  | invalidationDone
  /-- PREEMPT (R347). -/
  | preempt
  /-- CONTEXT_SAVE (R347). -/
  | contextSave
  /-- RESUME (R350). -/
  | resume
  /-- DUMP (R353). -/
  | dump
  /-- DISCARD (R353). -/
  | discard
  /-- ABORT (R346). -/
  | abort
  /-- DUMP_COMPLETE (R353). -/
  | dumpComplete
  /-- ATTACH (R373). -/
  | attach
  /-- DETACH (R373). -/
  | detach
  /-- HALT (R374). -/
  | halt
  /-- HALTQ (R374). -/
  | haltq
  /-- HALT_TAKES_EFFECT (R374). -/
  | haltTakesEffect
  /-- HALTQ_STABLE (R374). -/
  | haltqStable
  /-- CONT (R373). -/
  | cont
  /-- STEP (R373). -/
  | step
  /-- RDST (R373). -/
  | rdst
  /-- WRST (R373). -/
  | wrst
  /-- CANCEL (R373). -/
  | cancel
  /-- SETBP (R375). -/
  | setbp
  /-- SETWP (R376). -/
  | setwp
  /-- CATCH (R373). -/
  | catchStops
  /-- ACCT (R373). -/
  | acct
  /-- GET_VERSION (R389). -/
  | getVersion
  /-- GET_CAPABILITIES (R389). -/
  | getCapabilities
  /-- GET_DIGESTS (R389). -/
  | getDigests
  /-- ALLOCATION_ATTEMPT (R330). -/
  | allocationAttempt
  /-- BLOCKING_HEAD (R331). -/
  | blockingHead
  /-- TASK_RETIREMENT (R56). -/
  | taskRetirement
  /-- TILE_MOVE (R39). -/
  | tileMove
  /-- HELD_TRAFFIC_RELEASE (R40). -/
  | heldTrafficRelease
  /-- LATE_TRANSITION (R379). -/
  | lateTransition
  /-- RATING_STEP (R382). -/
  | ratingStep
  /-- RATE_FLOOR_RETIREMENT (R387). -/
  | rateFloorRetirement
  /-- DISTRIBUTOR_WEIGHT_UPDATE (R293). -/
  | distributorWeightUpdate
  /-- RATE_SHEET_WRITE (R384). -/
  | rateSheetWrite
  /-- THERMAL_THROTTLE (R385). -/
  | thermalThrottle
  /-- THERMAL_SHUTDOWN (R385). -/
  | thermalShutdown
  /-- WATCHDOG (R355). -/
  | watchdog
  /-- DEAL_STEP (R291). -/
  | dealStep
  /-- RECLAIM (R292). -/
  | reclaim
  /-- SECTOR_START (R133). -/
  | sectorStart
  /-- CONTEXT_SELECT (R334). -/
  | contextSelect
  /-- SEGMENT_BUDGET_SWITCH (R335). -/
  | segmentBudgetSwitch
  /-- RUN_START (R280). -/
  | runStart
  /-- RUN_COMPLETE (R284). -/
  | runComplete
  /-- DRAIN_ISSUE (R272). -/
  | drainIssue
  /-- LANDING (R180). -/
  | landing
  /-- ACCESS_CYCLE (R208). -/
  | accessCycle
  /-- BANK_FREEZE (R214). -/
  | bankFreeze
  /-- SPILL_ACCESS_DONE (R213). -/
  | spillAccessDone
  /-- FETCH_FREEZE (R283). -/
  | fetchFreeze
  /-- SWAIT_RELEASE (R216). -/
  | swaitRelease
  /-- LATE_STOP (R343). -/
  | lateStop
  /-- SAMPLE (R367). -/
  | sample
  /-- PAUSE_END (R97). -/
  | pauseEnd
  /-- K_SWAIT_TIMEOUT (R79). -/
  | kSwaitTimeout
  /-- K_TLWAIT_TIMEOUT (R91). -/
  | kTlwaitTimeout
  /-- K_BARW_TIMEOUT (R94). -/
  | kBarwTimeout
  /-- ECALL (R56). -/
  | ecall
  /-- EBREAK (R61). -/
  | ebreak
  /-- WFI (R61). -/
  | wfi
  /-- K_FRET (R84). -/
  | kFret
  /-- K_JOIN (R90). -/
  | kJoin
  /-- K_EXIT (R96). -/
  | kExit
  /-- NO_OPERATION (R185). -/
  | noOperation
  /-- YIELD (R205). -/
  | yield
  /-- POWER_LOSS (R384). -/
  | powerLoss
  /-- ORDERLY_SHUTDOWN (R384). -/
  | orderlyShutdown
  /-- THERMAL_RECOVERY (R385). -/
  | thermalRecovery
  /-- WCOL (R182). -/
  | wcol
  deriving DecidableEq, Repr

end Sys2Proof
end

