-- ==== Sys2Proof/Machine/State.lean ====
section
/-! DEFINITION. The state of a KGL-320 package as plain data, the reasons a step can stop, and the state after a package
reset. The names are the spec's; each structure cites the rules that name its fields. -/

namespace Sys2Proof.Machine

/-- Why a step stops. -/
inductive Fault
  /-- Raised by a row that is executed when the event, message, entry or waiting agent it names is not there. No run of the
  scheduler makes such a step. Safe: the machine never takes it. -/
  | notDue
  /-- Raised by a row of a tile that carries no task in the context the step names. Safe, as notDue. -/
  | noContext
  /-- Raised by every step once the package has no power (R4, R385). Safe: nothing happens without power. -/
  | noPower
  deriving DecidableEq, Repr

/-- Why a step has no meaning. -/
inductive Refusal
  /-- The row has no meaning in the model yet. Safe. -/
  | notModelled (mnemonic : String)
  deriving DecidableEq, Repr

/-! ### The model's own fields: what is done next -/

/-- Who a step is done for: a logical tile, a context (a key of its table of contexts), a bundle slot, the length in bytes
of the hart's instruction, a function page. -/
structure Focus where
  tile : Nat
  ctx : Nat
  slot : Nat
  len : Nat
  fn : Nat
  deriving DecidableEq, Repr

/-- One thing to do. row executes a row of the table; hart fetches, decodes and executes an instruction of a hart; slot
issues one slot of the bundle that issues; the others expand into more work. -/
inductive Work
  | row (i : Instr) (f : Focus)
  | hart (t c : Nat)
  | slot (t c n : Nat)
  | endBundle (t c : Nat)
  | cycle (t : Nat)
  | wake (t : Nat)
  | engine (t : Nat)
  | control (t : Nat)
  | copies (t : Nat)
  | endCycle (t : Nat)
  /-- the halt record of a context that has just halted (R366, R374) -/
  | haltRecord (t c : Nat)
  deriving DecidableEq, Repr

/-! ### Clocks, semaphores, messages (R23, R117 to R120) -/

/-- A vector clock: components D0 to D7, IO0, IO1 (R117). -/
abbrev Clock := Vector W32 10

/-- A semaphore entry, with the clock of the credits applied to it (R23, R120). -/
structure Sem where
  target : W32
  count : W32
  gen : W16
  err : Bool
  overshot : Bool
  clock : Clock
  deriving DecidableEq, Repr

/-- A home of memory or of barrier arrivals (R110, R294). -/
inductive Home
  | stack (h : Nat)
  | tile (t : Nat)
  | node (d : Nat)
  | host
  | pod
  deriving DecidableEq, Repr

/-- A hart's register that a response brings (R72, R74). -/
structure Reply where
  tile : Nat
  ctx : Nat
  rd : BitVec 5
  size : Nat
  deriving DecidableEq, Repr

/-- An arrival at a barrier node: launch, scope, group, package, member, its weight, tick and count (R93, R294, R296). -/
structure Arrival where
  launch : Nat
  scope : Nat
  group : Nat
  pkg : Nat
  tile : Nat
  ctx : Nat
  task : Nat
  weight : Nat
  tick : Nat
  count : Nat
  retired : Bool
  deriving DecidableEq, Repr

/-- Destination bytes of a sector at one home: address and key slot of each; acc: the formats and rounding of an element
that is added (R129, R144). -/
structure SecItem where
  addrs : List (Nat × Nat)
  data : List Byte
  acc : Option (Nat × Nat × Nat)
  deriving DecidableEq, Repr

/-- What a message does at its home. Addresses are canonical package physical addresses. -/
inductive Body
  /-- bytes to write, none where the byte enable is clear; route: the host write it belongs to -/
  | write (addr : Nat) (data : List (Option Byte)) (key : Nat) (route : Option Nat)
  | atomic (op : KAmoOp) (size addr : Nat) (val cmp : W64) (key : Nat) (dest : Option Reply)
  /-- a block counter's delta for entry n (R370) -/
  | count (addr : Nat) (delta : W64) (key n : Nat) (host : Bool) (tile launch : Nat)
  /-- bytes of a fault record, a ring record or a save area (R35, R140, R347, R364); fn: the function whose vector 0 fires
  when they are written -/
  | post (addr : Nat) (data : List Byte) (key : Nat) (fn : Option Nat)
  /-- the read request of an overflow fill (R213) -/
  | fetch (addr size key : Nat)
  /-- ERR of a semaphore (R150) -/
  | semErr (tile sem : Nat)
  | read (addr size : Nat) (key : Nat) (dest : Reply)
  | response (val : Option W64) (dest : Reply)
  | put (addr : Nat) (val : W64) (tile ctx : Nat)
  | credit (tile sem : Nat) (units : Nat)
  | frontier (v : W32)
  | arrival (a : Arrival)
  | retired (a : Arrival)
  /-- the completion of a member's episode, with its report (R295, R296) -/
  | completion (launch scope tile task : Nat) (report : BitVec 256)
  /-- destination bytes of a sector (R132) -/
  | sector (id : Nat) (items : List SecItem)
  deriving DecidableEq, Repr

/-- A message: source die, home, clock carried, the tick it left (R117, R118). after: accesses that must be performed first;
until they are, the message has not left its tile (R73, R76). own: the hart, as tile and context key, whose access it is. fn:
the function that owns its launch (R124). -/
structure Msg where
  id : Nat
  src : Nat
  home : Home
  clock : Clock
  sent : Nat
  after : List Nat
  own : Option (Nat × Nat)
  /-- the address as the access named it -/
  va : W64
  fn : Nat
  body : Body
  deriving DecidableEq, Repr

/-! ### Harts (R60 to R66, R99) -/

/-- What a hart waits in (R63, R65). -/
inductive WaitFor
  | load
  | sem (g : Nat) (want : W16)
  | cell
  | fence
  | join
  | timeline (q : Nat)
  | parcel
  | bar
  /-- a full queue, with what the command copied at issue (R86 to R89) -/
  | queue (q : Nat) (d : Rec64)
  /-- a full launch queue, with the record read at issue (R95) -/
  | launchQueue (q : Nat) (r : LaunchRec)
  deriving DecidableEq, Repr

/-- A blocking instruction: what it waits for, the row, its length, the absolute deadline (none: no timeout), the tick the
wait began, the watchdog periods reported (R79, R99, R355). -/
structure Wait where
  what : WaitFor
  instr : Instr
  len : Nat
  deadline : Option Nat
  since : Nat
  reported : Nat
  deriving DecidableEq, Repr

structure Hart where
  x : Tab W64
  pc : W64
  fhandler : W64
  fepc : W64
  faddr : W64
  fin : Bool
  fpcw : W32
  fflags : BitVec 5
  /-- one more than the clock cycle at which the hart became ready and unpaused since its last issue (R64); 0: it is not -/
  readyAt : Nat
  /-- clock cycle from which a register may be used (R62) -/
  regAt : Tab Nat
  /-- clock cycle from which the hart may issue after a transfer of control (R62) -/
  nextAt : Nat
  /-- clock cycles left of the pause window (R63, R97) -/
  pause : Nat
  reservation : Option Nat
  wait : Option Wait
  /-- accesses not yet performed: messages and parked accesses (R73, R75) -/
  outst : List Nat
  /-- deadline kept for a blocking instruction that was abandoned (R99) -/
  savedDeadline : Option Nat
  abandoned : Bool
  /-- the task has retired and issues nothing more (R56) -/
  draining : Bool
  /-- the clock of what the hart has acquired: its releases follow the writes that it covers (R73, R120) -/
  acq : Clock
  deriving DecidableEq, Repr

/-! ### Queues of a context (R86, R127, R139, R145, R277) -/

/-- The counts of one queue (R86). -/
structure Counts where
  issued : W64
  retired : W64
  fence : W64
  tlsum : W64
  timeline : W64
  deriving DecidableEq, Repr

/-- A fault that parks a copy or a stack command, and the tick at which it was met (R138 to R140). -/
structure PFault where
  code : Nat
  reason : Nat
  va : W64
  wr : Bool
  tick : Nat
  deriving DecidableEq, Repr

/-- Contiguous bytes of a sector at one end: their home, address and key slot, their place in the sector's bytes, the address the
copy names them by. -/
structure Piece where
  home : Home
  addr : Nat
  key : Nat
  q : Nat
  len : Nat
  va : W64
  deriving DecidableEq, Repr

/-- An entry of a copy channel or of the stack queue: the 64 bytes, a flag for a packet whose register operands were
malformed (R88), the index words of a gather as they stood at its issue, those that have changed since, by number, and where
its rows have been sent, by their place in its stream (R129), its ordinal, validation done, the next sector to start,
sectors landed and the first not landed, the sector it is parked at with its fault and the SEQ of its record, the tick from
which it has been ready to be served (R148), all its work done. -/
structure Entry where
  packet : Rec64
  malformed : Bool
  idx : List Nat
  changed : List Nat
  wrote : List Piece
  ord : Nat
  checked : Bool
  next : Nat
  landed : List Nat
  doneBelow : Nat
  parked : Option (Nat × PFault)
  parkSeq : Option W32
  ready : Option Nat
  finished : Bool
  deriving DecidableEq, Repr

/-- A run-queue entry (R67, R87): descriptor, control word, ordinal, whether the setup was made and whether its last bundle
has issued. -/
structure RunEntry where
  desc : Rec64
  malformed : Bool
  fpcw : W32
  ord : Nat
  passed : Bool
  started : Bool
  issued : Bool
  deriving DecidableEq, Repr

/-! ### The bundle context (R175 to R179, R186, R228, R281, R285, R299 to R301) -/

/-- Part of a run that issues next (R281). -/
inductive Phase
  | prologue | kernel | epilogue | done
  deriving DecidableEq, Repr

/-- The loop state of the current run (R281, R285). -/
structure Loop where
  phase : Phase
  /-- bundle within the part -/
  pos : Nat
  /-- level indices i1 to i5 -/
  idx : List Nat
  /-- kernel iteration -/
  k : Nat
  rrb : Nat
  /-- entries of the descriptor's increments, and steps of the rotating base (none: its reset), that apply at the next bundle -/
  pend : List Nat
  steps : List (Option Bool)
  /-- clock cycle of the run's first bundle -/
  firstClk : Option Nat
  /-- the bundle that issues holds a yield (R205) -/
  yielded : Bool
  deriving DecidableEq, Repr

/-- A last-result latch: the segment it was written in, its lanes; SA and SB hold 64 bits (R178). -/
structure Latch where
  seg : Nat
  lanes : Lanes
  wide : W64
  deriving DecidableEq, Repr

/-- An accumulator's side store: one state byte an element, and the summary flags (R317). -/
structure Side where
  bytes : List Byte
  loss : Bool
  ovf : Bool
  deriving DecidableEq, Repr

structure Bun where
  v : Tab Lanes
  o : Tab Lanes
  latch : Tab Latch
  p : Tab Mask
  s : Tab W64
  k : BitVec 8
  a : Tab W32
  /-- KIND tag of acc u (R300) -/
  kind : Tab Nat
  /-- the 4,096 words of acc u; not listed: zero (R317) -/
  unit : Tab (List W32)
  side : Tab Side
  fmt : Tab (BitVec 586)
  wcols : Bool
  srCount : W64
  icount : W64
  /-- number of the present segment (R178) -/
  seg : Nat
  loop : Loop
  /-- bundles left in the armed window, the marking one included (R369) -/
  armed : Nat
  deriving DecidableEq, Repr

/-! ### Items in flight in the bundle engine (R180, R272, R306, R345) -/

/-- A destination of a landing. -/
inductive Target
  | v (n : Nat)
  | o (n : Nat)
  | p (n : Nat)
  | s (n : Nat)
  | k (n : Nat)
  | a (n : Nat)
  | latchOnly
  deriving DecidableEq, Repr

/-- What the home of an overflow access answered: the bytes of a fill, the clock of the response, and the fault that the home
met as it applied the access: code, reason, byte of the slot (R136, R213). -/
structure FillData where
  bytes : List Byte
  clock : Clock
  fault : Option (Nat × Nat × Nat)
  deriving DecidableEq, Repr

/-- What an mma leaves in its accumulator at its landing: KIND, the words of its units, the side store of an exact one; the
format-pair entry it copied and its profile (R306, R317, R319). -/
structure AccData where
  kind : Nat
  units : List (List W32)
  side : Option Side
  fmt : BitVec 586
  prof : Nat
  deriving DecidableEq, Repr

/-- What an item does when it comes due. -/
inductive ItemKind
  /-- lanes in the mask go to the target, and to the latch if lat; flags set -/
  | vec (tgt : Target) (mask : Mask) (data : Lanes) (lat : Bool) (flags : BitVec 5)
  | pred (n : Nat) (mask bits : Mask) (flags : BitVec 5)
  | scalar (tgt : Target) (val : W64) (lat : Bool)
  | flag (n : Nat) (val : Bool)
  | addr (n : Nat) (val : W32)
  /-- a load in its access cycle: lane addresses, bytes a lane, landing after so many more ic -/
  | load (tgt : Target) (mask : Mask) (addrs : List (Nat × Nat)) (wide : Bool) (lat : Nat)
  | store (mask : Mask) (cells : List (Nat × W64)) (size : Nat)
  /-- an overflow access: virtual address, true for a spill -/
  | spill (va : Nat) (mask : Mask) (data : Lanes) (tgt : Target) (isFill : Bool)
  /-- an overflow access under way: its message, where it leads, the lanes, the target of a fill, and what its home answered once it has (R213) -/
  | spillOut (id : Nat) (addr key : Nat) (host : Bool) (mask : Mask) (tgt : Target) (isFill : Bool) (got : Option FillData)
  | credit (tile sem units : Nat) (scope : Nat)
  | arm (g : Nat) (target : W32) (zero : Bool)
  | fmtC (ent : Nat) (addr : Nat)
  | fmtSet (ent : Nat) (val : BitVec 586)
  | fmtBits (ent : Nat) (lo n : Nat) (val : BitVec 512)
  | mzero (acc : Nat)
  /-- the accumulator is pending until due, when it takes its result (R306, R307) -/
  | accPending (acc : Nat) (res : AccData)
  /-- the matrix engine, or the row-statistics engine, is occupied until due -/
  | busy (rstat : Bool) (acc : Nat)
  /-- a bank-group window whose last access cycle is due - 1 (R305); reads: the operand bytes -/
  | window (groups : List Nat) (acc : Nat) (reads : List (Nat × Nat)) (tainted : Bool)
  | drain (addr : Nat) (data : List Byte) (flags : BitVec 5)
  deriving DecidableEq, Repr

/-- An item: the context's key, due and issue cycles, bundle address and slot, the segment and run that issued it, the
word of the slot. -/
structure Item where
  ctx : Nat
  due : Nat
  issued : Nat
  baddr : Nat
  slot : Nat
  seg : Nat
  run : Nat
  word : W32
  kind : ItemKind
  deriving DecidableEq, Repr

/-! ### Stops, debug, faults (R140, R344, R372 to R376) -/

/-- A stop record (R344). -/
structure Stop where
  tick : Nat
  arg : W64
  addr : W64
  word : W32
  pc : W64
  asid : W16
  tile : Nat
  ctx : Nat
  baddr : Nat
  slot : Nat
  done : Byte
  reason : Nat
  code : Nat
  sec : Bool
  late : Bool
  src : Nat
  deriving DecidableEq, Repr

/-- A watchpoint (R376). -/
structure Watch where
  r : Bool
  w : Bool
  first : Nat
  last : Nat
  deriving DecidableEq, Repr

/-- The debug state of a context (R372 to R376). -/
structure Debug where
  attached : Bool
  bps : Tab (Nat × Nat)
  wps : Tab Watch
  catchMask : W64
  eh : Bool
  hh : Bool
  haltReq : Bool
  quiesce : Bool
  /-- one issue is to be made: bundle false, hart true (R373 STEP) -/
  stepping : Option Bool
  caught : Bool
  /-- skip the breakpoint of the bundle reissued first (R375) -/
  skip : Bool
  /-- code, slot and kind of a halt that waits for the end of an overflow freeze (R374) -/
  pend : Option (Nat × Nat × Bool)
  code : Nat
  slot : Nat
  deriving DecidableEq, Repr

/-- STATE of CSTATE (R346); free is the absence of a context. -/
inductive CState
  | resident | saving | saved | faulted | dumping | dumped | dumpedIncomplete | quarantined
  deriving DecidableEq, Repr

/-- A parked access of a hart (R72, R73, R139): its message, sequence number of its record. -/
structure ParkedAccess where
  id : Nat
  seq : W32
  msg : Body
  va : W64
  write : Bool
  code : Nat
  reason : Nat
  deriving DecidableEq, Repr

/-- A context of a tile with the task bound to it. -/
structure Ctx where
  num : Nat
  st : CState
  lastCode : Nat
  launch : Nat
  task : Nat
  rank : Nat
  exit : Option W32
  /-- its block-counter and hotness write-backs have been sent (R56) -/
  wroteBack : Bool
  /-- the write-backs of block counters that must land before it counts as retired (R56, R370) -/
  backs : List Nat
  hart : Hart
  bun : Bun
  runs : List RunEntry
  chans : Tab (List Entry)
  counts : Tab Counts
  /-- the fault queue: next SEQ, lost records, outstanding parking faults, the reply maps (R140, R351) -/
  seq : W32
  lost : W32
  parkedHart : List ParkedAccess
  parkedSeqs : List W32
  retryMap : List W32
  abortMap : List W32
  /-- hotness counters: BYTES and STALL by buffer (R151) -/
  hot : Tab (W64 × W64)
  /-- barrier episodes by scope: arrivals made, latest completion that reached the tile (R94, R295) -/
  arrived : Tab Nat
  completed : Tab Nat
  /-- the report of the episode whose completion reached the tile last (R295) -/
  closure : Tab (BitVec 256)
  groupOf : Nat
  replay : List Item
  dbg : Debug
  stop : Option Stop
  secondary : Option Stop
  secn : Nat
  /-- late stops to take at the next boundaries, in order (R231, R343) -/
  lateStop : List Stop
  /-- the bundle to reissue: address and done mask (R342) -/
  reissue : Option (Nat × Byte)
  /-- wait count in clock cycles (R336) -/
  waitClk : Nat
  /-- ticks the bundle context has waited on a held bundle or WEN, and periods reported (R355) -/
  heldSince : Option Nat
  heldReported : Nat
  area : Nat
  departed : Bool
  /-- the clock the die held when the context was saved (R121) -/
  savedClock : Clock
  /-- the clock that what has left its queues gives to the k.join or k.tlwait that waits for it: of the responses to its
  engines' reads (R113, R120) -/
  left : Clock
  dumpAsked : Option Nat
  /-- the tick at which its save or dump began (R352) -/
  dumpBegan : Option Nat
  deriving DecidableEq, Repr

/-! ### The tile (R36, R37) -/

/-- The kernel image held by a tile (R45, R50). -/
structure Image where
  hash : BitVec 512
  clen : Nat
  blen : Nat
  markers : List W64
  deriving DecidableEq, Repr

/-- A TLB entry: ASID, size code, virtual page, page-table entry (R137). -/
structure TlbEntry where
  asid : W16
  size : Nat
  page : Nat
  pte : W64
  deriving DecidableEq, Repr

/-- A block counter's delta (R370). -/
structure Delta where
  launch : Nat
  n : Nat
  delta : Nat
  deriving DecidableEq, Repr

/-- The causes of R361. -/
inductive Cause
  | exec | predoff | nop | replay | semwait | bankfrz | spillfrz | starve | idle | switch | loopset | drain | halt
  | fault | throttle | qfull | pause | fetch
  deriving DecidableEq, Repr

/-- What a clock cycle charged to one slot: owner (8: none), cause, program counter (R362). -/
structure Charge where
  owner : Nat
  cause : Cause
  pc : Nat
  deriving DecidableEq, Repr

/-- What the bundle engine does in its turn (R272, R334). -/
inductive TurnStep
  | idle | switch (n : Nat) | loopset | ready
  deriving DecidableEq, Repr

/-- A freeze under way: cause, clock cycles left (none: until it is ended), owner (R273). -/
structure Freeze where
  cause : Cause
  left : Option Nat
  owner : Nat
  pc : Nat
  deriving DecidableEq, Repr

structure Engine where
  ic : Nat
  /-- the issuing context and what its turn does next -/
  turn : Option Nat
  turnStep : TurnStep
  turnClk : Nat
  last : Option Nat
  /-- the freezes under way, which run side by side (R273) -/
  freezes : List Freeze
  items : List Item
  /-- the loop buffer: context, run, captured range, bundles held (R283) -/
  loopBuf : Option (Nat × Nat × Nat × Nat)
  held : List Nat
  /-- the bundle that is fetched without delay: context and address (R283) -/
  fetched : Option (Nat × Nat)
  /-- the bank freeze that the last access cycle calls for: length, owner, bundle (R214) -/
  bankDue : Option (Nat × Nat × Nat)
  /-- the last issue cycle with accesses, and the context and bank group of each (R305) -/
  touched : Nat × List (Nat × Nat)
  /-- the bundle that issues: context, address, the slots that stopped, the slots done -/
  cur : Option (Nat × Nat)
  stopAt : Option Nat
  doneMask : Byte
  /-- an armed freeze run: cause, owner, length, program counter (R369) -/
  frzRun : Option (Cause × Nat × Nat × Nat)
  /-- the contexts that were eligible when the engine took its turn of this clock cycle (R336) -/
  eligible : List Nat
  /-- credits of the engine to semaphores of its own tile in this clock cycle, applied behind the control core: entry,
  units (R115) -/
  credits : List (Nat × Nat)
  deriving DecidableEq, Repr

/-- A sector in flight (R132, R133): whose it is (channel 5: the stack queue, 6: a fold of a session), its number, its
destination bytes on each receiver, its pieces, the fault of its translation or, once it has been moved, the
uncorrectable error it met, whether it has been moved, the messages not yet applied; die: whose agent reads and writes it
(R109); noPath: the tick from which it has had no path (R168). -/
structure Sector where
  id : Nat
  /-- the 64 bytes of its entry, and the address space -/
  packet : Rec64
  asid : W16
  ctx : Nat
  ch : Nat
  ord : Nat
  k : Nat
  bytes : Nat
  receivers : List Nat
  src : List Piece
  dst : List Piece
  fault : Option PFault
  moved : Bool
  out : List Nat
  clock : Clock
  started : Nat
  die : Nat
  noPath : Option Nat
  /-- the index words that its rows take, by local address (R129) -/
  words : List (Nat × Nat)
  /-- of a stack command: the destination bytes that their engines are still to send (R337) -/
  todo : List (Home × SecItem)
  deriving DecidableEq, Repr

structure Tile where
  image : Option Image
  imem : List Host.Cell
  bmem : List Host.Cell
  sems : Tab Sem
  /-- the clock of the latest put kept with each cell, by local address (R120) -/
  cells : Tab Clock
  ctxs : Tab Ctx
  lastAsid : Tab W16
  tlb : List TlbEntry
  sectors : List Sector
  /-- round-robin positions: context key and channel (R133) -/
  rrSet : Nat
  rrCh : Tab Nat
  cache : List Delta
  acct : Tab (BitVec 48)
  elapsed : BitVec 48
  charges : Tab Charge
  samples : Nat
  seq : Nat
  engine : Engine
  /-- the control core: clock cycle count, last issuer (R64) -/
  clk : Nat
  lastHart : Option Nat
  /-- late transitions caught in the present cycle (R379) -/
  errs : Nat
  throttled : Bool
  /-- how much longer a clock cycle is under the clock stretcher, in hundredths (R380) -/
  stretched : Nat
  /-- rate accumulator of the model: clock cycles per tick, in thousandths -/
  phase : Nat
  /-- TILEFAIL has been raised; the tick at which it was (R349) -/
  failed : Option Nat
  /-- the tick from which a fenced tile's number waits for a free tile (R349) -/
  moveWait : Option Nat
  /-- why the tile is to be retired: 0 TILEFAIL, 1 rate floor, 2 link (R386, R387) -/
  retireCause : Nat
  /-- STATE and CODE of the last context that ended under a number (R346, R353) -/
  past : Tab (Nat × Nat)
  deriving DecidableEq, Repr

/-! ### Physical tiles, rating (R38, R39, R382 to R387) -/

/-- A rate sheet (R383). -/
structure Sheet where
  hours : Nat
  tfail : Nat
  retired : Bool
  vnow : Nat
  drift : Int
  points : List (Nat × Nat)
  valid : Bool
  deriving DecidableEq, Repr

structure Site where
  working : Bool
  quad : Nat
  pos : Nat
  v : Nat
  w : Nat
  b : Nat
  r : Nat
  cb : Nat
  cr : Nat
  askRetire : Bool
  thermal : Bool
  /-- the sheet as it would be written now, but for VNOW and DRIFT, and the copies in the MRAM of IO0 and IO1 (R384) -/
  sheet : Sheet
  sheet0 : Sheet
  sheet1 : Sheet
  /-- first and second errors by voltage point, as counted and as kept in MRAM (R386) -/
  first : Tab Nat
  second : Tab Nat
  first0 : Tab Nat
  second0 : Tab Nat
  /-- the window average of v: in 1/16 mV that of the latest whole window, the sum of v by ticks of the present one, the tick
  up to which it runs and that from which, and the average as it stood at the latest write of the sheet (R383) -/
  avg : Nat
  acc : Nat
  accAt : Nat
  winAt : Nat
  avg0 : Nat
  deriving DecidableEq, Repr

/-! ### Launches, queues, parcels, barriers (R44 to R58, R157 to R159, R290 to R296, R329) -/

/-- A record in a launch queue: the record, its number m, the submitter's clock, the status word of a k.launch as tile and
canonical address, HEADT once head, whether it passed the head
validation, blocking. -/
structure QRec where
  record : LaunchRec
  m : Nat
  clock : Clock
  /-- accesses of the submitting hart that must be performed first (R95, R120) -/
  after : List Nat
  status : Option (Nat × Nat)
  fromHost : Bool
  headt : Option Nat
  valid : Bool
  blocking : Bool
  deriving DecidableEq, Repr

structure LQueue where
  stage : LaunchRec
  entered : W64
  timeline : W64
  tlarm : W64
  qown : BitVec 5
  drops : W64
  recs : List QRec
  status : Tab (BitVec 128)
  deriving DecidableEq, Repr

/-- A resident launch: number in order of start, record, queue and record number, tiles in ascending order, tasks not yet
counted retired, exit codes that are not zero, its die clocks merged for completion. -/
structure Launch where
  id : Nat
  record : LaunchRec
  queue : Nat
  m : Nat
  tiles : List Nat
  left : Nat
  nzx : Nat
  lowidx : Option Nat
  clock : Clock
  started : Nat
  deriving DecidableEq, Repr

/-- The distributor's state of one launch (R290). -/
structure Parcels where
  total : Nat
  next : Nat
  drawn : Nat
  q : Tab (List Nat)
  drawnAt : Tab Nat
  hungry : List Nat
  weight : Tab Nat
  deriving DecidableEq, Repr

/-- An episode of a barrier: launch, scope, the node's group of members (quad, die or group number), number, arrivals. -/
structure Episode where
  launch : Nat
  scope : Nat
  group : Nat
  number : Nat
  arrivals : List Arrival
  clock : Clock
  deriving DecidableEq, Repr

/-- The episodes a node has completed for a member group, with the latest report (R295, R296). -/
structure Report where
  launch : Nat
  scope : Nat
  group : Nat
  number : Nat
  bits : BitVec 256
  deriving DecidableEq, Repr

/-! ### Host interface (R101 to R108, R153 to R169, R346, R364, R372) -/

/-- A request that waits at a port: a host write that may not tick yet (R117); a host read with the earlier writes of its
requester that hold it (R102); a read of another package; a write of another package whose messages are still to be
applied (R122). A read holds the clock of its I/O die at its arrival (R117, R119). -/
inductive HostReq
  | write (t : Tlp)
  | read (r : HostRead) (behind : List Nat) (clock : Clock)
  | pod (a : PodAccess) (clock : Clock)
  | podWrite (a : PodAccess) (out : List Nat)
  deriving DecidableEq, Repr

/-- A Memory Write TLP of the device: Requester ID, address, bytes, attributes (R124, R160). -/
structure HostTlp where
  fn : Nat
  addr : Nat
  data : List (Option Byte)
  relaxed : Bool
  idOrder : Bool
  deriving DecidableEq, Repr

/-- A route of an inbound write: its write, the home it goes to, its bytes, its clock, the bytes applied so far, applied
whole (R101, R104, R107). -/
structure Route where
  id : Nat
  write : Nat
  f : Nat
  home : Option Home
  addr : Nat
  data : List (Option Byte)
  clock : Clock
  next : Nat
  applied : Bool
  deriving DecidableEq, Repr

/-- The completion of a host read (R105, R154). -/
inductive Completion
  | data (bytes : List Byte)
  | unsupported
  | abort
  deriving DecidableEq, Repr

/-- A command of a function page, in its serial order (R346, R372). -/
inductive FnCmd
  | ctl (w : W64)
  | debug (w darg ddata : W64)
  deriving DecidableEq, Repr

/-- The writes of an area that a command has sent (R347, R350, R353): SECN of the header that has left, if it has; the messages
not yet performed; one of them was refused. -/
structure AreaWrite where
  header : Option Nat
  out : List Nat
  failed : Bool
  deriving DecidableEq, Repr

structure FnPage where
  discard : W32
  regerr : Bool
  stalled : Bool
  /-- writes that end a stall and were under way when the present one was set: they do not end it (R156; assumption 94) -/
  stale : Nat
  rbase : Tab W64
  rlim : Tab W64
  cdone : W32
  lastop : Byte
  cres : Byte
  cquery : BitVec 12
  cmds : List FnCmd
  /-- a command of R346, or of the debugger, that has started and waits for its completion -/
  busy : Bool
  dbusy : Bool
  /-- the messages of the area that the command under way has sent (R347, R353) -/
  waits : Option AreaWrite
  trcfg : W64
  wp : W64
  rp : W64
  tdrop : W32
  speriod : W32
  darg : W64
  ddata : W64
  ddone : W32
  dlastop : Byte
  dcode : Byte
  dstat : Option (Nat × Nat)
  /-- MSI-X: vectors masked, pending, messages sent (R161) -/
  masked : List Nat
  pending : List Nat
  sent : Tab Nat
  /-- AER: errors logged, and the status bits of their kinds; Device Control of the configuration space (R153) -/
  aer : Nat
  aerStatus : W32
  devctl : W16
  /-- the other registers of the configuration space that software writes, by offset (R153) -/
  config : Tab W32
  deriving DecidableEq, Repr

/-- A key slot (R164). -/
structure KeySlot where
  key : BitVec 512
  asid : W16
  gen : W32
  loaded : Bool
  deriving DecidableEq, Repr

/-- An invalidation under way: kind, writer, ASID, page; sectors that must land first (R137, R162). -/
structure Inval where
  waiting : List Nat
  deriving DecidableEq, Repr

/-- A contribution to a keyed session: its key, its copy as tile, context key, channel and ordinal, the bytes landed. -/
structure Contrib where
  key : Nat
  tile : Nat
  ctx : Nat
  ch : Nat
  ord : Nat
  bytes : Nat
  deriving DecidableEq, Repr

/-- A keyed session (R147, R148): its address space and number, the OPEN that owns it, the pieces of its destination and
its holding area, its engines, the contributions and the keys each engine has folded. -/
structure Session where
  id : Nat
  asid : W16
  sess : Nat
  owner : Nat × Nat
  ord : Nat
  cmd : Rec64
  dst : List Piece
  aux : List Piece
  engines : List Nat
  contribs : List Contrib
  folded : Tab Nat
  deriving DecidableEq, Repr

/-- A component's power limit in watts: before the last change of class, after it, the tick of the change (R7, R385). -/
structure Limit where
  before : Nat
  after : Nat
  since : Nat
  deriving DecidableEq, Repr

/-- A 16-byte shutdown record (R386). -/
structure Shutdown where
  tick : Nat
  cause : Nat
  sensor : Nat
  deriving DecidableEq, Repr

structure Lifetime where
  hours : Nat
  ecc : Tab (Nat × Nat)
  rowsUsed : Tab Nat
  lanesSpared : Tab Nat
  linksDisabled : Nat
  retiredBy : Tab Nat
  temps : Tab Nat
  shutdowns : List Shutdown
  deriving DecidableEq, Repr

/-- The package's phase (R4, R38, R389): lost is a package that lost its power. -/
inductive Boot
  | running | inBoot | off | lost
  deriving DecidableEq, Repr

/-- The state of one package. -/
structure State where
  -- the model's own
  micro : List Work
  agenda : List Work
  script : List Nat
  free : Nat
  focus : Focus
  -- time, power
  now : Nat
  boot : Boot
  cls : Nat
  /-- power limits: compute dies, stacks, the rest (R7, R385) -/
  limits : Tab Limit
  -- memory
  mem : List Host.Cell
  hostMem : List Host.Cell
  /-- what the PCIe port has sent to host memory, oldest first (R124) -/
  hostOut : List HostTlp
  ecc : List Nat
  -- map and rating
  n0 : Nat
  fenced : List Nat
  place : Tab Nat
  dealt : Tab (Nat × Nat × Nat)
  /-- the physical tiles of each die enabled at the latest package reset, as MRAM records them (R38) -/
  chosen : Tab (List Nat)
  sites : Tab Site
  tiles : Tab Tile
  holding : List Nat
  held : List Msg
  safeCeiling : List Nat
  -- clocks
  dies : Tab Clock
  frontiers : List (Home × Clock)
  lines : List (Home × Nat × Clock)
  net : List Msg
  nextId : Nat
  -- launches
  queues : Tab LQueue
  launches : List Launch
  nextLaunch : Nat
  parcels : Tab Parcels
  rotation : Nat
  episodes : List Episode
  reports : List Report
  /-- tasks that a node has counted retired (R295) -/
  retiredTasks : List (Arrival × Clock)
  -- host
  pages : Tab FnPage
  pending : List HostReq
  writes : List (Nat × Nat)
  routes : List Route
  completions : List (Nat × Nat × Completion)
  asids : Tab (BitVec 128)
  /-- high words of ASID entries as last written; they take effect with the low word (R160) -/
  asidHigh : Tab W64
  invals : List Inval
  invdone : W64
  frdrop : W64
  keys : Tab KeySlot
  kstage : BitVec 2048
  kdone : W32
  kres : Byte
  podid : BitVec 9
  admission : Tab (BitVec 128)
  sessions : List Session
  /-- the tile and context each stack engine served last (R337) -/
  stackTurn : Tab (Nat × Nat)
  -- links, sparing, identity
  linkLanes : Nat
  linkRate : Nat
  podDown : List (Nat × Nat)
  deadLinks : List Nat
  /-- repaired rows by stack, and the corrected errors that a stack's row has met (R388) -/
  repaired : List (Nat × Nat)
  rowErrs : List (Nat × Nat × Nat)
  /-- rows whose unit with an uncorrectable error has been rewritten, by stack (R388) -/
  rewritten : List (Nat × Nat)
  /-- spare lanes in use, by link (R388) -/
  lanesUsed : Tab Nat
  /-- the lifetime records as counted, and as kept in MRAM (R386) -/
  lifetime : Lifetime
  mram : Lifetime
  /-- the fused security version, and which firmware image the package holds (R389) -/
  secVersion : Nat
  imageNo : Nat
  spdmVersion : Nat
  spdmAlgs : Bool
  /-- the requests and responses of the SPDM connection, oldest first, that its signatures cover (R389) -/
  spdmLog : List (List Byte)
  sideband : List (List Byte)
  deriving DecidableEq, Repr

/-! ### The state after a package reset with a valid firmware image (R38) -/

/-- The clock of a package reset: every component zero (R117). -/
def Clock.zero : Clock := Vector.replicate 10 0

/-- A semaphore entry after reset (R23). -/
def Sem.reset : Sem := { target := 0, count := 0, gen := 0, err := false, overshot := false, clock := Clock.zero }

def Focus.reset : Focus := { tile := 0, ctx := 0, slot := 0, len := 4, fn := 0 }

def Hart.reset : Hart :=
  { x := [], pc := 0, fhandler := 0, fepc := 0, faddr := 0, fin := false, fpcw := 0, fflags := 0, readyAt := 0, regAt := [], nextAt := 0, pause := 0, reservation := none, wait := none, outst := [],
    savedDeadline := none, abandoned := false, draining := false, acq := Clock.zero }

def Counts.reset : Counts := { issued := 0, retired := 0, fence := 0, tlsum := 0, timeline := 0 }

def Loop.reset : Loop := { phase := .done, pos := 0, idx := [0, 0, 0, 0, 0], k := 0, rrb := 0, pend := [], steps := [], firstClk := none, yielded := false }

def Side.reset : Side := { bytes := [], loss := false, ovf := false }

def Bun.reset : Bun :=
  { v := [], o := [], latch := [], p := [], s := [], k := 0, a := [], kind := [], unit := [], side := [], fmt := [],
    wcols := false, srCount := 0, icount := 0, seg := 0, loop := Loop.reset, armed := 0 }

def Debug.reset : Debug :=
  { attached := false, bps := [], wps := [], catchMask := 0, eh := false, hh := false, haltReq := false, quiesce := false,
    stepping := none, caught := false, skip := false, pend := none, code := 0, slot := 0 }

def Ctx.reset : Ctx :=
  { num := 0, st := .resident, lastCode := 0, launch := 0, task := 0, rank := 0, exit := none, wroteBack := false, backs := [], hart := Hart.reset,
    bun := Bun.reset, runs := [], chans := [], counts := [], seq := 0, lost := 0, parkedHart := [], parkedSeqs := [],
    retryMap := [], abortMap := [], hot := [], arrived := [], completed := [], closure := [], groupOf := 0, replay := [],
    dbg := Debug.reset, stop := none, secondary := none, secn := 0, lateStop := [], reissue := none, waitClk := 0,
    heldSince := none, heldReported := 0, area := 0, departed := false, savedClock := Clock.zero, left := Clock.zero, dumpAsked := none, dumpBegan := none }

def Engine.reset : Engine :=
  { ic := 0, turn := none, turnStep := .idle, turnClk := 0, last := none, freezes := [], items := [],
    loopBuf := none, held := [], fetched := none, bankDue := none, touched := (0, []), cur := none, stopAt := none, doneMask := 0, frzRun := none, eligible := [], credits := [] }

def Tile.reset : Tile :=
  { image := none, imem := [], bmem := [], sems := [], cells := [], ctxs := [], lastAsid := [], tlb := [], sectors := [], rrSet := 0,
    rrCh := [], cache := [], acct := [], elapsed := 0, charges := [], samples := 0,
    seq := 0, engine := Engine.reset, clk := 0, lastHart := none, errs := 0, throttled := false, stretched := 0,
    phase := 0, failed := none, moveWait := none, retireCause := 0, past := [] }

/-- The rate sheet of a new part in this model: 1,900 MHz at every point, 600 mV. DESIGN CHOICE, assumption 6. -/
def Sheet.reset : Sheet :=
  { hours := 0, tfail := 0, retired := false, vnow := 600, drift := 0, points := List.replicate 8 (1900, 0), valid := true }

/-- Site i of a die after reset: quad and position of the tile it carries, if i < 40 (R21, R38); v is VNOW and w is
FMAX of point 3 (R382). -/
def Site.reset (i : Nat) : Site :=
  { working := true, quad := i / 4, pos := i % 4, v := 600, w := 1900, b := 0, r := 0, cb := 0, cr := 0,
    askRetire := false, thermal := false, sheet := Sheet.reset, sheet0 := Sheet.reset, sheet1 := Sheet.reset, first := [], second := [],
    first0 := [], second0 := [], avg := 9600, acc := 0, accAt := 0, winAt := 0, avg0 := 9600 }

def LQueue.reset : LQueue :=
  { stage := 0, entered := 0, timeline := 0, tlarm := 0, qown := 0, drops := 0, recs := [], status := [] }

def FnPage.reset : FnPage :=
  { discard := 0, regerr := false, stalled := false, stale := 0, rbase := [], rlim := [], cdone := 0, lastop := 0, cres := 0,
    cquery := 0, cmds := [], busy := false, dbusy := false, waits := none, trcfg := 0, wp := 0, rp := 0, tdrop := 0, speriod := 0, darg := 0, ddata := 0,
    ddone := 0, dlastop := 0, dcode := 0, dstat := none, masked := List.range 8, pending := [], sent := [], aer := 0, aerStatus := 0, devctl := 0x2000, config := [] }

def KeySlot.reset : KeySlot := { key := 0, asid := 0, gen := 0, loaded := false }

def Lifetime.reset : Lifetime :=
  { hours := 0, ecc := [], rowsUsed := [], lanesSpared := [], linksDisabled := 0, retiredBy := [], temps := [],
    shutdowns := [] }

/-- The package after a package reset: 320 tiles enabled, dealt as R21 lays out, nothing resident, every clock, counter and
semaphore zero. Values the spec gives no reset for are named in notes/assumptions. -/
def State.reset : State :=
  { micro := [], agenda := [], script := [], free := 0, focus := Focus.reset, now := 0, boot := .running, cls := 1, limits := [],
    mem := [], hostMem := [], hostOut := [], ecc := [], n0 := 320, fenced := [], place := [], dealt := [], chosen := [], sites := [], tiles := [],
    holding := [], held := [], safeCeiling := [], dies := [], frontiers := [], lines := [], net := [], nextId := 0,
    queues := [], launches := [], nextLaunch := 0, parcels := [], rotation := 0, episodes := [], reports := [],
    retiredTasks := [], pages := [], pending := [], writes := [], routes := [], completions := [], asids := [], asidHigh := [],
    invals := [], invdone := 0, frdrop := 0, keys := [], kstage := 0, kdone := 0, kres := 0, podid := 0, admission := [],
    sessions := [], stackTurn := [], linkLanes := 16, linkRate := 128, podDown := [], deadLinks := [], repaired := [], rowErrs := [], rewritten := [], lanesUsed := [], lifetime := Lifetime.reset, mram := Lifetime.reset,
    secVersion := 0, imageNo := 0, spdmVersion := 0, spdmAlgs := false, spdmLog := [], sideband := [] }

end Sys2Proof.Machine
end

