-- ==== Sys2Proof/Machine/Flags.lean ====
section
/-! DEFINITION. The sticky floating-point flags and their traps (R66, R229 to R231), the comparisons that write flags k and
predicates (R200, R249, R251), and the flags of a semaphore word (R79, R80). -/

namespace Sys2Proof.Machine

/-- The sticky flags of kfflags (R66, R230). -/
structure FFlags where
  nv : Bool
  dz : Bool
  ovf : Bool
  unf : Bool
  nx : Bool
  deriving DecidableEq, Repr

def FFlags.none : FFlags := ⟨false, false, false, false, false⟩
def FFlags.invalid : FFlags := ⟨true, false, false, false, false⟩
def FFlags.divZero : FFlags := ⟨false, true, false, false, false⟩
def FFlags.overflow : FFlags := ⟨false, false, true, false, true⟩
def FFlags.tiny : FFlags := ⟨false, false, false, true, true⟩
def FFlags.or (a b : FFlags) : FFlags := ⟨a.nv || b.nv, a.dz || b.dz, a.ovf || b.ovf, a.unf || b.unf, a.nx || b.nx⟩

/-- A bit as a word of one bit. -/
def bit (b : Bool) : BitVec 1 := if b then 1 else 0

/-- The five bits as kfflags holds them: invalid on top, inexact at the bottom (R66). -/
def FFlags.bits (f : FFlags) : BitVec 5 := bit f.nv ++ bit f.dz ++ bit f.ovf ++ bit f.unf ++ bit f.nx

/-! ### The control word (R229) -/

/-- The trap bits TIV to TIX of a control word, in the order of kfflags (R229). -/
def trapMask (fpcw : W32) : BitVec 5 := fpcw.extractLsb' 8 5

/-- Whether a landing that sets these flags raises FPTRAP under a control word (R231). -/
def traps (fpcw : W32) (flags : BitVec 5) : Bool := decide (flags &&& trapMask fpcw ≠ 0)

/-- WCOLT, FTZ and RM of a control word. -/
def wcolt (fpcw : W32) : Bool := fpcw.getLsbD 16
def ftzOf (fpcw : W32) : Bool := fpcw.getLsbD 2
def rmOf (fpcw : W32) : Nat := (fpcw.extractLsb' 0 2).toNat

/-- The bits of a control word that a write keeps (R14, R229). -/
def fpcwBits (v : W32) : W32 := v &&& 0x00011F07

/-! ### Comparisons (R200, R251) -/

/-- The comparisons of the scalar slots. -/
inductive Cmp
  | eq | ne | lt | le | ltn | len
  deriving DecidableEq, Repr

/-- The flag a comparison of two words gives (R200): n forms unsigned. -/
def Cmp.test {w : Nat} (c : Cmp) (a b : BitVec w) : Bool :=
  match c with
  | .eq => decide (a = b)
  | .ne => decide (a ≠ b)
  | .lt => a.slt b
  | .le => a.sle b
  | .ltn => a.ult b
  | .len => a.ule b

/-! ### Results of semaphore reads (R79, R80) -/

/-- The result of k.swait: generation, timeout, error (R79). -/
def swaitResult (x : Sem) (timeout : Bool) : W64 := (0 : BitVec 46) ++ bit x.err ++ bit timeout ++ x.gen

/-- The result of k.sread (R80). -/
def sreadResult (x : Sem) : W64 := (0 : BitVec 14) ++ bit x.overshot ++ bit x.err ++ x.gen ++ x.count

end Sys2Proof.Machine
end

