-- ==== Sys2Proof/Machine/Numbers.lean ====
section
/-! DEFINITION. Number formats and the one rounding function of the device (R221 to R227). An exact finite value is a sign,
a whole number and a power of two, so every product and every sum is exact until round() delivers it. -/

namespace Sys2Proof.Machine

/-! ### Values -/

/-- A number: a NaN and whether it is signalling, an infinity, or plus or minus m times 2 to the e. -/
inductive Val
  | nan (sig : Bool)
  | inf (neg : Bool)
  | fin (neg : Bool) (m : Nat) (e : Int)
  deriving DecidableEq, Repr

def Val.zero : Val := .fin false 0 0
def Val.isNan : Val → Bool
  | .nan _ => true
  | _ => false
def Val.isSig : Val → Bool
  | .nan b => b
  | _ => false
def Val.isZero : Val → Bool
  | .fin _ m _ => decide (m = 0)
  | _ => false
def Val.isInf : Val → Bool
  | .inf _ => true
  | _ => false
def Val.neg? : Val → Bool
  | .nan _ => false
  | .inf n => n
  | .fin n _ _ => n
def Val.negate : Val → Val
  | .nan b => .nan b
  | .inf n => .inf (!n)
  | .fin n m e => .fin (!n) m e

/-- The whole number m times 2 to the e, with its sign, counted in units of 2 to the lo; lo is at most e. -/
def scaled (n : Bool) (m : Nat) (e lo : Int) : Int :=
  let k : Int := Int.ofNat (m * 2 ^ (e - lo).toNat)
  if n then -k else k

/-- A value from a count of units of 2 to the e. -/
def ofUnits (k : Int) (e : Int) : Val := .fin (decide (k < 0)) k.natAbs e

/-- The exact product (R222, R247). nan for 0 times infinity. -/
def Val.mul : Val → Val → Val
  | .nan _, _ => .nan false
  | _, .nan _ => .nan false
  | .inf a, .inf b => .inf (a != b)
  | .inf a, .fin b m _ => if m = 0 then .nan false else .inf (a != b)
  | .fin a m _, .inf b => if m = 0 then .nan false else .inf (a != b)
  | .fin a m e, .fin b n f => .fin (a != b) (m * n) (e + f)

/-- The exact sum; down says that a zero from terms of opposite sign is -0 (R247). nan for infinities of opposite sign. -/
def Val.add (down : Bool) : Val → Val → Val
  | .nan _, _ => .nan false
  | _, .nan _ => .nan false
  | .inf a, .inf b => if a = b then .inf a else .nan false
  | .inf a, .fin _ _ _ => .inf a
  | .fin _ _ _, .inf b => .inf b
  | .fin a m e, .fin b n f =>
    if m = 0 ∧ n = 0 then .fin (if a = b then a else down) 0 0
    else
      let lo := if e ≤ f then e else f
      let k := scaled a m e lo + scaled b n f lo
      if k = 0 then .fin down 0 0 else ofUnits k lo

/-- Order of two numbers that are no NaN, with -0 below +0 if strictZero (R248, R249). -/
def Val.lt (strictZero : Bool) : Val → Val → Bool
  | .inf a, .inf b => a && !b
  | .inf a, .fin _ _ _ => a
  | .fin _ _ _, .inf b => !b
  | .fin a m e, .fin b n f =>
    if m = 0 ∧ n = 0 then strictZero && a && !b
    else
      let lo := if e ≤ f then e else f
      decide (scaled a m e lo < scaled b n f lo)
  | _, _ => false

/-! ### Formats (R221, R224) -/

/-- What the code with exponent all ones means (R221, R222). -/
inductive Top
  /-- infinity and NaNs -/
  | ieee
  /-- E4M3: only mantissa all ones is a NaN -/
  | maxNan
  /-- E3M4: the code of -0 is the NaN -/
  | zeroNan
  /-- no NaN -/
  | plain
  deriving DecidableEq, Repr

/-- A floating-point format: widths of exponent and mantissa, bias, its codes of note, low bits that stand for nothing. -/
structure FFmt where
  eb : Nat
  mb : Nat
  bias : Nat
  top : Top
  pad : Nat
  deriving DecidableEq, Repr

def fp32 : FFmt := ⟨8, 23, 127, .ieee, 0⟩
def fp22 : FFmt := ⟨8, 13, 127, .ieee, 10⟩
def bf16 : FFmt := ⟨8, 7, 127, .ieee, 0⟩
def fp16 : FFmt := ⟨5, 10, 15, .ieee, 0⟩
def e5m2 : FFmt := ⟨5, 2, 15, .ieee, 0⟩
def e4m3 : FFmt := ⟨4, 3, 7, .maxNan, 0⟩
def e3m4 : FFmt := ⟨3, 4, 3, .zeroNan, 0⟩
def e3m2 : FFmt := ⟨3, 2, 3, .plain, 0⟩
def e2m3 : FFmt := ⟨2, 3, 1, .plain, 0⟩
def e2m1 : FFmt := ⟨2, 1, 1, .plain, 0⟩

/-- Bits of a code without the pad. -/
def FFmt.width (f : FFmt) : Nat := 1 + f.eb + f.mb
def FFmt.emin (f : FFmt) : Int := 1 - Int.ofNat f.bias
def FFmt.hasInf (f : FFmt) : Bool := decide (f.top = .ieee)

/-- The magnitude code of the largest finite number. -/
def FFmt.maxCode (f : FFmt) : Nat :=
  match f.top with
  | .ieee => (2 ^ f.eb - 1) * 2 ^ f.mb - 1
  | .maxNan => 2 ^ (f.eb + f.mb) - 2
  | _ => 2 ^ (f.eb + f.mb) - 1

/-- The value of a magnitude code, as a whole number and an exponent (R222). -/
def FFmt.magOf (f : FFmt) (code : Nat) : Nat × Int :=
  let e := code / 2 ^ f.mb
  let m := code % 2 ^ f.mb
  if e = 0 then (m, f.emin - Int.ofNat f.mb) else (2 ^ f.mb + m, Int.ofNat e - Int.ofNat f.bias - Int.ofNat f.mb)

/-- Decode a code held in the low bits of w (R222, R223). -/
def FFmt.decode (f : FFmt) (w : Nat) : Val :=
  let c := w / 2 ^ f.pad % 2 ^ f.width
  let neg := decide (2 ^ (f.eb + f.mb) ≤ c)
  let mag := c % 2 ^ (f.eb + f.mb)
  let special : Option Val :=
    match f.top with
    | .ieee =>
      if mag / 2 ^ f.mb = 2 ^ f.eb - 1 then
        if mag % 2 ^ f.mb = 0 then some (.inf neg) else some (.nan (decide (mag % 2 ^ f.mb < 2 ^ (f.mb - 1))))
      else none
    | .maxNan => if mag = 2 ^ (f.eb + f.mb) - 1 then some (.nan false) else none
    | .zeroNan => if neg ∧ mag = 0 then some (.nan false) else none
    | .plain => none
  match special with
  | some v => v
  | none =>
    let r := f.magOf mag
    .fin neg r.1 r.2

/-- The default NaN's code; none in formats without a NaN (R221). FP22 has no default NaN listed; its container takes the
one of FP32, which R222 says it decodes as. -/
def FFmt.nanCode (f : FFmt) : Option Nat :=
  match f.top with
  | .ieee => some (((2 ^ f.eb - 1) * 2 ^ f.mb + 2 ^ (f.mb - 1)) * 2 ^ f.pad)
  | .maxNan => some (2 ^ (f.eb + f.mb) - 1)
  | .zeroNan => some (2 ^ (f.eb + f.mb))
  | .plain => none

/-- Sign and magnitude code put together; E3M4 has no -0 (R222). -/
def FFmt.join (f : FFmt) (neg : Bool) (mag : Nat) : Nat :=
  if neg && !(decide (f.top = .zeroNan) && decide (mag = 0)) then (2 ^ (f.eb + f.mb) + mag) * 2 ^ f.pad else mag * 2 ^ f.pad

/-! ### Rounding (R225) -/

/-- Rounding modes; sr carries its 24 random bits (R225, R227). -/
inductive Mode
  | rne | rz | ru | rd
  | sr (bits : Nat)
  deriving DecidableEq, Repr

/-- The mode RM names (R229). -/
def modeOf (rm : Nat) : Mode := match rm with
  | 0 => .rne
  | 1 => .rz
  | 2 => .ru
  | _ => .rd

/-- m times 2 to the e counted in quanta of 2 to the q, rounded: the count, and whether anything was lost (R225). -/
def quant (neg : Bool) (m : Nat) (e q : Int) (mode : Mode) : Nat × Bool :=
  if q ≤ e then (m * 2 ^ (e - q).toNat, false)
  else
    let sh := (q - e).toNat
    let lo := m / 2 ^ sh
    let rest := m % 2 ^ sh
    if rest = 0 then (lo, false)
    else
      let up : Bool := match mode with
        | .rne => decide (2 ^ sh < 2 * rest) || (decide (2 * rest = 2 ^ sh) && decide (lo % 2 = 1))
        | .rz => false
        | .ru => !neg
        | .rd => neg
        | .sr r => decide (2 ^ 24 ≤ rest * 2 ^ 24 / 2 ^ sh + r)
      (if up then lo + 1 else lo, true)

/-- The exponent of the leading bit of m times 2 to the e. -/
def leadExp (m : Nat) (e : Int) : Int := Int.ofNat (Nat.log2 m) + e

/-- round(x, fmt, mode) for a floating-point format (R225, R226): the code and the flags. -/
def roundF (f : FFmt) (mode : Mode) : Val → Nat × FFlags
  | .nan _ => match f.nanCode with
    | some c => (c, FFlags.none)
    | none => (0, FFlags.invalid)
  | .inf n =>
    if f.hasInf then (f.join n ((2 ^ f.eb - 1) * 2 ^ f.mb), FFlags.none) else (f.join n f.maxCode, FFlags.overflow)
  | .fin n m e =>
    if m = 0 then (f.join n 0, FFlags.none)
    else
      let le := leadExp m e
      let q := (if le < f.emin then f.emin else le) - Int.ofNat f.mb
      let r := quant n m e q mode
      -- the magnitude code: consecutive codes are consecutive quanta, also across a carry into the next exponent
      let code : Nat :=
        if le < f.emin then r.1 else ((le - f.emin).toNat) * 2 ^ f.mb + r.1
      if f.maxCode < code then
        let toInf : Bool := f.hasInf && (match mode with
          | .rne => true
          | .sr _ => true
          | .rz => false
          | .ru => !n
          | .rd => n)
        (f.join n (if toInf then (2 ^ f.eb - 1) * 2 ^ f.mb else f.maxCode), FFlags.overflow)
      else
        -- tiny: the same rounding with an unbounded exponent stays below the least normal number
        let u := quant n m e (le - Int.ofNat f.mb) mode
        let tiny := decide (le < f.emin) && !(decide (le = f.emin - 1) && decide (u.1 = 2 ^ (f.mb + 1)))
        (f.join n code, ⟨false, false, false, tiny && r.2, r.2⟩)

/-- round(x, fmt, mode) for an integer format (R224 to R226): the number and the flags. -/
def roundI (signed : Bool) (w : Nat) (mode : Mode) (x : Val) : Int × FFlags :=
  let lo : Int := if signed then -(2 ^ (w - 1) : Nat) else 0
  let hi : Int := if signed then Int.ofNat (2 ^ (w - 1) - 1) else Int.ofNat (2 ^ w - 1)
  match x with
  | .nan _ => (0, FFlags.invalid)
  | .inf n => (if n then lo else hi, FFlags.invalid)
  | .fin n m e =>
    let r := quant n m e 0 mode
    let k : Int := if n then -(Int.ofNat r.1) else Int.ofNat r.1
    if k < lo then (lo, FFlags.invalid)
    else if hi < k then (hi, FFlags.invalid)
    else (k, ⟨false, false, false, false, r.2⟩)

/-! ### Lane formats (R189, R223) -/

/-- A lane format of R189: floating point or an integer of a sign and a width; none for code 15. -/
inductive LFmt
  | f (x : FFmt)
  | i (signed : Bool) (w : Nat)
  deriving DecidableEq, Repr

def lfmtOf (code : Nat) : Option LFmt := match code with
  | 0 => some (.f fp32)
  | 1 => some (.f fp16)
  | 2 => some (.f bf16)
  | 3 => some (.f e5m2)
  | 4 => some (.f e4m3)
  | 5 => some (.f e3m4)
  | 6 => some (.f e3m2)
  | 7 => some (.f e2m3)
  | 8 => some (.f e2m1)
  | 9 => some (.i true 8)
  | 10 => some (.i false 8)
  | 11 => some (.i true 16)
  | 12 => some (.i false 16)
  | 13 => some (.i true 32)
  | 14 => some (.i false 32)
  | _ => none

/-- Bits of an element. -/
def LFmt.width : LFmt → Nat
  | .f x => x.width
  | .i _ w => w

/-- The number an element in the low bits of a lane stands for (R222, R224). -/
def LFmt.decode (l : LFmt) (w : Nat) : Val :=
  match l with
  | .f x => x.decode w
  | .i s n =>
    let k := w % 2 ^ n
    if s && decide (2 ^ (n - 1) ≤ k) then .fin true (2 ^ n - k) 0 else .fin false k 0

/-- An integer as the 32 bits of a lane. -/
def laneInt (k : Int) : W32 := BitVec.ofInt 32 k

/-- round() into a lane format, extended to 32 bits (R223). -/
def LFmt.round (l : LFmt) (mode : Mode) (x : Val) : W32 × FFlags :=
  match l with
  | .f y =>
    let r := roundF y mode x
    (BitVec.ofNat 32 r.1, r.2)
  | .i s n =>
    let r := roundI s n mode x
    (laneInt r.1, r.2)

/-! ### Flush to zero (R232) -/

/-- A subnormal: a number that is not zero and has the exponent field zero. -/
def FFmt.subnormal (f : FFmt) (w : Nat) : Bool :=
  let mag := w / 2 ^ f.pad % 2 ^ (f.eb + f.mb)
  decide (0 < mag) && decide (mag < 2 ^ f.mb)

/-- A source under FTZ: a subnormal is a zero of its sign. -/
def FFmt.source (f : FFmt) (ftz : Bool) (w : Nat) : Val :=
  match f.decode w with
  | .fin n m e => if ftz && f.subnormal w then .fin n 0 0 else .fin n m e
  | v => v

/-- A result under FTZ: a subnormal becomes a zero of its sign with underflow and inexact. -/
def FFmt.flush (f : FFmt) (ftz : Bool) (r : Nat × FFlags) : Nat × FFlags :=
  if ftz && f.subnormal r.1 then
    (f.join (decide (2 ^ (f.eb + f.mb) ≤ r.1)) 0, r.2.or FFlags.tiny)
  else r

/-! ### Stochastic rounding (R227) -/

def rotl32 (x : W32) (n : Nat) : W32 := x.rotateLeft n

def srRound (i : Nat) (x : W32 × W32 × W32 × W32) : W32 × W32 × W32 × W32 :=
  let (x0, x1, x2, x3) := x
  let x0 := x0 + x1
  let x3 := rotl32 (x3 ^^^ x0) 16
  let x2 := x2 + x3
  let x1 := rotl32 (x1 ^^^ x2) 12
  let x0 := x0 + x1
  let x3 := rotl32 (x3 ^^^ x0) 8
  let x2 := x2 + x3
  let x1 := rotl32 (x1 ^^^ x2) 7
  (x0 ^^^ (0x9e3779b9 + BitVec.ofNat 32 i), x1, x2, x3)

/-- The 24 random bits of one rounding (R227). -/
def srbits (seed : W64) (tile ctx l : Nat) (n : W64) : Nat :=
  let x0 : W32 := seed.extractLsb' 0 32 ^^^ n.extractLsb' 32 32
  let x1 : W32 := seed.extractLsb' 32 32
  let x2 : W32 := BitVec.ofNat 3 ctx ++ BitVec.ofNat 9 tile ++ (4 : BitVec 4) ++ BitVec.ofNat 16 l
  let x3 : W32 := n.extractLsb' 0 32
  let r := srRound 3 (srRound 2 (srRound 1 (srRound 0 (x0, x1, x2, x3))))
  (r.2.1 ^^^ r.2.2.2).toNat / 256

end Sys2Proof.Machine
end

