-- ==== Sys2Proof/WellFormed.lean ====
section
/-! DEFINITION. The limits the spec puts on the operands of an instruction beyond the widths of their fields:
R69, R70, R93 for the control core, R175, R179, R187 to R191, R302, R312 for the bundle slots, and the ranges of the
numbers an event carries. What depends on the context (its window, its accumulators, rotation) is checked at issue. -/

namespace Sys2Proof

/-- A specifier that can be read (R175). -/
def srcOk (s : BitVec 7) : Bool := decide (s.toNat < 0x7E)

/-- A specifier that can be written: a register, or the latch only (R175). -/
def dstOk (s : BitVec 7) : Bool := decide (s.toNat < 0x68) || decide (s.toNat = 0x7F)

/-- A predicate that a compare or predicate logic may write: p1 to p11 (R188). -/
def pdOk (p : BitVec 4) : Bool := decide (1 ≤ p.toNat) && decide (p.toNat ≤ 11)

/-- An accumulator code that some context has: 0 to 21 (R179). -/
def accOk (a : BitVec 5) : Bool := decide (a.toNat ≤ 21)

/-- A rounding code: 0 to 5 (R189). -/
def rndOk (r : BitVec 3) : Bool := decide (r.toNat ≤ 5)

/-- A scope of a scoped form: .tile to .sys (R69). -/
def scopeOk (s : BitVec 3) : Bool := decide (1 ≤ s.toNat) && decide (s.toNat ≤ 6)

/-- A scope of a barrier form: .tile to .pod (R69). -/
def barScopeOk (s : BitVec 3) : Bool := decide (1 ≤ s.toNat) && decide (s.toNat ≤ 5)

/-- A queue or timeline number (R70). -/
def queueOk (q : BitVec 3) : Bool := decide (q.toNat ≤ 5)

def V3.ok (g : V3) : Bool := dstOk g.d && srcOk g.a && srcOk g.b
def V2.ok (g : V2) : Bool := dstOk g.d && srcOk g.a
def VF.ok (g : VF) : Bool := dstOk g.d && srcOk g.a && srcOk g.b
/-- A fused form reads its destination, so the latch-only specifier is refused (R246). -/
def VF.fusedOk (g : VF) : Bool := g.ok && decide (g.d.toNat ≠ 0x7F)
def VFC.ok (g : VFC) : Bool := pdOk g.pd && srcOk g.a && srcOk g.b
def VC.ok (g : VC) : Bool := pdOk g.pd && srcOk g.a && srcOk g.b
def VN.ok {n : Nat} (g : VN n) : Bool := dstOk g.d && srcOk g.a
def SC.ok (g : SC) : Bool := decide (g.kd.toNat ≠ 0)
def SCI.ok (g : SCI) : Bool := decide (g.kd.toNat ≠ 0)
def SK.ok (g : SK) : Bool := decide (g.kd.toNat ≠ 0)

/-- A tile and context number (R21, R36). -/
def ctxOk (t c : Nat) : Bool := decide (t < 320) && decide (c < 8)

/-- A function number (R153). -/
def funOk (f : Nat) : Bool := decide (f ≤ 16)

/-- The limits on the operands of every instruction and event. -/
def wellFormed : Instr → Bool
  | .csrWrite op _ _ rs => !(decide (op = .rs) && decide (rs = 0))
  | .kLda _ sc _ _ _ | .kStl _ sc _ _ _ | .kAmoW _ sc _ _ _ _ | .kAmoD _ sc _ _ _ _ => scopeOk sc
  | .kFence sc | .kSpost sc _ _ | .kFput sc _ _ => scopeOk sc
  | .kMfence m => decide (m ≠ 0)
  | .kTlwait q _ _ _ | .kTlread q _ | .kQstat q _ => queueOk q
  | .kBar sc _ a b => barScopeOk sc && (decide (sc = 5) || (decide (a = 0) && decide (b = 0)))
  | .kBarw sc _ _ _ | .kClosure sc _ _ => barScopeOk sc
  | .kPause n => decide (n ≠ 0)
  | .ceq g | .cne g | .clt g | .cle g | .cltn g | .clen g => g.ok
  | .ceqI g | .cneI g | .cltI g | .cleI g | .cltnI g | .clenI g => g.ok
  | .kand g | .kor g | .kxor g => g.ok
  | .smov g => decide (g.imm.toNat ≤ 8)
  | .fadd g | .fsub g | .fmul g | .fmin g | .fmax g | .fminn g | .fmaxn g => g.ok
  | .fma g | .fms g | .fnma g | .fnms g => g.fusedOk
  | .fceq g | .fclt g | .fcle g | .fcun g => g.ok
  | .fclass g => dstOk g.d && srcOk g.a
  | .vaddI32 g | .vsubI32 g | .vmulI32 g | .vand g | .vor g | .vxor g | .vandn g | .vshl g | .vshr g | .vsra g => g.ok
  | .vminI32 g | .vmaxI32 g | .vminN32 g | .vmaxN32 g | .vsel g | .pack g | .perm g => g.ok
  | .vceqI32 g | .vcltI32 g | .vcltN32 g => g.ok
  | .vmov g | .vredAddF g | .vredMaxF g | .vredAddI32 g | .part g => g.ok
  | .rsqa g | .rcpa g | .exp2a g | .log2a g | .sina g | .cosa g | .tanha g => g.ok
  | .vmovi g => dstOk g.d
  | .vbcs g => dstOk g.d
  | .unpack g => g.ok
  | .bcl g => g.ok
  | .xcl g => g.ok && decide (g.n ≠ 0)
  | .pand g | .por g | .pxor g | .pandn g => pdOk g.pd
  | .ppop g => dstOk g.d
  | .cvt g => dstOk g.d && srcOk g.a && decide (g.src ≠ 15) && decide (g.dst ≠ 15) && decide (g.dst ≠ g.src)
      && rndOk g.rnd
  | .mma g | .mmaAcc g => accOk g.acc
  | .mzero a => accOk a
  | .mdrain g => accOk g.acc && decide (g.dfmt ≠ 15) && rndOk g.rnd
  | .rstat g => accOk g.acc && dstOk g.d && decide (g.stat.toNat ≤ 4)
  | .vld g | .vldB g => dstOk g.dm
  | .vldS g => dstOk g.dm
  | .vldx g => dstOk g.dm && srcOk g.vi
  | .vst g => srcOk g.dm
  | .vstS g => srcOk g.dm
  | .vstx g => srcOk g.dm && srcOk g.vi
  | .spill g => srcOk g.dm
  | .fill g => dstOk g.dm
  | .spost _ sc _ => scopeOk sc
  | .functionLevelReset f => funOk f
  | .doorbell f q | .tlarmWrite f q _ | .qownWrite f q _ => funOk f && decide (q < 8)
  | .asidEntryWrite f a _ _ => funOk f && decide (a < 65536)
  | .stalledClear f p | .regerrClear f p => funOk f && funOk p
  | .invalidatePage f _ _ | .invalidateAsid f _ | .invalidateAll f | .invalidateNone f => funOk f
  | .faultReplyRetry f t c _ | .faultReplyAbort f t c _ | .cquery f t c => funOk f && ctxOk t c
  | .launchHeadValidation q => decide (q < 8)
  | .clockStretch t _ => decide (t < 320)
  | .registerWrite f _ _ => funOk f
  | .inboundPostedWrite t => funOk t.f
  | .hostRead r => funOk r.f && decide (r.tag < 16384)
  | .msiXUnmask f v => funOk f && decide (v < if f = 0 then 8 else 4)
  | .keyLoad s | .keyClear s => decide (s < 256)
  | .frontierMessage a b | .frontierRequest a b => decide (a < 1000) && decide (b < 1000)
  | _ => true

end Sys2Proof
end

