-- ==== Sys2Proof/Decode.lean ====
section
/-! DEFINITION. The decoder and, after it, the encoder: the control core (R60, R68, R70, and the standard layouts the
spec takes from the RISC-V specification) and the bundle slots (R171 to R174, R185 to R191, R197, R206, R245, R302, R306,
R310 to R312). The decoder is total: a word that is no instruction is illegalInstruction or ienc with that word. -/

namespace Sys2Proof

/-- Field of n bits whose least significant bit is bit lo. -/
abbrev fld {m : Nat} (w : BitVec m) (lo n : Nat) : BitVec n := w.extractLsb' lo n

/-- The first row of a table whose code is c. -/
def findCode {α β : Type} [DecidableEq β] (code : α → β) (c : β) : List α → Option α
  | [] => none
  | x :: xs => if code x = c then some x else findCode code c xs

/-! ### The control core -/

/-- funct7, funct3 and opcode of a register operation. -/
def AluOp.code : AluOp → BitVec 7 × BitVec 3 × BitVec 7
  | .add => (0b0000000, 0b000, 0b0110011)
  | .sub => (0b0100000, 0b000, 0b0110011)
  | .sll => (0b0000000, 0b001, 0b0110011)
  | .slt => (0b0000000, 0b010, 0b0110011)
  | .sltu => (0b0000000, 0b011, 0b0110011)
  | .xor => (0b0000000, 0b100, 0b0110011)
  | .srl => (0b0000000, 0b101, 0b0110011)
  | .sra => (0b0100000, 0b101, 0b0110011)
  | .or => (0b0000000, 0b110, 0b0110011)
  | .and => (0b0000000, 0b111, 0b0110011)
  | .addw => (0b0000000, 0b000, 0b0111011)
  | .subw => (0b0100000, 0b000, 0b0111011)
  | .sllw => (0b0000000, 0b001, 0b0111011)
  | .srlw => (0b0000000, 0b101, 0b0111011)
  | .sraw => (0b0100000, 0b101, 0b0111011)
  | .mul => (0b0000001, 0b000, 0b0110011)
  | .mulh => (0b0000001, 0b001, 0b0110011)
  | .mulhsu => (0b0000001, 0b010, 0b0110011)
  | .mulhu => (0b0000001, 0b011, 0b0110011)
  | .div => (0b0000001, 0b100, 0b0110011)
  | .divu => (0b0000001, 0b101, 0b0110011)
  | .rem => (0b0000001, 0b110, 0b0110011)
  | .remu => (0b0000001, 0b111, 0b0110011)
  | .mulw => (0b0000001, 0b000, 0b0111011)
  | .divw => (0b0000001, 0b100, 0b0111011)
  | .divuw => (0b0000001, 0b101, 0b0111011)
  | .remw => (0b0000001, 0b110, 0b0111011)
  | .remuw => (0b0000001, 0b111, 0b0111011)
  | .sh1add => (0b0010000, 0b010, 0b0110011)
  | .sh2add => (0b0010000, 0b100, 0b0110011)
  | .sh3add => (0b0010000, 0b110, 0b0110011)
  | .addUw => (0b0000100, 0b000, 0b0111011)
  | .sh1addUw => (0b0010000, 0b010, 0b0111011)
  | .sh2addUw => (0b0010000, 0b100, 0b0111011)
  | .sh3addUw => (0b0010000, 0b110, 0b0111011)
  | .andn => (0b0100000, 0b111, 0b0110011)
  | .orn => (0b0100000, 0b110, 0b0110011)
  | .xnor => (0b0100000, 0b100, 0b0110011)
  | .max => (0b0000101, 0b110, 0b0110011)
  | .maxu => (0b0000101, 0b111, 0b0110011)
  | .min => (0b0000101, 0b100, 0b0110011)
  | .minu => (0b0000101, 0b101, 0b0110011)
  | .rol => (0b0110000, 0b001, 0b0110011)
  | .ror => (0b0110000, 0b101, 0b0110011)
  | .rolw => (0b0110000, 0b001, 0b0111011)
  | .rorw => (0b0110000, 0b101, 0b0111011)
  | .czeroEqz => (0b0000111, 0b101, 0b0110011)
  | .czeroNez => (0b0000111, 0b111, 0b0110011)

def AluOp.all : List AluOp :=
  [.add, .sub, .sll, .slt, .sltu, .xor, .srl, .sra, .or, .and, .addw, .subw, .sllw, .srlw, .sraw, .mul, .mulh, .mulhsu, .mulhu, .div, .divu, .rem, .remu, .mulw]
  ++ [.divw, .divuw, .remw, .remuw, .sh1add, .sh2add, .sh3add, .addUw, .sh1addUw, .sh2addUw, .sh3addUw, .andn, .orn, .xnor, .max, .maxu, .min, .minu, .rol, .ror, .rolw, .rorw, .czeroEqz, .czeroNez]

/-- funct3 and opcode of an immediate operation. -/
def AluImmOp.code : AluImmOp → BitVec 3 × BitVec 7
  | .addi => (0b000, 0b0010011) | .slti => (0b010, 0b0010011) | .sltiu => (0b011, 0b0010011)
  | .xori => (0b100, 0b0010011) | .ori => (0b110, 0b0010011) | .andi => (0b111, 0b0010011)
  | .addiw => (0b000, 0b0011011)

def AluImmOp.all : List AluImmOp := [.addi, .slti, .sltiu, .xori, .ori, .andi, .addiw]

/-- Bits 31 to 26, funct3 and opcode of a shift by a 6-bit constant. -/
def ShiftImmOp.code : ShiftImmOp → BitVec 6 × BitVec 3 × BitVec 7
  | .slli => (0b000000, 0b001, 0b0010011) | .srli => (0b000000, 0b101, 0b0010011)
  | .srai => (0b010000, 0b101, 0b0010011) | .rori => (0b011000, 0b101, 0b0010011)
  | .slliUw => (0b000010, 0b001, 0b0011011)

def ShiftImmOp.all : List ShiftImmOp := [.slli, .srli, .srai, .rori, .slliUw]

/-- Bits 31 to 25 and funct3 of a shift of a 32-bit word by a constant. -/
def ShiftImmWOp.code : ShiftImmWOp → BitVec 7 × BitVec 3
  | .slliw => (0b0000000, 0b001) | .srliw => (0b0000000, 0b101)
  | .sraiw => (0b0100000, 0b101) | .roriw => (0b0110000, 0b101)

def ShiftImmWOp.all : List ShiftImmWOp := [.slliw, .srliw, .sraiw, .roriw]

/-- Bits 31 to 20, funct3 and opcode of an operation on one register. -/
def UnaryOp.code : UnaryOp → BitVec 12 × BitVec 3 × BitVec 7
  | .clz => (0b011000000000, 0b001, 0b0010011) | .ctz => (0b011000000001, 0b001, 0b0010011)
  | .cpop => (0b011000000010, 0b001, 0b0010011) | .clzw => (0b011000000000, 0b001, 0b0011011)
  | .ctzw => (0b011000000001, 0b001, 0b0011011) | .cpopw => (0b011000000010, 0b001, 0b0011011)
  | .sextB => (0b011000000100, 0b001, 0b0010011) | .sextH => (0b011000000101, 0b001, 0b0010011)
  | .zextH => (0b000010000000, 0b100, 0b0111011) | .orcB => (0b001010000111, 0b101, 0b0010011)
  | .rev8 => (0b011010111000, 0b101, 0b0010011)

def UnaryOp.all : List UnaryOp :=
  [.clz, .ctz, .cpop, .clzw, .ctzw, .cpopw, .sextB, .sextH, .zextH, .orcB, .rev8]

/-- funct3 of a branch. -/
def BranchOp.code : BranchOp → BitVec 3
  | .beq => 0b000 | .bne => 0b001 | .blt => 0b100 | .bge => 0b101 | .bltu => 0b110 | .bgeu => 0b111

def BranchOp.all : List BranchOp := [.beq, .bne, .blt, .bge, .bltu, .bgeu]

/-- funct3 of a Zicsr form. -/
def CsrOp.code : CsrOp → BitVec 3
  | .rw => 0b001 | .rs => 0b010 | .rc => 0b011 | .rwi => 0b101 | .rsi => 0b110 | .rci => 0b111

def CsrOp.all : List CsrOp := [.rw, .rs, .rc, .rwi, .rsi, .rci]

/-- funct3 of a load. -/
def LoadOp.code : LoadOp → BitVec 3
  | .lb => 0b000 | .lh => 0b001 | .lw => 0b010 | .ld => 0b011 | .lbu => 0b100 | .lhu => 0b101 | .lwu => 0b110

def LoadOp.all : List LoadOp := [.lb, .lh, .lw, .ld, .lbu, .lhu, .lwu]

/-- funct5 of an atomic memory operation. -/
def AmoOp.code : AmoOp → BitVec 5
  | .add => 0b00000 | .swap => 0b00001 | .xor => 0b00100 | .or => 0b01000 | .and => 0b01100
  | .min => 0b10000 | .max => 0b10100 | .minu => 0b11000 | .maxu => 0b11100

def AmoOp.all : List AmoOp := [.swap, .add, .xor, .and, .or, .min, .max, .minu, .maxu]

/-- Operation codes of k.amo (R70). -/
def KAmoOp.code : KAmoOp → BitVec 3
  | .add => 0 | .swap => 1 | .and => 2 | .or => 3 | .xor => 4 | .min => 5 | .max => 6 | .cas => 7

def KAmoOp.all : List KAmoOp := [.add, .swap, .and, .or, .xor, .min, .max, .cas]

/-- A one-bit field as a truth value. -/
def bit1 (b : BitVec 1) : Bool := decide (b = 1)

/-- A truth value as a one-bit field. -/
def ofBit (b : Bool) : BitVec 1 := if b then 1 else 0

/-- Answer i only if the fields that must be zero are zero. -/
def zeros (z : Bool) (i : Instr) : Option Instr := if z then some i else none

/-- Words of opcode OP and OP-32: register operations, and zext.h. -/
def decodeOp (w : W32) : Option Instr :=
  match findCode UnaryOp.code (fld w 20 12, fld w 12 3, fld w 0 7) UnaryOp.all with
  | some o => some (.controlCompute (.unary o (fld w 7 5) (fld w 15 5)))
  | none =>
    match findCode AluOp.code (fld w 25 7, fld w 12 3, fld w 0 7) AluOp.all with
    | some o => some (.controlCompute (.alu o (fld w 7 5) (fld w 15 5) (fld w 20 5)))
    | none => none

/-- Words of opcode OP-IMM and OP-IMM-32. -/
def decodeOpImm (w : W32) : Option Instr :=
  match findCode AluImmOp.code (fld w 12 3, fld w 0 7) AluImmOp.all with
  | some o => some (.controlCompute (.aluImm o (fld w 7 5) (fld w 15 5) (fld w 20 12)))
  | none =>
    match findCode UnaryOp.code (fld w 20 12, fld w 12 3, fld w 0 7) UnaryOp.all with
    | some o => some (.controlCompute (.unary o (fld w 7 5) (fld w 15 5)))
    | none =>
      match findCode ShiftImmOp.code (fld w 26 6, fld w 12 3, fld w 0 7) ShiftImmOp.all with
      | some o => some (.controlCompute (.shiftImm o (fld w 7 5) (fld w 15 5) (fld w 20 6)))
      | none =>
        if fld w 0 7 = (0b0011011 : BitVec 7) then
          match findCode ShiftImmWOp.code (fld w 25 7, fld w 12 3) ShiftImmWOp.all with
          | some o => some (.controlCompute (.shiftImmW o (fld w 7 5) (fld w 15 5) (fld w 20 5)))
          | none => none
        else none

/-- Words of opcode SYSTEM: ECALL, EBREAK, WFI and the Zicsr forms. -/
def decodeSystem (w : W32) : Option Instr :=
  if w = 0x00000073 then some .ecall
  else if w = 0x00100073 then some .ebreak
  else if w = 0x10500073 then some .wfi
  else
    match findCode CsrOp.code (fld w 12 3) CsrOp.all with
    | some o =>
      if o = CsrOp.rs ∧ fld w 15 5 = (0 : BitVec 5) then some (.csrr (fld w 20 12) (fld w 7 5))
      else some (.csrWrite o (fld w 20 12) (fld w 7 5) (fld w 15 5))
    | none => none

/-- Words of opcode AMO: LR, SC and the atomics of 4 and 8 bytes. -/
def decodeAmo (w : W32) : Option Instr :=
  let aq := bit1 (fld w 26 1)
  let rl := bit1 (fld w 25 1)
  let rd := fld w 7 5
  let rs1 := fld w 15 5
  let rs2 := fld w 20 5
  if fld w 13 2 ≠ (0b01 : BitVec 2) then none
  else
    let dbl := bit1 (fld w 12 1)
    if fld w 27 5 = (0b00010 : BitVec 5) then zeros (decide (rs2 = 0)) (.lr dbl aq rl rd rs1)
    else if fld w 27 5 = (0b00011 : BitVec 5) then some (.sc dbl aq rl rd rs1 rs2)
    else
      match findCode AmoOp.code (fld w 27 5) AmoOp.all with
      | some o => some (.controlAmo o dbl aq rl rd rs1 rs2)
      | none => none

/-- custom-0 (R70). -/
def decodeCustom0 (w : W32) : Option Instr :=
  let rd : BitVec 5 := fld w 7 5
  let rs1 : BitVec 5 := fld w 15 5
  let rs2 : BitVec 5 := fld w 20 5
  let spad := bit1 (fld w 25 1)
  let sc : BitVec 3 := fld w 26 3
  let f7 : Nat := (fld w 25 7).toNat
  let o : Nat := (fld w 29 3).toNat
  let a0 : Bool := decide ((fld w 25 1 : BitVec 1) = 0)
  match (fld w 12 3).toNat with
  | 0 => zeros (decide ((fld w 31 1 : BitVec 1) = 0) && decide (rs2 = 0)) (.kLda (fld w 29 2) sc spad rd rs1)
  | 1 => zeros (decide ((fld w 31 1 : BitVec 1) = 0) && decide (rd = 0)) (.kStl (fld w 29 2) sc spad rs1 rs2)
  | 2 => (findCode KAmoOp.code (fld w 29 3) KAmoOp.all).map fun p => .kAmoW p sc spad rd rs1 rs2
  | 3 => (findCode KAmoOp.code (fld w 29 3) KAmoOp.all).map fun p => .kAmoD p sc spad rd rs1 rs2
  | 4 => zeros (decide (o = 0) && a0 && decide (rd = 0) && decide (rs1 = 0) && decide (rs2 = 0)) (.kFence sc)
  | 5 =>
    if o = 2 then zeros (a0 && decide (rd = 0)) (.kSpost sc rs1 rs2)
    else match f7 with
      | 0x00 => zeros (decide (rd = 0)) (.kSarm rs1 rs2)
      | 0x10 => zeros (decide (rd = 0)) (.kSarmZ rs1 rs2)
      | 0x30 => some (.kSwait rd rs1 rs2)
      | 0x40 => zeros (decide (rs2 = 0)) (.kSread rd rs1)
      | _ => none
  | 6 =>
    if o = 0 then zeros (a0 && decide (rd = 0)) (.kFput sc rs1 rs2)
    else match f7 with
      | 0x10 => zeros (decide (rs2 = 0)) (.kFget rd rs1)
      | 0x20 => zeros (decide (rs2 = 0)) (.kFtry rd rs1)
      | 0x30 => zeros (decide (rd = 0) && decide (rs1 = 0) && decide (rs2 = 0)) .kFret
      | _ => none
  | _ => none

/-- custom-1 (R70). -/
def decodeCustom1 (w : W32) : Option Instr :=
  let rd : BitVec 5 := fld w 7 5
  let rs1 : BitVec 5 := fld w 15 5
  let rs2 : BitVec 5 := fld w 20 5
  let f7 : Nat := (fld w 25 7).toNat
  let ch : BitVec 2 := fld w 25 2
  let q : BitVec 3 := fld w 25 3
  match (fld w 12 3).toNat with
  | 0 => zeros (decide (f7 = 0) && decide (rs2 = 0)) (.kRun rd rs1)
  | 1 => zeros (decide (f7 = 0)) (.kRuni rd rs1 rs2)
  | 2 => zeros (decide (f7 < 4) && decide (rs2 = 0)) (.kCopy ch rd rs1)
  | 3 =>
    if f7 < 4 then some (.kCopyiIn ch rd rs1 rs2)
    else if f7 < 8 then some (.kCopyiOut ch rd rs1 rs2)
    else none
  | 4 => zeros (decide (f7 = 0) && decide (rs2 = 0)) (.kStk rd rs1)
  | 5 => zeros (decide ((fld w 26 6 : BitVec 6) = 0) && decide (rs1 = 0) && decide (rd = 0)) (.kMfence (fld w 20 6))
  | 6 =>
    match (fld w 28 4).toNat with
    | 0 => some (.kTlwait q rd rs1 rs2)
    | 2 => zeros (decide (rs1 = 0) && decide (rs2 = 0)) (.kTlread q rd)
    | 4 => zeros (decide (rs1 = 0) && decide (rs2 = 0)) (.kQstat q rd)
    | 6 => zeros (decide (q = 0) && decide (rd = 0) && decide (rs1 = 0) && decide (rs2 = 0)) .kJoin
    | _ => none
  | _ => none

/-- custom-2 (R70). -/
def decodeCustom2 (w : W32) : Option Instr :=
  let rd : BitVec 5 := fld w 7 5
  let rs1 : BitVec 5 := fld w 15 5
  let rs2 : BitVec 5 := fld w 20 5
  let f7 : Nat := (fld w 25 7).toNat
  let o : Nat := (fld w 29 3).toNat
  let sc : BitVec 3 := fld w 26 3
  let a0 : Bool := decide ((fld w 25 1 : BitVec 1) = 0)
  let l3 : BitVec 3 := fld w 25 3
  match (fld w 12 3).toNat with
  | 0 =>
    if f7 = 0 then zeros (decide (rs1 = 0) && decide (rs2 = 0)) (.kParcel rd)
    else zeros (decide ((fld w 28 4 : BitVec 4) = 2) && decide (rs2 = 0)) (.kPinfo l3 rd rs1)
  | 1 =>
    match o with
    | 0 => zeros a0 (.kBar sc rd rs1 rs2)
    | 1 => zeros a0 (.kBarw sc rd rs1 rs2)
    | 2 => zeros (a0 && decide (rs2 = 0)) (.kClosure sc rd rs1)
    | _ => none
  | 2 => zeros (decide ((fld w 28 4 : BitVec 4) = 0)) (.kLaunch l3 rd rs1 rs2)
  | 3 =>
    match f7 with
    | 0x00 => zeros (decide (rd = 0) && decide (rs1 = 0) && decide (rs2 = 0)) .kExit
    | 0x10 => zeros (decide (rd = 0) && decide (rs2 = 0)) (.kHyield rs1)
    | _ => none
  | 4 => zeros (decide (rd = 0) && decide (rs1 = 0)) (.kPause (fld w 20 12))
  | 5 => zeros (decide (rs1 = 0)) (.kStamp (fld w 20 12) rd)
  | 6 => zeros (decide (rd = 0)) (.kTrace (fld w 20 12) rs1)
  | _ =>
    match f7 with
    | 0x00 => zeros (decide (rs2 = 0)) (.kAcct rd rs1)
    | 0x10 => zeros (decide (rd = 0) && decide (rs2 = 0)) (.kRaise rs1)
    | 0x11 => zeros (decide (rd = 0) && decide (rs2 = 0)) (.kRaiseF rs1)
    | _ => none

/-- A 32-bit word of the control core, or none where it is no instruction. The illegal scopes, masks and queue numbers of
an Xkgl row (R69, R70) are fields of that row; wellFormed refuses them, and their execution raises the exception of R68. -/
def decodeHart? (w : W32) : Option Instr :=
  match (fld w 0 7).toNat with
  | 0x03 => (findCode LoadOp.code (fld w 12 3) LoadOp.all).map fun o =>
      .controlLoad o (fld w 7 5) (fld w 15 5) (fld w 20 12)
  | 0x0B => decodeCustom0 w
  | 0x0F =>
    match (fld w 12 3).toNat with
    | 0 => some (.fence (fld w 20 12) (fld w 15 5) (fld w 7 5))
    | 1 => some (.fenceI (fld w 20 12) (fld w 15 5) (fld w 7 5))
    | _ => none
  | 0x13 => decodeOpImm w
  | 0x17 => some (.controlCompute (.auipc (fld w 7 5) (fld w 12 20)))
  | 0x1B => decodeOpImm w
  | 0x23 => zeros (decide ((fld w 14 1 : BitVec 1) = 0))
      (.controlStore (fld w 12 2) (fld w 15 5) (fld w 20 5) ((fld w 25 7 : BitVec 7) ++ (fld w 7 5 : BitVec 5)))
  | 0x2B => decodeCustom1 w
  | 0x2F => decodeAmo w
  | 0x33 => decodeOp w
  | 0x37 => some (.controlCompute (.lui (fld w 7 5) (fld w 12 20)))
  | 0x3B => decodeOp w
  | 0x5B => decodeCustom2 w
  | 0x63 => (findCode BranchOp.code (fld w 12 3) BranchOp.all).map fun o =>
      .controlCompute (.branch o (fld w 15 5) (fld w 20 5)
        ((fld w 31 1 : BitVec 1) ++ (fld w 7 1 : BitVec 1) ++ (fld w 25 6 : BitVec 6) ++ (fld w 8 4 : BitVec 4)))
  | 0x67 => zeros (decide ((fld w 12 3 : BitVec 3) = 0))
      (.controlCompute (.jalr (fld w 7 5) (fld w 15 5) (fld w 20 12)))
  | 0x6F => some (.controlCompute (.jal (fld w 7 5)
      ((fld w 31 1 : BitVec 1) ++ (fld w 12 8 : BitVec 8) ++ (fld w 20 1 : BitVec 1) ++ (fld w 21 10 : BitVec 10))))
  | 0x73 => decodeSystem w
  | _ => none

/-- A register named by three bits of a compressed instruction: x8 to x15. -/
def creg (r : BitVec 3) : BitVec 5 := (0b01 : BitVec 2) ++ r

/-- Quadrant 0 of the compressed instructions. -/
def decodeC0 (w : W16) : Option Instr :=
  let a : BitVec 5 := creg (fld w 7 3)
  let b : BitVec 5 := creg (fld w 2 3)
  match (fld w 13 3).toNat with
  | 0 => zeros (decide ((fld w 5 8 : BitVec 8) ≠ 0)) (.controlCompute (.aluImm .addi b 2
      ((0 : BitVec 2) ++ (fld w 7 4 : BitVec 4) ++ (fld w 11 2 : BitVec 2) ++ (fld w 5 1 : BitVec 1) ++ (fld w 6 1 : BitVec 1) ++ (0 : BitVec 2))))
  | 2 => some (.controlLoad .lw b a
      ((0 : BitVec 5) ++ (fld w 5 1 : BitVec 1) ++ (fld w 10 3 : BitVec 3) ++ (fld w 6 1 : BitVec 1) ++ (0 : BitVec 2)))
  | 3 => some (.controlLoad .ld b a
      ((0 : BitVec 4) ++ (fld w 5 2 : BitVec 2) ++ (fld w 10 3 : BitVec 3) ++ (0 : BitVec 3)))
  | 6 => some (.controlStore 2 a b
      ((0 : BitVec 5) ++ (fld w 5 1 : BitVec 1) ++ (fld w 10 3 : BitVec 3) ++ (fld w 6 1 : BitVec 1) ++ (0 : BitVec 2)))
  | 7 => some (.controlStore 3 a b
      ((0 : BitVec 4) ++ (fld w 5 2 : BitVec 2) ++ (fld w 10 3 : BitVec 3) ++ (0 : BitVec 3)))
  | _ => none

/-- Quadrant 1 of the compressed instructions. -/
def decodeC1 (w : W16) : Option Instr :=
  let rd : BitVec 5 := fld w 7 5
  let a : BitVec 5 := creg (fld w 7 3)
  let b : BitVec 5 := creg (fld w 2 3)
  let i6 : BitVec 6 := (fld w 12 1 : BitVec 1) ++ (fld w 2 5 : BitVec 5)
  let cc (o : ComputeOp) : Option Instr := some (.controlCompute o)
  let boff : BitVec 12 := ((fld w 12 1 : BitVec 1) ++ (fld w 5 2 : BitVec 2) ++ (fld w 2 1 : BitVec 1)
      ++ (fld w 10 2 : BitVec 2) ++ (fld w 3 2 : BitVec 2) : BitVec 8).signExtend 12
  match (fld w 13 3).toNat with
  | 0 => cc (.aluImm .addi rd rd (i6.signExtend 12))
  | 1 => zeros (decide (rd ≠ 0)) (.controlCompute (.aluImm .addiw rd rd (i6.signExtend 12)))
  | 2 => cc (.aluImm .addi rd 0 (i6.signExtend 12))
  | 3 =>
    if i6 = 0 then none
    else if rd = 2 then cc (.aluImm .addi 2 2 (((fld w 12 1 : BitVec 1) ++ (fld w 3 2 : BitVec 2)
      ++ (fld w 5 1 : BitVec 1) ++ (fld w 2 1 : BitVec 1) ++ (fld w 6 1 : BitVec 1) ++ (0 : BitVec 4) : BitVec 10).signExtend 12))
    else cc (.lui rd (i6.signExtend 20))
  | 4 =>
    match (fld w 10 2).toNat with
    | 0 => cc (.shiftImm .srli a a i6)
    | 1 => cc (.shiftImm .srai a a i6)
    | 2 => cc (.aluImm .andi a a (i6.signExtend 12))
    | _ =>
      match (fld w 12 1).toNat, (fld w 5 2).toNat with
      | 0, 0 => cc (.alu .sub a a b)
      | 0, 1 => cc (.alu .xor a a b)
      | 0, 2 => cc (.alu .or a a b)
      | 0, 3 => cc (.alu .and a a b)
      | 1, 0 => cc (.alu .subw a a b)
      | 1, 1 => cc (.alu .addw a a b)
      | _, _ => none
  | 5 => cc (.jal 0 (((fld w 12 1 : BitVec 1) ++ (fld w 8 1 : BitVec 1) ++ (fld w 9 2 : BitVec 2) ++ (fld w 6 1 : BitVec 1)
      ++ (fld w 7 1 : BitVec 1) ++ (fld w 2 1 : BitVec 1) ++ (fld w 11 1 : BitVec 1) ++ (fld w 3 3 : BitVec 3) : BitVec 11).signExtend 20))
  | 6 => cc (.branch .beq a 0 boff)
  | _ => cc (.branch .bne a 0 boff)

/-- Quadrant 2 of the compressed instructions. -/
def decodeC2 (w : W16) : Option Instr :=
  let rd : BitVec 5 := fld w 7 5
  let r2 : BitVec 5 := fld w 2 5
  let i6 : BitVec 6 := (fld w 12 1 : BitVec 1) ++ (fld w 2 5 : BitVec 5)
  match (fld w 13 3).toNat with
  | 0 => some (.controlCompute (.shiftImm .slli rd rd i6))
  | 2 => zeros (decide (rd ≠ 0)) (.controlLoad .lw rd 2
      ((0 : BitVec 4) ++ (fld w 2 2 : BitVec 2) ++ (fld w 12 1 : BitVec 1) ++ (fld w 4 3 : BitVec 3) ++ (0 : BitVec 2)))
  | 3 => zeros (decide (rd ≠ 0)) (.controlLoad .ld rd 2
      ((0 : BitVec 3) ++ (fld w 2 3 : BitVec 3) ++ (fld w 12 1 : BitVec 1) ++ (fld w 5 2 : BitVec 2) ++ (0 : BitVec 3)))
  | 4 =>
    if fld w 12 1 = (0 : BitVec 1) then
      if r2 = 0 then zeros (decide (rd ≠ 0)) (.controlCompute (.jalr 0 rd 0))
      else some (.controlCompute (.alu .add rd 0 r2))
    else if r2 = 0 then
      if rd = 0 then some .ebreak else some (.controlCompute (.jalr 1 rd 0))
    else some (.controlCompute (.alu .add rd rd r2))
  | 6 => some (.controlStore 2 2 r2
      ((0 : BitVec 4) ++ (fld w 7 2 : BitVec 2) ++ (fld w 9 4 : BitVec 4) ++ (0 : BitVec 2)))
  | 7 => some (.controlStore 3 2 r2
      ((0 : BitVec 3) ++ (fld w 7 3 : BitVec 3) ++ (fld w 10 3 : BitVec 3) ++ (0 : BitVec 3)))
  | _ => none

/-- A compressed instruction, expanded (RV64C, R60). -/
def decodeC? (w : W16) : Option Instr :=
  match (fld w 0 2).toNat with
  | 0 => decodeC0 w
  | 1 => decodeC1 w
  | 2 => decodeC2 w
  | _ => none

/-- Length in bytes of the instruction whose first 16 bits are given (R68: Xkgl words are 32 bits long). -/
def hartLen (w : W16) : Nat := if fld w 0 2 = (3 : BitVec 2) then 4 else 2

/-- The instruction of the hart whose first 32 bits are w, and its length; a word that is none decodes to
illegalInstruction (R68). -/
def decodeHart (w : W32) : Instr × Nat :=
  if hartLen (fld w 0 16) = 4 then ((decodeHart? w).getD (.illegalInstruction w), 4)
  else ((decodeC? (fld w 0 16)).getD (.illegalInstruction ((fld w 0 16 : W16).setWidth 32)), 2)

/-! ### The bundle slots -/

/-- The slot classes, with the slots that hold more (R187, R190). -/
inductive Place
  | sa | sb | vec | x | ma | mb
  deriving DecidableEq, Repr

/-- The slot with number n: SA, SB, VA, VB, VC, X, MA, MB (R170). -/
def Place.ofSlot : Nat → Place
  | 0 => .sa
  | 1 => .sb
  | 5 => .x
  | 6 => .ma
  | 7 => .mb
  | _ => .vec

/-- Scalar slots (R187, R197). -/
def decodeScalar? (sb : Bool) (w : W32) : Option Instr :=
  let kc : BitVec 3 := fld w 22 3
  let sd : BitVec 6 := fld w 16 6
  let sa : BitVec 6 := fld w 10 6
  let sbr : BitVec 6 := fld w 0 6
  let imm : BitVec 10 := fld w 0 10
  let z6 : Bool := decide ((fld w 6 4 : BitVec 4) = 0)
  let za : Bool := decide (sa = 0)
  let zi : Bool := decide (imm = 0)
  let zk : Bool := decide ((fld w 19 3 : BitVec 3) = 0)
  let zd : Bool := decide ((fld w 20 2 : BitVec 2) = 0)
  let kd : BitVec 3 := fld w 16 3
  let ad : BitVec 4 := fld w 16 4
  let r : SR := ⟨kc, sd, sa, sbr⟩
  let u : SU := ⟨kc, sd, sa⟩
  let im : SI := ⟨kc, sd, sa, imm⟩
  let sh : SSh := ⟨kc, sd, sa, sbr⟩
  let cm : SC := ⟨kc, kd, sa, sbr⟩
  let ci : SCI := ⟨kc, kd, sa, imm⟩
  let fl : SK := ⟨kc, kd, fld w 10 3, fld w 0 3⟩
  let zfl : Bool := zk && decide ((fld w 13 3 : BitVec 3) = 0) && decide ((fld w 3 7 : BitVec 7) = 0)
  match (fld w 25 7).toNat with
  | 0x00 => zeros (decide (w = 0)) .noOperation
  | 0x01 => zeros z6 (.add r)
  | 0x02 => zeros z6 (.sub r)
  | 0x03 => zeros z6 (.mul r)
  | 0x04 => zeros z6 (.mulh r)
  | 0x05 => zeros z6 (.mulhn r)
  | 0x06 => zeros z6 (.and r)
  | 0x07 => zeros z6 (.or r)
  | 0x08 => zeros z6 (.xor r)
  | 0x09 => zeros z6 (.andn r)
  | 0x0A => zeros z6 (.shl r)
  | 0x0B => zeros z6 (.shr r)
  | 0x0C => zeros z6 (.sra r)
  | 0x0D => zeros z6 (.rotl r)
  | 0x0E => zeros z6 (.min r)
  | 0x0F => zeros z6 (.max r)
  | 0x10 => zeros z6 (.minn r)
  | 0x11 => zeros z6 (.maxn r)
  | 0x12 => zeros zi (.clz u)
  | 0x13 => zeros zi (.popc u)
  | 0x14 => zeros z6 (.sel r)
  | 0x20 => some (.addi im)
  | 0x21 => zeros za (.movi ⟨kc, sd, imm⟩)
  | 0x22 => some (.movhi im)
  | 0x23 => zeros z6 (.shlI sh)
  | 0x24 => zeros z6 (.shrI sh)
  | 0x25 => zeros z6 (.sraI sh)
  | 0x26 => zeros z6 (.rotlI sh)
  | 0x27 => some (.andI im)
  | 0x28 => some (.orI im)
  | 0x29 => some (.xorI im)
  | 0x30 => zeros (zk && z6) (.ceq cm)
  | 0x31 => zeros (zk && z6) (.cne cm)
  | 0x32 => zeros (zk && z6) (.clt cm)
  | 0x33 => zeros (zk && z6) (.cle cm)
  | 0x34 => zeros (zk && z6) (.cltn cm)
  | 0x35 => zeros (zk && z6) (.clen cm)
  | 0x38 => zeros zk (.ceqI ci)
  | 0x39 => zeros zk (.cneI ci)
  | 0x3A => zeros zk (.cltI ci)
  | 0x3B => zeros zk (.cleI ci)
  | 0x3C => zeros zk (.cltnI ci)
  | 0x3D => zeros zk (.clenI ci)
  | 0x40 => zeros zfl (.kand fl)
  | 0x41 => zeros zfl (.kor fl)
  | 0x42 => zeros zfl (.kxor fl)
  | 0x48 => zeros za (.smov ⟨kc, sd, imm⟩)
  | 0x49 => zeros zd (.aset kc ad sa imm)
  | 0x4A => zeros (zd && za) (.aadd kc ad imm)
  | 0x4B => zeros (zi && decide ((fld w 14 2 : BitVec 2) = 0)) (.aget kc sd (fld w 10 4))
  | 0x50 => zeros (decide ((fld w 14 8 : BitVec 8) = 0)) (.bbc kc (fld w 0 14))
  | 0x51 => zeros (sb && decide ((fld w 12 13 : BitVec 13) = 0)) (.mark (fld w 0 12))
  | 0x52 => zeros (sb && decide ((fld w 0 25 : BitVec 25) = 0)) .yield
  | _ => none

/-- The type of a floating-point operation from the low bits of its opcode (R188). -/
def FTy.ofCode : Nat → Option FTy
  | 0 => some .f
  | 1 => some .h2
  | 2 => some .b2
  | _ => none

/-- Vector slots: the floating-point operations, opcode 4m + t (R188). -/
def decodeFloat? (m : Nat) (ty : FTy) (w : W32) : Option Instr :=
  let pr : BitVec 4 := fld w 21 4
  let d : BitVec 7 := fld w 14 7
  let a : BitVec 7 := fld w 7 7
  let b : BitVec 7 := fld w 0 7
  let g : VF := ⟨ty, pr, d, a, b⟩
  let c : VFC := ⟨ty, pr, fld w 14 4, a, b⟩
  let zd : Bool := decide ((fld w 18 3 : BitVec 3) = 0)
  match m with
  | 1 => some (.fadd g)
  | 2 => some (.fsub g)
  | 3 => some (.fmul g)
  | 4 => some (.fma g)
  | 5 => some (.fms g)
  | 6 => some (.fnma g)
  | 7 => some (.fnms g)
  | 8 => some (.fmin g)
  | 9 => some (.fmax g)
  | 10 => some (.fminn g)
  | 11 => some (.fmaxn g)
  | 12 => zeros zd (.fceq c)
  | 13 => zeros zd (.fclt c)
  | 14 => zeros zd (.fcle c)
  | 15 => zeros zd (.fcun c)
  | 16 => zeros (decide (b = 0)) (.fclass ⟨ty, pr, d, a⟩)
  | _ => none

/-- Vector slots (R188, R245). -/
def decodeVector? (w : W32) : Option Instr :=
  let pr : BitVec 4 := fld w 21 4
  let d : BitVec 7 := fld w 14 7
  let a : BitVec 7 := fld w 7 7
  let b : BitVec 7 := fld w 0 7
  let g : V3 := ⟨pr, d, a, b⟩
  let u : V2 := ⟨pr, d, a⟩
  let c : VC := ⟨pr, fld w 14 4, a, b⟩
  let zb : Bool := decide (b = 0)
  let zd : Bool := decide ((fld w 18 3 : BitVec 3) = 0)
  let za : Bool := decide ((fld w 11 3 : BitVec 3) = 0)
  let l : PL := ⟨pr, fld w 14 4, fld w 7 4, fld w 0 4⟩
  let zl : Bool := zd && za && decide ((fld w 4 3 : BitVec 3) = 0)
  let opc := (fld w 25 7).toNat
  if 4 ≤ opc ∧ opc ≤ 0x43 then (FTy.ofCode (opc % 4)).bind fun ty => decodeFloat? (opc / 4) ty w
  else match opc with
  | 0x00 => zeros (decide (w = 0)) .noOperation
  | 0x44 => some (.vaddI32 g)
  | 0x45 => some (.vsubI32 g)
  | 0x46 => some (.vmulI32 g)
  | 0x47 => some (.vand g)
  | 0x48 => some (.vor g)
  | 0x49 => some (.vxor g)
  | 0x4A => some (.vandn g)
  | 0x4B => some (.vshl g)
  | 0x4C => some (.vshr g)
  | 0x4D => some (.vsra g)
  | 0x4E => some (.vminI32 g)
  | 0x4F => some (.vmaxI32 g)
  | 0x50 => some (.vminN32 g)
  | 0x51 => some (.vmaxN32 g)
  | 0x52 => zeros zd (.vceqI32 c)
  | 0x53 => zeros zd (.vcltI32 c)
  | 0x54 => zeros zd (.vcltN32 c)
  | 0x58 => zeros zb (.vmov u)
  | 0x59 => some (.vmovi ⟨pr, d, fld w 0 14⟩)
  | 0x5A => zeros (zb && decide ((fld w 13 1 : BitVec 1) = 0)) (.vbcs ⟨pr, d, fld w 7 6⟩)
  | 0x5B => some (.vsel g)
  | 0x5C => some (.pack g)
  | 0x5D => zeros (decide ((fld w 2 5 : BitVec 5) = 0)) (.unpack ⟨pr, d, a, fld w 0 2⟩)
  | 0x5E => some (.perm g)
  | 0x5F => zeros (decide ((fld w 4 3 : BitVec 3) = 0)) (.bcl ⟨pr, d, a, fld w 0 4⟩)
  | 0x60 => zeros (decide ((fld w 3 4 : BitVec 4) = 0)) (.xcl ⟨pr, d, a, fld w 0 3⟩)
  | 0x61 => zeros zb (.vredAddF u)
  | 0x62 => zeros zb (.vredMaxF u)
  | 0x63 => zeros zb (.vredAddI32 u)
  | 0x64 => zeros zb (.part u)
  | 0x65 => zeros zl (.pand l)
  | 0x66 => zeros zl (.por l)
  | 0x67 => zeros zl (.pxor l)
  | 0x68 => zeros zl (.pandn l)
  | 0x69 => zeros (zb && za) (.ppop ⟨pr, d, fld w 7 4⟩)
  | n => if 0x6A ≤ n ∧ n ≤ 0x78 then
      some (.cvt ⟨pr, d, a, BitVec.ofNat 4 (n - 0x6A), fld w 3 4, fld w 0 3⟩) else none

/-- The X slot (R174, R191). -/
def decodeX? (w : W32) : Option Instr :=
  let v : V2 := ⟨fld w 22 4, fld w 15 7, fld w 8 7⟩
  let z8 : Bool := decide ((fld w 0 8 : BitVec 8) = 0)
  let z12 : Bool := decide ((fld w 0 12 : BitVec 12) = 0)
  let m : XM := ⟨fld w 22 4, fld w 17 5, fld w 13 4, fld w 9 4, fld w 5 4⟩
  let zm : Bool := decide ((fld w 1 4 : BitVec 4) = 0)
  match (fld w 26 6).toNat with
  | 0x00 => zeros (decide (w = 0)) .noOperation
  | 0x01 => zeros z8 (.rsqa v)
  | 0x02 => zeros z8 (.rcpa v)
  | 0x03 => zeros z8 (.exp2a v)
  | 0x04 => zeros z8 (.log2a v)
  | 0x05 => zeros z8 (.sina v)
  | 0x06 => zeros z8 (.cosa v)
  | 0x07 => zeros z8 (.tanha v)
  | 0x10 => zeros zm (if bit1 (fld w 0 1) then .mmaAcc m else .mma m)
  | 0x11 => zeros (decide ((fld w 0 21 : BitVec 21) = 0)) (.mzero (fld w 21 5))
  | 0x12 => zeros (decide ((fld w 0 10 : BitVec 10) = 0)) (.mdrain ⟨fld w 21 5, fld w 17 4, fld w 13 4, fld w 10 3⟩)
  | 0x13 => zeros (z12 && decide ((fld w 12 4 : BitVec 4) = 0)) (.msetF (fld w 22 4) (fld w 16 6))
  | 0x14 => zeros (z12 && decide ((fld w 16 6 : BitVec 6) = 0)) (.msetC (fld w 22 4) (fld w 12 4))
  | 0x15 => zeros z12 (.msetS (fld w 22 4) (fld w 16 6) (fld w 12 4))
  | 0x18 => zeros (decide ((fld w 0 11 : BitVec 11) = 0)) (.rstat ⟨fld w 21 5, fld w 14 7, fld w 11 3⟩)
  | _ => none

/-- Memory slots (R190, R206). -/
def decodeMem? (mb : Bool) (w : W32) : Option Instr :=
  let pr : BitVec 4 := fld w 22 4
  let dm : BitVec 7 := fld w 15 7
  let ar : BitVec 4 := fld w 11 4
  let o : MO := ⟨pr, dm, ar, fld w 0 11⟩
  let st : MS := ⟨pr, dm, ar, fld w 5 6, fld w 0 5⟩
  let ix : MX := ⟨pr, dm, ar, fld w 4 7⟩
  let zx : Bool := decide ((fld w 0 4 : BitVec 4) = 0)
  let sc : MSc := ⟨pr, fld w 15 6, ar, fld w 0 11⟩
  let zs : Bool := decide ((fld w 21 1 : BitVec 1) = 0)
  let sp : MSp := ⟨pr, dm, fld w 0 11⟩
  let za : Bool := decide (ar = 0)
  let ms : BitVec 6 := fld w 16 6
  let zp : Bool := mb && decide (pr = 0)
  match (fld w 26 6).toNat with
  | 0x00 => zeros (decide (w = 0)) .noOperation
  | 0x01 => some (.vld o)
  | 0x02 => some (.vldB o)
  | 0x03 => some (.vldS st)
  | 0x04 => zeros zx (.vldx ix)
  | 0x08 => some (.vst o)
  | 0x09 => some (.vstS st)
  | 0x0A => zeros zx (.vstx ix)
  | 0x10 => zeros zs (.sld sc)
  | 0x11 => zeros zs (.sst sc)
  | 0x18 => zeros za (.spill sp)
  | 0x19 => zeros za (.fill sp)
  | 0x20 => zeros (zp && decide ((fld w 0 10 : BitVec 10) = 0)) (.swait (fld w 10 6) ms)
  | 0x21 => zeros zp (.spost ms (fld w 13 3) (fld w 0 13))
  | 0x22 => zeros (zp && decide ((fld w 0 9 : BitVec 9) = 0))
      (if bit1 (fld w 9 1) then .sarmZ (fld w 10 6) ms else .sarm (fld w 10 6) ms)
  | _ => none

/-- The fields of a slot word, before the limits on operands. -/
def decodeRaw? (p : Place) (w : W32) : Option Instr :=
  match p with
  | .sa => decodeScalar? false w
  | .sb => decodeScalar? true w
  | .vec => decodeVector? w
  | .x => decodeX? w
  | .ma => decodeMem? false w
  | .mb => decodeMem? true w

/-- A slot word, or none where it is IENC whatever the context holds (R185). -/
def decodeSlot? (p : Place) (w : W32) : Option Instr :=
  match decodeRaw? p w with
  | some i => if wellFormed i then some i else none
  | none => none

/-- The instruction of a slot; a reserved or malformed word decodes to ienc (R185). -/
def decodeSlot (p : Place) (w : W32) : Instr := (decodeSlot? p w).getD (.ienc w)

/-! ### The encoder -/

/-- R-type word. -/
def rType (f7 : BitVec 7) (rs2 rs1 : BitVec 5) (f3 : BitVec 3) (rd : BitVec 5) (op : BitVec 7) : W32 :=
  f7 ++ rs2 ++ rs1 ++ f3 ++ rd ++ op

/-- I-type word. -/
def iType (imm : BitVec 12) (rs1 : BitVec 5) (f3 : BitVec 3) (rd : BitVec 5) (op : BitVec 7) : W32 :=
  imm ++ rs1 ++ f3 ++ rd ++ op

/-- The base instructions of CONTROL_COMPUTE. -/
def ComputeOp.encode : ComputeOp → W32
  | .alu o rd rs1 rs2 => rType o.code.1 rs2 rs1 o.code.2.1 rd o.code.2.2
  | .aluImm o rd rs1 imm => iType imm rs1 o.code.1 rd o.code.2
  | .shiftImm o rd rs1 sh => iType (o.code.1 ++ sh) rs1 o.code.2.1 rd o.code.2.2
  | .shiftImmW o rd rs1 sh => iType (o.code.1 ++ sh) rs1 o.code.2 rd 0b0011011
  | .unary o rd rs1 => iType o.code.1 rs1 o.code.2.1 rd o.code.2.2
  | .lui rd imm => imm ++ rd ++ (0b0110111 : BitVec 7)
  | .auipc rd imm => imm ++ rd ++ (0b0010111 : BitVec 7)
  | .jal rd off => (fld off 19 1 : BitVec 1) ++ (fld off 0 10 : BitVec 10) ++ (fld off 10 1 : BitVec 1)
      ++ (fld off 11 8 : BitVec 8) ++ rd ++ (0b1101111 : BitVec 7)
  | .jalr rd rs1 imm => iType imm rs1 0b000 rd 0b1100111
  | .branch o rs1 rs2 off => (fld off 11 1 : BitVec 1) ++ (fld off 4 6 : BitVec 6) ++ rs2 ++ rs1 ++ o.code
      ++ (fld off 0 4 : BitVec 4) ++ (fld off 10 1 : BitVec 1) ++ (0b1100011 : BitVec 7)

/-- Scalar word with a 10-bit field (R197). -/
def sWord (opc : BitVec 7) (kc : BitVec 3) (ds oa : BitVec 6) (ob : BitVec 10) : W32 := opc ++ kc ++ ds ++ oa ++ ob

def SR.enc (g : SR) (opc : BitVec 7) : W32 := sWord opc g.kc g.sd g.sa ((0 : BitVec 4) ++ g.sb)
def SU.enc (g : SU) (opc : BitVec 7) : W32 := sWord opc g.kc g.sd g.sa 0
def SI.enc (g : SI) (opc : BitVec 7) : W32 := sWord opc g.kc g.sd g.sa g.imm
def SSh.enc (g : SSh) (opc : BitVec 7) : W32 := sWord opc g.kc g.sd g.sa ((0 : BitVec 4) ++ g.cnt)
def SM.enc (g : SM) (opc : BitVec 7) : W32 := sWord opc g.kc g.sd 0 g.imm
def SC.enc (g : SC) (opc : BitVec 7) : W32 := sWord opc g.kc ((0 : BitVec 3) ++ g.kd) g.sa ((0 : BitVec 4) ++ g.sb)
def SCI.enc (g : SCI) (opc : BitVec 7) : W32 := sWord opc g.kc ((0 : BitVec 3) ++ g.kd) g.sa g.imm
def SK.enc (g : SK) (opc : BitVec 7) : W32 :=
  sWord opc g.kc ((0 : BitVec 3) ++ g.kd) ((0 : BitVec 3) ++ g.ka) ((0 : BitVec 7) ++ g.kb)

/-- Vector word (R172). -/
def vWord (opc : BitVec 7) (pr : BitVec 4) (d a b : BitVec 7) : W32 := opc ++ pr ++ d ++ a ++ b

/-- The opcode 4m + t of a floating-point operation (R188). -/
def fOpc (m : BitVec 5) : FTy → BitVec 7
  | .f => m ++ (0 : BitVec 2)
  | .h2 => m ++ (1 : BitVec 2)
  | .b2 => m ++ (2 : BitVec 2)

def VF.enc (g : VF) (m : BitVec 5) : W32 := vWord (fOpc m g.ty) g.pr g.d g.a g.b
def VFC.enc (g : VFC) (m : BitVec 5) : W32 := vWord (fOpc m g.ty) g.pr ((0 : BitVec 3) ++ g.pd) g.a g.b
def V3.enc (g : V3) (opc : BitVec 7) : W32 := vWord opc g.pr g.d g.a g.b
def VC.enc (g : VC) (opc : BitVec 7) : W32 := vWord opc g.pr ((0 : BitVec 3) ++ g.pd) g.a g.b
def V2.enc (g : V2) (opc : BitVec 7) : W32 := vWord opc g.pr g.d g.a 0
def PL.enc (g : PL) (opc : BitVec 7) : W32 :=
  vWord opc g.pr ((0 : BitVec 3) ++ g.pd) ((0 : BitVec 3) ++ g.pa) ((0 : BitVec 3) ++ g.pb)

/-- XV word (R174). -/
def V2.encX (g : V2) (opc : BitVec 6) : W32 := opc ++ g.pr ++ g.d ++ g.a ++ (0 : BitVec 8)

/-- XM word (R306). -/
def XM.enc (g : XM) (accum : BitVec 1) : W32 :=
  (0x10 : BitVec 6) ++ g.prof ++ g.acc ++ g.aa ++ g.ab ++ g.fpe ++ (0 : BitVec 4) ++ accum

/-- XS word (R302). -/
def xsWord (opc : BitVec 6) (e : BitVec 4) (s : BitVec 6) (a : BitVec 4) : W32 := opc ++ e ++ s ++ a ++ (0 : BitVec 12)

/-- M word (R173). -/
def mWord (opc : BitVec 6) (pr : BitVec 4) (dm : BitVec 7) (ar : BitVec 4) (om : BitVec 11) : W32 :=
  opc ++ pr ++ dm ++ ar ++ om

def MO.enc (g : MO) (opc : BitVec 6) : W32 := mWord opc g.pr g.dm g.ar g.off
def MS.enc (g : MS) (opc : BitVec 6) : W32 := mWord opc g.pr g.dm g.ar (g.s ++ g.off)
def MX.enc (g : MX) (opc : BitVec 6) : W32 := mWord opc g.pr g.dm g.ar (g.vi ++ (0 : BitVec 4))
def MSc.enc (g : MSc) (opc : BitVec 6) : W32 := mWord opc g.pr ((0 : BitVec 1) ++ g.s) g.ar g.off
def MSp.enc (g : MSp) (opc : BitVec 6) : W32 := mWord opc g.pr g.dm 0 g.slot

/-- MS word (R173). -/
def msWord (opc : BitVec 6) (s : BitVec 6) (f : BitVec 16) : W32 := opc ++ (0 : BitVec 4) ++ s ++ f

/-- The word of an instruction; none for an event, which has no encoding. -/
def encode : Instr → Option W32
  | .csrr csr rd => some (iType csr 0 0b010 rd 0b1110011)
  | .csrWrite o csr rd rs => some (iType csr rs o.code rd 0b1110011)
  | .controlLoad o rd rs1 imm => some (iType imm rs1 o.code rd 0b0000011)
  | .controlStore sz rs1 rs2 imm =>
    some (rType (fld imm 5 7) rs2 rs1 ((0 : BitVec 1) ++ sz) (fld imm 0 5) 0b0100011)
  | .lr dbl aq rl rd rs1 =>
    some (rType ((0b00010 : BitVec 5) ++ ofBit aq ++ ofBit rl) 0 rs1 ((0b01 : BitVec 2) ++ ofBit dbl) rd 0b0101111)
  | .sc dbl aq rl rd rs1 rs2 =>
    some (rType ((0b00011 : BitVec 5) ++ ofBit aq ++ ofBit rl) rs2 rs1 ((0b01 : BitVec 2) ++ ofBit dbl) rd 0b0101111)
  | .controlAmo o dbl aq rl rd rs1 rs2 =>
    some (rType (o.code ++ ofBit aq ++ ofBit rl) rs2 rs1 ((0b01 : BitVec 2) ++ ofBit dbl) rd 0b0101111)
  | .fence imm rs1 rd => some (iType imm rs1 0b000 rd 0b0001111)
  | .fenceI imm rs1 rd => some (iType imm rs1 0b001 rd 0b0001111)
  | .ecall => some 0x00000073
  | .ebreak => some 0x00100073
  | .wfi => some 0x10500073
  | .controlCompute o => some o.encode
  | .kLda sz sc sp rd rs1 => some (rType ((0 : BitVec 1) ++ sz ++ sc ++ ofBit sp) 0 rs1 0b000 rd 0b0001011)
  | .kStl sz sc sp rs1 rs2 => some (rType ((0 : BitVec 1) ++ sz ++ sc ++ ofBit sp) rs2 rs1 0b001 0 0b0001011)
  | .kAmoW o sc sp rd rs1 rs2 => some (rType (o.code ++ sc ++ ofBit sp) rs2 rs1 0b010 rd 0b0001011)
  | .kAmoD o sc sp rd rs1 rs2 => some (rType (o.code ++ sc ++ ofBit sp) rs2 rs1 0b011 rd 0b0001011)
  | .kFence sc => some (rType ((0 : BitVec 3) ++ sc ++ (0 : BitVec 1)) 0 0 0b100 0 0b0001011)
  | .kSarm rs1 rs2 => some (rType 0b0000000 rs2 rs1 0b101 0 0b0001011)
  | .kSarmZ rs1 rs2 => some (rType 0b0010000 rs2 rs1 0b101 0 0b0001011)
  | .kSpost sc rs1 rs2 => some (rType ((0b010 : BitVec 3) ++ sc ++ (0 : BitVec 1)) rs2 rs1 0b101 0 0b0001011)
  | .kSwait rd rs1 rs2 => some (rType 0b0110000 rs2 rs1 0b101 rd 0b0001011)
  | .kSread rd rs1 => some (rType 0b1000000 0 rs1 0b101 rd 0b0001011)
  | .kFput sc rs1 rs2 => some (rType ((0b000 : BitVec 3) ++ sc ++ (0 : BitVec 1)) rs2 rs1 0b110 0 0b0001011)
  | .kFget rd rs1 => some (rType 0b0010000 0 rs1 0b110 rd 0b0001011)
  | .kFtry rd rs1 => some (rType 0b0100000 0 rs1 0b110 rd 0b0001011)
  | .kFret => some (rType 0b0110000 0 0 0b110 0 0b0001011)
  | .kRun rd rs1 => some (rType 0 0 rs1 0b000 rd 0b0101011)
  | .kRuni rd rs1 rs2 => some (rType 0 rs2 rs1 0b001 rd 0b0101011)
  | .kCopy ch rd rs1 => some (rType ((0 : BitVec 5) ++ ch) 0 rs1 0b010 rd 0b0101011)
  | .kCopyiIn ch rd rs1 rs2 => some (rType ((0b00000 : BitVec 5) ++ ch) rs2 rs1 0b011 rd 0b0101011)
  | .kCopyiOut ch rd rs1 rs2 => some (rType ((0b00001 : BitVec 5) ++ ch) rs2 rs1 0b011 rd 0b0101011)
  | .kStk rd rs1 => some (rType 0 0 rs1 0b100 rd 0b0101011)
  | .kMfence m => some (iType ((0 : BitVec 6) ++ m) 0 0b101 0 0b0101011)
  | .kTlwait q rd rs1 rs2 => some (rType ((0b0000 : BitVec 4) ++ q) rs2 rs1 0b110 rd 0b0101011)
  | .kTlread q rd => some (rType ((0b0010 : BitVec 4) ++ q) 0 0 0b110 rd 0b0101011)
  | .kQstat q rd => some (rType ((0b0100 : BitVec 4) ++ q) 0 0 0b110 rd 0b0101011)
  | .kJoin => some (rType 0b0110000 0 0 0b110 0 0b0101011)
  | .kParcel rd => some (rType 0 0 0 0b000 rd 0b1011011)
  | .kPinfo sel rd rs1 => some (rType ((0b0010 : BitVec 4) ++ sel) 0 rs1 0b000 rd 0b1011011)
  | .kBar sc rd rs1 rs2 => some (rType ((0b000 : BitVec 3) ++ sc ++ (0 : BitVec 1)) rs2 rs1 0b001 rd 0b1011011)
  | .kBarw sc rd rs1 rs2 => some (rType ((0b001 : BitVec 3) ++ sc ++ (0 : BitVec 1)) rs2 rs1 0b001 rd 0b1011011)
  | .kClosure sc rd rs1 => some (rType ((0b010 : BitVec 3) ++ sc ++ (0 : BitVec 1)) 0 rs1 0b001 rd 0b1011011)
  | .kLaunch q rd rs1 rs2 => some (rType ((0 : BitVec 4) ++ q) rs2 rs1 0b010 rd 0b1011011)
  | .kExit => some (rType 0 0 0 0b011 0 0b1011011)
  | .kHyield rs1 => some (rType 0b0010000 0 rs1 0b011 0 0b1011011)
  | .kPause n => some (iType n 0 0b100 0 0b1011011)
  | .kStamp id rd => some (iType id 0 0b101 rd 0b1011011)
  | .kTrace id rs1 => some (iType id rs1 0b110 0 0b1011011)
  | .kAcct rd rs1 => some (rType 0 0 rs1 0b111 rd 0b1011011)
  | .kRaise rs1 => some (rType 0b0010000 0 rs1 0b111 0 0b1011011)
  | .kRaiseF rs1 => some (rType 0b0010001 0 rs1 0b111 0 0b1011011)
  | .noOperation => some 0
  | .add g => some (g.enc 0x01)
  | .sub g => some (g.enc 0x02)
  | .mul g => some (g.enc 0x03)
  | .mulh g => some (g.enc 0x04)
  | .mulhn g => some (g.enc 0x05)
  | .and g => some (g.enc 0x06)
  | .or g => some (g.enc 0x07)
  | .xor g => some (g.enc 0x08)
  | .andn g => some (g.enc 0x09)
  | .shl g => some (g.enc 0x0A)
  | .shr g => some (g.enc 0x0B)
  | .sra g => some (g.enc 0x0C)
  | .rotl g => some (g.enc 0x0D)
  | .min g => some (g.enc 0x0E)
  | .max g => some (g.enc 0x0F)
  | .minn g => some (g.enc 0x10)
  | .maxn g => some (g.enc 0x11)
  | .clz g => some (g.enc 0x12)
  | .popc g => some (g.enc 0x13)
  | .sel g => some (g.enc 0x14)
  | .addi g => some (g.enc 0x20)
  | .movi g => some (g.enc 0x21)
  | .movhi g => some (g.enc 0x22)
  | .shlI g => some (g.enc 0x23)
  | .shrI g => some (g.enc 0x24)
  | .sraI g => some (g.enc 0x25)
  | .rotlI g => some (g.enc 0x26)
  | .andI g => some (g.enc 0x27)
  | .orI g => some (g.enc 0x28)
  | .xorI g => some (g.enc 0x29)
  | .ceq g => some (g.enc 0x30)
  | .cne g => some (g.enc 0x31)
  | .clt g => some (g.enc 0x32)
  | .cle g => some (g.enc 0x33)
  | .cltn g => some (g.enc 0x34)
  | .clen g => some (g.enc 0x35)
  | .ceqI g => some (g.enc 0x38)
  | .cneI g => some (g.enc 0x39)
  | .cltI g => some (g.enc 0x3A)
  | .cleI g => some (g.enc 0x3B)
  | .cltnI g => some (g.enc 0x3C)
  | .clenI g => some (g.enc 0x3D)
  | .kand g => some (g.enc 0x40)
  | .kor g => some (g.enc 0x41)
  | .kxor g => some (g.enc 0x42)
  | .smov g => some (g.enc 0x48)
  | .aset kc ad sa imm => some (sWord 0x49 kc ((0 : BitVec 2) ++ ad) sa imm)
  | .aadd kc ad imm => some (sWord 0x4A kc ((0 : BitVec 2) ++ ad) 0 imm)
  | .aget kc sd aa => some (sWord 0x4B kc sd ((0 : BitVec 2) ++ aa) 0)
  | .bbc kc n => some ((0x50 : BitVec 7) ++ kc ++ (0 : BitVec 8) ++ n)
  | .mark id => some ((0x51 : BitVec 7) ++ (0 : BitVec 13) ++ id)
  | .yield => some ((0x52 : BitVec 7) ++ (0 : BitVec 25))
  | .fadd g => some (g.enc 1)
  | .fsub g => some (g.enc 2)
  | .fmul g => some (g.enc 3)
  | .fma g => some (g.enc 4)
  | .fms g => some (g.enc 5)
  | .fnma g => some (g.enc 6)
  | .fnms g => some (g.enc 7)
  | .fmin g => some (g.enc 8)
  | .fmax g => some (g.enc 9)
  | .fminn g => some (g.enc 10)
  | .fmaxn g => some (g.enc 11)
  | .fceq g => some (g.enc 12)
  | .fclt g => some (g.enc 13)
  | .fcle g => some (g.enc 14)
  | .fcun g => some (g.enc 15)
  | .fclass g => some (vWord (fOpc 16 g.ty) g.pr g.d g.a 0)
  | .vaddI32 g => some (g.enc 0x44)
  | .vsubI32 g => some (g.enc 0x45)
  | .vmulI32 g => some (g.enc 0x46)
  | .vand g => some (g.enc 0x47)
  | .vor g => some (g.enc 0x48)
  | .vxor g => some (g.enc 0x49)
  | .vandn g => some (g.enc 0x4A)
  | .vshl g => some (g.enc 0x4B)
  | .vshr g => some (g.enc 0x4C)
  | .vsra g => some (g.enc 0x4D)
  | .vminI32 g => some (g.enc 0x4E)
  | .vmaxI32 g => some (g.enc 0x4F)
  | .vminN32 g => some (g.enc 0x50)
  | .vmaxN32 g => some (g.enc 0x51)
  | .vceqI32 g => some (g.enc 0x52)
  | .vcltI32 g => some (g.enc 0x53)
  | .vcltN32 g => some (g.enc 0x54)
  | .vmov g => some (g.enc 0x58)
  | .vmovi g => some ((0x59 : BitVec 7) ++ g.pr ++ g.d ++ g.imm)
  | .vbcs g => some (vWord 0x5A g.pr g.d ((0 : BitVec 1) ++ g.s) 0)
  | .vsel g => some (g.enc 0x5B)
  | .pack g => some (g.enc 0x5C)
  | .unpack g => some (vWord 0x5D g.pr g.d g.a ((0 : BitVec 5) ++ g.n))
  | .perm g => some (g.enc 0x5E)
  | .bcl g => some (vWord 0x5F g.pr g.d g.a ((0 : BitVec 3) ++ g.n))
  | .xcl g => some (vWord 0x60 g.pr g.d g.a ((0 : BitVec 4) ++ g.n))
  | .vredAddF g => some (g.enc 0x61)
  | .vredMaxF g => some (g.enc 0x62)
  | .vredAddI32 g => some (g.enc 0x63)
  | .part g => some (g.enc 0x64)
  | .pand g => some (g.enc 0x65)
  | .por g => some (g.enc 0x66)
  | .pxor g => some (g.enc 0x67)
  | .pandn g => some (g.enc 0x68)
  | .ppop g => some (vWord 0x69 g.pr g.d ((0 : BitVec 3) ++ g.pa) 0)
  | .cvt g => some (vWord (0x6A + g.src.setWidth 7) g.pr g.d g.a (g.dst ++ g.rnd))
  | .rsqa g => some (g.encX 0x01)
  | .rcpa g => some (g.encX 0x02)
  | .exp2a g => some (g.encX 0x03)
  | .log2a g => some (g.encX 0x04)
  | .sina g => some (g.encX 0x05)
  | .cosa g => some (g.encX 0x06)
  | .tanha g => some (g.encX 0x07)
  | .mma g => some (g.enc 0)
  | .mmaAcc g => some (g.enc 1)
  | .mzero a => some ((0x11 : BitVec 6) ++ a ++ (0 : BitVec 21))
  | .mdrain g => some ((0x12 : BitVec 6) ++ g.acc ++ g.ad ++ g.dfmt ++ g.rnd ++ (0 : BitVec 10))
  | .msetF e s => some (xsWord 0x13 e s 0)
  | .msetC e a => some (xsWord 0x14 e 0 a)
  | .msetS e s a => some (xsWord 0x15 e s a)
  | .rstat g => some ((0x18 : BitVec 6) ++ g.acc ++ g.d ++ g.stat ++ (0 : BitVec 11))
  | .vld g => some (g.enc 0x01)
  | .vldB g => some (g.enc 0x02)
  | .vldS g => some (g.enc 0x03)
  | .vldx g => some (g.enc 0x04)
  | .vst g => some (g.enc 0x08)
  | .vstS g => some (g.enc 0x09)
  | .vstx g => some (g.enc 0x0A)
  | .sld g => some (g.enc 0x10)
  | .sst g => some (g.enc 0x11)
  | .spill g => some (g.enc 0x18)
  | .fill g => some (g.enc 0x19)
  | .swait g s => some (msWord 0x20 s (g ++ (0 : BitVec 10)))
  | .spost s sc n => some (msWord 0x21 s (sc ++ n))
  | .sarm g s => some (msWord 0x22 s (g ++ (0 : BitVec 10)))
  | .sarmZ g s => some (msWord 0x22 s (g ++ (1 : BitVec 1) ++ (0 : BitVec 9)))
  | _ => none

/-- The instruction the control core's decoder reads from an instruction whose bits are w: 16 bits for a compressed one,
else 32 (R60, R68); none where the decoder refuses it. -/
def decodeTableWord (nbits w : Nat) : Option Instr :=
  if nbits ≤ 16 then
    if hartLen (BitVec.ofNat 16 w) = 2 then decodeC? (BitVec.ofNat 16 w) else decodeHart? (BitVec.ofNat 32 w)
  else decodeHart? (BitVec.ofNat 32 w)

end Sys2Proof
end

