-- ==== Sys2Proof/Machine/Table.lean ====
section
/-! DEFINITION. Sparse tables and small list operations the machine is written with. -/

namespace Sys2Proof.Machine

/-- The entry of key k, if listed. -/
def tabGet? {α : Type} : Tab α → Nat → Option α
  | [], _ => none
  | (j, v) :: l, k => if j = k then some v else tabGet? l k

/-- The entry of key k, or d. -/
def tabGet {α : Type} (d : α) (l : Tab α) (k : Nat) : α := (tabGet? l k).getD d

/-- The table with v at key k; keys stay in rising order. -/
def tabPut {α : Type} : Tab α → Nat → α → Tab α
  | [], k, v => [(k, v)]
  | (j, w) :: l, k, v =>
    if j = k then (k, v) :: l
    else if k < j then (k, v) :: (j, w) :: l
    else (j, w) :: tabPut l k v

/-- The table without key k. -/
def tabDel {α : Type} (l : Tab α) (k : Nat) : Tab α := l.filter fun e => decide (e.1 ≠ k)

/-- The keys of a table. -/
def tabKeys {α : Type} (l : Tab α) : List Nat := l.map Prod.fst

/-- Sorted insertion of a number, once. -/
def insNat (k : Nat) : List Nat → List Nat
  | [] => [k]
  | j :: l => if j = k then j :: l else if k < j then k :: j :: l else j :: insNat k l

/-- Replace element n of a list. -/
def setNth {α : Type} (l : List α) (n : Nat) (v : α) : List α := l.set n v

/-- The least element of a list under a key, the first among equals. -/
def leastBy {α : Type} (key : α → Nat) : List α → Option α
  | [] => none
  | x :: xs =>
    match leastBy key xs with
    | none => some x
    | some y => if key x ≤ key y then some x else some y

/-- The greatest element under a key, the first among equals. -/
def greatestBy {α : Type} (key : α → Nat) : List α → Option α
  | [] => none
  | x :: xs =>
    match greatestBy key xs with
    | none => some x
    | some y => if key y ≤ key x then some x else some y

/-- Sum of a list of numbers. -/
def sumNat (l : List Nat) : Nat := l.foldl (· + ·) 0

/-- Apply f to the state for each element, in order. -/
def forAll {α σ : Type} (l : List α) (f : σ → α → σ) (s : σ) : σ := l.foldl f s

end Sys2Proof.Machine
end

