-- ==== Sys2Proof/Machine/Crypto.lean ====
section
/-! DEFINITION. The cryptography the spec names: AES-256 in XTS mode over 64-byte units (R149), SHA-512 (R44, R389), and
HKDF, AES-256-GCM and ECDH on P-521 for wrapped keys (R165). The algorithms themselves are the published standards
(PRESUMED, assumption 20); the spec fixes where and over what they are used. -/

namespace Sys2Proof.Machine

/-! ### AES-256 -/

/-- Entry n of a table of 256 bytes kept as one number. -/
def tableByte (t : BitVec 2048) (n : Byte) : Byte := t.extractLsb' (8 * n.toNat) 8

def aesSbox : BitVec 2048 := 0x16BB54B00F2D99416842E6BF0D89A18CDF2855CEE9871E9B948ED9691198F8E19E1DC186B95735610EF6034866B53E708A8BBD4B1F74DDE8C6B4A61C2E2578BA08AE7A65EAF4566CA94ED58D6D37C8E779E4959162ACD3C25C2406490A3A32E0DB0B5EDE14B8EE4688902A22DC4F816073195D643D7EA7C41744975FEC130CCDD2F3FF1021DAB6BCF5389D928F40A351A89F3C507F02F94585334D43FBAAEFD0CF584C4A39BECB6A5BB1FC20ED00D153842FE329B3D63B52A05A6E1B1A2C830975B227EBE28012079A059618C323C7041531D871F1E5A534CCF73F362693FDB7C072A49CAFA2D4ADF04759FA7DC982CA76ABD7FE2B670130C56F6BF27B777C63
def aesInvSbox : BitVec 2048 := 0x7D0C2155631469E126D677BA7E042B17619953833CBBEBC8B0F52AAE4D3BE0A0EF9CC9939F7AE52D0D4AB519A97F51605FEC8027591012B131C7078833A8DD1FF45ACD78FEC0DB9A2079D2C64B3E56FC1BBE18AA0E62B76F89C5291D711AF1476EDF751CE837F9E28535ADE72274AC9673E6B4F0CECFF297EADC674F4111913A6B8A130103BDAFC1020F3FCA8F1E2CD00645B3B80558E4F70AD3BC8C00ABD890849D8DA75746155EDAB9EDFD5048706C92B6655DCC5CA4D41698688664F6F87225D18B6D49A25B76B224D92866A12E084EC3FA420B954CEE3D23C2A632947B54CBE9DEC444438E3487FF2F9B8239E37CFBD7F3819EA340BF38A53630D56A0952

def aesSub (b : Byte) : Byte := tableByte aesSbox b
def aesInvSub (b : Byte) : Byte := tableByte aesInvSbox b

/-- Multiplication by x in GF(2^8). -/
def xtime (b : Byte) : Byte := (b <<< 1) ^^^ (if b.getLsbD 7 then 0x1B else 0)

/-- Multiplication in GF(2^8) by a number below 16. -/
def gmul (n : Nat) (b : Byte) : Byte :=
  (if n % 2 = 1 then b else 0) ^^^ (if n / 2 % 2 = 1 then xtime b else 0)
    ^^^ (if n / 4 % 2 = 1 then xtime (xtime b) else 0) ^^^ (if n / 8 % 2 = 1 then xtime (xtime (xtime b)) else 0)

def xorBytes (a b : List Byte) : List Byte := List.zipWith (· ^^^ ·) a b

/-- One column of MixColumns with the circulant row m. -/
def mixColumn (m : List Nat) (c : List Byte) : List Byte :=
  (List.range 4).map fun i =>
    (List.range 4).foldl (fun acc j => acc ^^^ gmul (m.getD ((j + 4 - i) % 4) 0) (c.getD j 0)) 0

def mixColumns (m : List Nat) (st : List Byte) : List Byte :=
  (List.range 4).flatMap fun j => mixColumn m ((st.drop (4 * j)).take 4)

/-- ShiftRows by d columns a row: byte (r, c) comes from column c + d * r. -/
def shiftRows (d : Nat) (st : List Byte) : List Byte :=
  (List.range 16).map fun i => st.getD (4 * ((i / 4 + d * (i % 4)) % 4) + i % 4) 0

/-- The next word of the key schedule from the words so far, newest first. -/
def aesKeyWord (i : Nat) (rcon : Byte) (ws : List (List Byte)) : List Byte :=
  let prev := ws.headD []
  let far := ws.getD 7 []
  let t :=
    if i % 8 = 0 then
      let r := (prev.drop 1 ++ prev.take 1).map aesSub
      xorBytes r [rcon, 0, 0, 0]
    else if i % 8 = 4 then prev.map aesSub
    else prev
  xorBytes far t

/-- The key schedule: n more words. -/
def aesExpand : Nat → Nat → Byte → List (List Byte) → List (List Byte)
  | 0, _, _, ws => ws
  | n + 1, i, rc, ws => aesExpand n (i + 1) (if i % 8 = 0 then xtime rc else rc) (aesKeyWord i rc ws :: ws)

/-- The fifteen round keys of a 32-byte key. -/
def aesRoundKeys (key : List Byte) : List (List Byte) :=
  let w0 := ((List.range 8).map fun i => (key.drop (4 * i)).take 4).reverse
  let ws := (aesExpand 52 8 1 w0).reverse
  (List.range 15).map fun r => ((ws.drop (4 * r)).take 4).flatten

/-- AES-256 of one block. -/
def aesEncrypt (key block : List Byte) : List Byte :=
  let ks := aesRoundKeys key
  let st := xorBytes block (ks.headD [])
  let st := ((ks.drop 1).take 13).foldl
    (fun st k => xorBytes (mixColumns [2, 3, 1, 1] (shiftRows 1 (st.map aesSub))) k) st
  xorBytes (shiftRows 1 (st.map aesSub)) (ks.getD 14 [])

/-- The inverse of AES-256 on one block. -/
def aesDecrypt (key block : List Byte) : List Byte :=
  let ks := (aesRoundKeys key).reverse
  let st := xorBytes block (ks.headD [])
  let st := ((ks.drop 1).take 13).foldl
    (fun st k => mixColumns [14, 11, 13, 9] (xorBytes ((shiftRows 3 st).map aesInvSub) k)) st
  xorBytes ((shiftRows 3 st).map aesInvSub) (ks.getD 14 [])

/-! ### XTS over a 64-byte unit (R149) -/

/-- The number of a little-endian byte list. -/
def leNat : List Byte → Nat
  | [] => 0
  | b :: l => b.toNat + 256 * leNat l

def leBytes (n v : Nat) : List Byte := (List.range n).map fun i => BitVec.ofNat 8 (v / 256 ^ i)

/-- Multiplication of a tweak by alpha in GF(2^128). -/
def xtsNext (t : List Byte) : List Byte :=
  let v := leNat t
  let d := 2 * v % 2 ^ 128
  leBytes 16 (if 2 ^ 127 ≤ v then Nat.xor d 0x87 else d)

/-- Each 16-byte block of a unit under its tweak. -/
def xtsBlocks (f : List Byte → List Byte) : Nat → List Byte → List Byte → List Byte
  | 0, _, _ => []
  | n + 1, t, d => xorBytes (f (xorBytes (d.take 16) t)) t ++ xtsBlocks f n (xtsNext t) (d.drop 16)

/-- The first tweak of unit number u of a stack: the 128-bit little-endian value cat(stack, u) (R149). DESIGN CHOICE, assumption
97: the rule gives the two parts no widths; the stack number stands at bit 64. -/
def xtsTweak (key : List Byte) (stack u : Nat) : List Byte := aesEncrypt (key.drop 32) (leBytes 16 (stack * 2 ^ 64 + u))

def xtsEncrypt (key : List Byte) (stack u : Nat) (d : List Byte) : List Byte :=
  xtsBlocks (aesEncrypt (key.take 32)) 4 (xtsTweak key stack u) d

def xtsDecrypt (key : List Byte) (stack u : Nat) (d : List Byte) : List Byte :=
  xtsBlocks (aesDecrypt (key.take 32)) 4 (xtsTweak key stack u) d

/-! ### SHA-512, HMAC, HKDF -/

def beNat (l : List Byte) : Nat := l.foldl (fun a b => 256 * a + b.toNat) 0

def beBytes (n v : Nat) : List Byte := (leBytes n v).reverse

def shaK0 : List W64 :=
  [0x428A2F98D728AE22, 0x7137449123EF65CD, 0xB5C0FBCFEC4D3B2F, 0xE9B5DBA58189DBBC,
   0x3956C25BF348B538, 0x59F111F1B605D019, 0x923F82A4AF194F9B, 0xAB1C5ED5DA6D8118,
   0xD807AA98A3030242, 0x12835B0145706FBE, 0x243185BE4EE4B28C, 0x550C7DC3D5FFB4E2,
   0x72BE5D74F27B896F, 0x80DEB1FE3B1696B1, 0x9BDC06A725C71235, 0xC19BF174CF692694,
   0xE49B69C19EF14AD2, 0xEFBE4786384F25E3, 0x0FC19DC68B8CD5B5, 0x240CA1CC77AC9C65]

def shaK1 : List W64 :=
  [0x2DE92C6F592B0275, 0x4A7484AA6EA6E483, 0x5CB0A9DCBD41FBD4, 0x76F988DA831153B5,
   0x983E5152EE66DFAB, 0xA831C66D2DB43210, 0xB00327C898FB213F, 0xBF597FC7BEEF0EE4,
   0xC6E00BF33DA88FC2, 0xD5A79147930AA725, 0x06CA6351E003826F, 0x142929670A0E6E70,
   0x27B70A8546D22FFC, 0x2E1B21385C26C926, 0x4D2C6DFC5AC42AED, 0x53380D139D95B3DF,
   0x650A73548BAF63DE, 0x766A0ABB3C77B2A8, 0x81C2C92E47EDAEE6, 0x92722C851482353B]

def shaK2 : List W64 :=
  [0xA2BFE8A14CF10364, 0xA81A664BBC423001, 0xC24B8B70D0F89791, 0xC76C51A30654BE30,
   0xD192E819D6EF5218, 0xD69906245565A910, 0xF40E35855771202A, 0x106AA07032BBD1B8,
   0x19A4C116B8D2D0C8, 0x1E376C085141AB53, 0x2748774CDF8EEB99, 0x34B0BCB5E19B48A8,
   0x391C0CB3C5C95A63, 0x4ED8AA4AE3418ACB, 0x5B9CCA4F7763E373, 0x682E6FF3D6B2B8A3,
   0x748F82EE5DEFB2FC, 0x78A5636F43172F60, 0x84C87814A1F0AB72, 0x8CC702081A6439EC]

def shaK3 : List W64 :=
  [0x90BEFFFA23631E28, 0xA4506CEBDE82BDE9, 0xBEF9A3F7B2C67915, 0xC67178F2E372532B,
   0xCA273ECEEA26619C, 0xD186B8C721C0C207, 0xEADA7DD6CDE0EB1E, 0xF57D4F7FEE6ED178,
   0x06F067AA72176FBA, 0x0A637DC5A2C898A6, 0x113F9804BEF90DAE, 0x1B710B35131C471B,
   0x28DB77F523047D84, 0x32CAAB7B40C72493, 0x3C9EBE0A15C9BEBC, 0x431D67C49C100D4C,
   0x4CC5D4BECB3E42B6, 0x597F299CFC657E2A, 0x5FCB6FAB3AD6FAEC, 0x6C44198C4A475817]

def shaK : List W64 := shaK0 ++ shaK1 ++ shaK2 ++ shaK3

def shaInit : List W64 :=
  [0x6A09E667F3BCC908, 0xBB67AE8584CAA73B, 0x3C6EF372FE94F82B, 0xA54FF53A5F1D36F1,
   0x510E527FADE682D1, 0x9B05688C2B3E6C1F, 0x1F83D9ABFB41BD6B, 0x5BE0CD19137E2179]

/-- The message schedule: n more words from the last sixteen, newest first. -/
def shaExpand : Nat → List W64 → List W64
  | 0, ws => ws
  | n + 1, ws =>
    let a := ws.getD 1 0
    let b := ws.getD 14 0
    let s0 := b.rotateRight 1 ^^^ b.rotateRight 8 ^^^ (b >>> 7)
    let s1 := a.rotateRight 19 ^^^ a.rotateRight 61 ^^^ (a >>> 6)
    shaExpand n ((ws.getD 15 0 + s0 + ws.getD 6 0 + s1) :: ws)

/-- One round on the eight working words. -/
def shaRound (h : List W64) (k w : W64) : List W64 :=
  match h with
  | [a, b, c, d, e, f, g, z] =>
    let t1 := z + (e.rotateRight 14 ^^^ e.rotateRight 18 ^^^ e.rotateRight 41) + ((e &&& f) ^^^ (~~~e &&& g)) + k + w
    let t2 := (a.rotateRight 28 ^^^ a.rotateRight 34 ^^^ a.rotateRight 39) + ((a &&& b) ^^^ (a &&& c) ^^^ (b &&& c))
    [t1 + t2, a, b, c, d + t1, e, f, g]
  | _ => h

/-- One block of 128 bytes. -/
def shaBlock (h : List W64) (b : List Byte) : List W64 :=
  let w0 := ((List.range 16).map fun i => (BitVec.ofNat 64 (beNat ((b.drop (8 * i)).take 8)) : W64)).reverse
  let ws := (shaExpand 64 w0).reverse
  let r := (List.zip shaK ws).foldl (fun h kw => shaRound h kw.1 kw.2) h
  List.zipWith (· + ·) h r

/-- Blocks of 128 bytes, n of them. -/
def shaBlocks : Nat → List W64 → List Byte → List W64
  | 0, h, _ => h
  | n + 1, h, m => shaBlocks n (shaBlock h (m.take 128)) (m.drop 128)

/-- SHA-512 of a byte list, 64 bytes. -/
def sha512 (m : List Byte) : List Byte :=
  let pad := (239 - m.length % 128) % 128
  let p := m ++ [0x80] ++ List.replicate pad 0 ++ beBytes 16 (8 * m.length)
  (shaBlocks (p.length / 128) shaInit p).flatMap fun w => beBytes 8 w.toNat

def hmac512 (key m : List Byte) : List Byte :=
  let k0 := if 128 < key.length then sha512 key else key
  let k := k0 ++ List.replicate (128 - k0.length) 0
  sha512 (k.map (· ^^^ 0x5C) ++ sha512 (k.map (· ^^^ 0x36) ++ m))

/-- HKDF with SHA-512, 32 bytes of output. -/
def hkdf32 (secret salt info : List Byte) : List Byte := (hmac512 (hmac512 salt secret) (info ++ [1])).take 32

/-! ### AES-256-GCM -/

/-- Multiplication in the field of GHASH, bit 127 of the number first. -/
def ghashMul (x y : Nat) : Nat :=
  ((List.range 128).foldl (fun (zv : Nat × Nat) i =>
    let z := if x / 2 ^ (127 - i) % 2 = 1 then Nat.xor zv.1 zv.2 else zv.1
    (z, if zv.2 % 2 = 1 then Nat.xor (zv.2 / 2) (0xE1 * 2 ^ 120) else zv.2 / 2)) (0, y)).1

def pad16 (l : List Byte) : List Byte := l ++ List.replicate ((16 - l.length % 16) % 16) 0

def ghash (h : Nat) (n : Nat) (l : List Byte) : Nat :=
  (List.range n).foldl (fun y i => ghashMul (Nat.xor y (beNat ((l.drop (16 * i)).take 16))) h) 0

/-- AES-256-GCM decryption with a 12-byte nonce: the plaintext, or none where the tag differs. -/
def gcmOpen (key nonce aad ct tag : List Byte) : Option (List Byte) :=
  let h := beNat (aesEncrypt key (List.replicate 16 0))
  let a := pad16 aad ++ pad16 ct ++ beBytes 8 (8 * aad.length) ++ beBytes 8 (8 * ct.length)
  let s := beBytes 16 (ghash h (a.length / 16) a)
  let t := xorBytes s (aesEncrypt key (nonce ++ beBytes 4 1))
  if t = tag then
    some ((List.range ((ct.length + 15) / 16)).flatMap fun i =>
      xorBytes ((ct.drop (16 * i)).take 16) (aesEncrypt key (nonce ++ beBytes 4 (i + 2))))
  else none

/-! ### ECDH on P-521 -/

def p521 : Nat := 2 ^ 521 - 1

/-- b to the power whose binary digits, least significant first, are counted by n. -/
def powMod (m : Nat) : Nat → Nat → Nat → Nat → Nat
  | 0, _, _, r => r
  | n + 1, b, e, r => powMod m n (b * b % m) (e / 2) (if e % 2 = 1 then r * b % m else r)

def invMod (a : Nat) : Nat := powMod p521 521 a (p521 - 2) 1

def subMod (a b : Nat) : Nat := (a + p521 - b % p521) % p521

/-- Addition of points; none is the point at infinity. -/
def pointAdd : Option (Nat × Nat) → Option (Nat × Nat) → Option (Nat × Nat)
  | none, q => q
  | p, none => p
  | some (x1, y1), some (x2, y2) =>
    if x1 = x2 ∧ (y1 + y2) % p521 = 0 then none
    else
      let l :=
        if x1 = x2 then subMod (3 * x1 * x1) 3 * invMod (2 * y1 % p521) % p521
        else subMod y2 y1 * invMod (subMod x2 x1) % p521
      let x3 := subMod (subMod (l * l) x1) x2
      some (x3, subMod (l * subMod x1 x3) y1)

/-- Scalar multiplication over n binary digits. -/
def pointMul : Nat → Nat → Option (Nat × Nat) → Option (Nat × Nat) → Option (Nat × Nat)
  | 0, _, _, r => r
  | n + 1, k, p, r => pointMul n (k / 2) (pointAdd p p) (if k % 2 = 1 then pointAdd r p else r)

def p521Gx : Nat :=
  0x00C6858E06B70404E9CD9E3ECB662395B4429C648139053FB521F828AF606B4D3DBAA14B5E77EFE75928FE1DC127A2FFA8DE3348B3C1856A429BF97E7E31C2E5BD66
def p521Gy : Nat :=
  0x011839296A789A3BC0045C8A5FB42C7D1BD998F54449579B446817AFBD17273E662C97EE72995EF42640C550B9013FAD0761353C7086A272C24088BE94769FD16650

/-- The other constant of the curve, and the order of its base point. -/
def p521B : Nat :=
  0x0051953EB9618E1C9A1F929A21A0B68540EEA2DA725B99B315F3B8B489918EF109E156193951EC7E937B1652C0BD3BB1BF073573DF883D2C34F1EF451FD46B503F00
def p521N : Nat :=
  0x01FFFFFFFFFFFFFFFFFFFFFFFFFFFFFFFFFFFFFFFFFFFFFFFFFFFFFFFFFFFFFFFFFFFA51868783BF2F966B7FCC0148F709A5D03BB5C9B8899C47AEBB6FB71E91386409

/-- A point in SEC1 uncompressed form, 133 bytes. -/
def sec1 (q : Nat × Nat) : List Byte := 4 :: (beBytes 66 q.1 ++ beBytes 66 q.2)

/-- Whether a pair of coordinates is a point of the curve. -/
def onCurve (q : Nat × Nat) : Bool :=
  decide (q.1 < p521) && decide (q.2 < p521) && decide (q.2 * q.2 % p521 = (q.1 * q.1 * q.1 + (p521 - 3) * q.1 + p521B) % p521)

/-- ECDSA on P-521: whether (r, s) is the signature, under the public key q, of a message of the digest given (R389). -/
def ecdsaVerify (q : Nat × Nat) (digest : List Byte) (sig : Nat × Nat) : Bool :=
  let inRange (v : Nat) : Bool := decide (0 < v) && decide (v < p521N)
  let w := powMod p521N 521 sig.2 (p521N - 2) 1
  let u1 := pointMul 521 (beNat digest * w % p521N) (some (p521Gx, p521Gy)) none
  let u2 := pointMul 521 (sig.1 * w % p521N) (some q) none
  onCurve q && inRange sig.1 && inRange sig.2 && match pointAdd u1 u2 with
    | some (x, _) => decide (x % p521N = sig.1)
    | none => false

/-- The shared secret of a secret key and a SEC1 uncompressed point, 66 bytes; none where the point is malformed. DESIGN
CHOICE, assumption 101: R165 gives no result for a point in another form, nor for one off the curve: the first is
answered as a tag that differs, the second is used as it stands. -/
def ecdh (priv : Nat) (pub : List Byte) : Option (List Byte) :=
  if pub.headD 0 = 4 then
    match pointMul 521 priv (some (beNat ((pub.drop 1).take 66), beNat ((pub.drop 67).take 66))) none with
    | some (x, _) => some (beBytes 66 x)
    | none => none
  else none

end Sys2Proof.Machine
end

