-- ==== Sys2Proof/Machine/Space.lean ====
section
/-! DEFINITION. Access to the parts of the state by name, the package physical space, its interleave, and one byte of
memory (R11, R23, R24, R29 to R34, R37, R110). -/

namespace Sys2Proof.Machine

/-! ### Tiles, contexts, pages -/

def State.tile (s : State) (t : Nat) : Tile := tabGet Tile.reset s.tiles t
def State.setTile (s : State) (t : Nat) (x : Tile) : State := { s with tiles := tabPut s.tiles t x }
def State.modTile (s : State) (t : Nat) (f : Tile → Tile) : State := s.setTile t (f (s.tile t))
def State.modEngine (s : State) (t : Nat) (f : Engine → Engine) : State :=
  s.modTile t fun x => { x with engine := f x.engine }
def State.engine (s : State) (t : Nat) : Engine := (s.tile t).engine

/-- The context of key c on tile t, if the tile has one. -/
def State.ctx? (s : State) (t c : Nat) : Option Ctx := tabGet? (s.tile t).ctxs c
def State.ctx (s : State) (t c : Nat) : Ctx := tabGet Ctx.reset (s.tile t).ctxs c
def State.setCtx (s : State) (t c : Nat) (x : Ctx) : State := s.modTile t fun y => { y with ctxs := tabPut y.ctxs c x }
def State.modCtx (s : State) (t c : Nat) (f : Ctx → Ctx) : State := s.setCtx t c (f (s.ctx t c))
def State.modHart (s : State) (t c : Nat) (f : Hart → Hart) : State := s.modCtx t c fun x => { x with hart := f x.hart }
def State.modBun (s : State) (t c : Nat) (f : Bun → Bun) : State := s.modCtx t c fun x => { x with bun := f x.bun }
def State.modDbg (s : State) (t c : Nat) (f : Debug → Debug) : State := s.modCtx t c fun x => { x with dbg := f x.dbg }
def State.delCtx (s : State) (t c : Nat) : State := s.modTile t fun y => { y with ctxs := tabDel y.ctxs c }
def State.hart (s : State) (t c : Nat) : Hart := (s.ctx t c).hart
def State.bun (s : State) (t c : Nat) : Bun := (s.ctx t c).bun

def State.page (s : State) (f : Nat) : FnPage := tabGet FnPage.reset s.pages f
def State.modPage (s : State) (f : Nat) (g : FnPage → FnPage) : State := { s with pages := tabPut s.pages f (g (s.page f)) }
def State.queue (s : State) (q : Nat) : LQueue := tabGet LQueue.reset s.queues q
def State.modQueue (s : State) (q : Nat) (g : LQueue → LQueue) : State :=
  { s with queues := tabPut s.queues q (g (s.queue q)) }
def State.sem (s : State) (t g : Nat) : Sem := tabGet Sem.reset (s.tile t).sems g
def State.setSem (s : State) (t g : Nat) (x : Sem) : State := s.modTile t fun y => { y with sems := tabPut y.sems g x }

/-- A fresh value of the counter that free values are applied to (assumption 2). -/
def State.bumpFree (s : State) : State := { s with free := s.free + 1 }

/-! ### Logical and physical tiles (R21, R27, R38, R39) -/

/-- The physical tile that carries logical number t: die times 48 plus the index in the die. -/
def State.siteOf (s : State) (t : Nat) : Nat := tabGet (48 * (t / 40) + t % 40) s.place t

def State.site (s : State) (p : Nat) : Site := tabGet (Site.reset (p % 48)) s.sites p
def State.modSite (s : State) (p : Nat) (f : Site → Site) : State := { s with sites := tabPut s.sites p (f (s.site p)) }

/-- The compute die that carries logical tile t. -/
def State.dieOf (s : State) (t : Nat) : Nat := s.siteOf t / 48

/-- Die, quad and position a logical number received at package reset (R38). -/
def State.dealtOf (s : State) (t : Nat) : Nat × Nat × Nat := tabGet (t / 40, t % 40 / 4, t % 4) s.dealt t

/-- Enabled numbers are those below N0 that are not fenced (R38). -/
def State.enabled (s : State) (t : Nat) : Bool := decide (t < s.n0) && !(s.fenced.contains t)

/-- The enabled logical numbers in ascending order. -/
def State.enabledTiles (s : State) : List Nat := (List.range s.n0).filter fun t => s.enabled t

/-- The rate weight of the tile that carries t (R42). -/
def State.weight (s : State) (t : Nat) : Nat := (s.site (s.siteOf t)).w

/-- The die-identity word (R19). -/
def State.didWord (s : State) (t : Nat) : W64 :=
  let p := s.siteOf t
  let x := s.site p
  BitVec.ofNat 64 (p / 48 + 16 * x.quad + 256 * x.pos)

/-! ### The package physical map (R29 to R34) -/

def sliceBase : Nat := 0x004000000000
def regBase : Nat := 0x004100000000
def hbmBase : Nat := 0x100000000000
def hbmEnd : Nat := 0x1165A0BC0000
def dieBase : Nat := 0x200000000000
def dieSlot : Nat := 0x004000000000

/-- The package physical address of local address a of logical tile t (R29). -/
def sliceAddr (t a : Nat) : Nat := sliceBase + t * 0x400000 + a

/-- What a package physical address reaches. -/
inductive Reach where
  | slice (t a : Nat)
  | hbm (stack off : Nat)
  | regs (off : Nat)
  | reserved
  deriving DecidableEq, Repr

/-- Bytes of one stack (R6). -/
def stackBytes : Nat := 64000000000

/-- Stack and offset of an address in the global aperture (R32). -/
def globalCell (pa : Nat) : Nat × Nat :=
  let off := pa - hbmBase
  let g := off / 2048
  let i := g % 24
  (3 * (i % 8) + i / 8, g / 24 * 2048 + off % 2048)

/-- Stack and offset of an address in the die-local aperture (R33); none in the unused top of a slot. -/
def dieCell (pa : Nat) : Option (Nat × Nat) :=
  let rel := pa - dieBase
  let d := rel / dieSlot
  let off := rel % dieSlot
  let j := off / 2048
  if 192000000000 ≤ off then none else some (3 * d + j % 3, j / 3 * 2048 + off % 2048)

/-- The global-aperture address of a cell, under which its byte is kept (R34). -/
def cellAddr (stack off : Nat) : Nat :=
  hbmBase + (24 * (off / 2048) + (8 * (stack % 3) + stack / 3)) * 2048 + off % 2048

/-- What a package physical address reaches (R29 to R31, R33, R136). -/
def State.locate (s : State) (pa : Nat) : Reach :=
  if sliceBase ≤ pa ∧ pa < sliceBase + 0x50000000 then
    let t := (pa - sliceBase) / 0x400000
    if s.enabled t then .slice t ((pa - sliceBase) % 0x400000) else .reserved
  else if regBase ≤ pa ∧ pa < regBase + 0x1000000 then .regs (pa - regBase)
  else if hbmBase ≤ pa ∧ pa < hbmEnd then
    let c := globalCell pa
    if c.2 < stackBytes then .hbm c.1 c.2 else .reserved
  else if dieBase ≤ pa ∧ pa < dieBase + 8 * dieSlot then
    match dieCell pa with
    | some c => if c.2 < stackBytes then .hbm c.1 c.2 else .reserved
    | none => .reserved
  else .reserved

/-- The address under which the model keeps the byte of pa: one address a cell (R34). -/
def State.canon (s : State) (pa : Nat) : Nat :=
  match s.locate pa with
  | .hbm h o => cellAddr h o
  | _ => pa

/-! ### One byte of memory -/

/-- What a listed memory answers for address a; an unlisted byte reads as zero (assumption 4). -/
def cellRead : List Host.Cell → Nat → Byte
  | [], _ => 0
  | (b, v) :: l, a => if b = a then v else cellRead l a

/-- The memory without address a. -/
def cellDrop (l : List Host.Cell) (a : Nat) : List Host.Cell := l.filter fun e => decide (e.1 ≠ a)

/-- The memory with byte v placed at address a, before entries of higher address. -/
def cellPut : List Host.Cell → Nat → Byte → List Host.Cell
  | [], a, v => [(a, v)]
  | (b, w) :: l, a, v => if a < b then (a, v) :: (b, w) :: l else (b, w) :: cellPut l a v

/-- The memory after a write of byte v at address a: writing zero removes the entry. -/
def cellWrite (l : List Host.Cell) (a : Nat) (v : Byte) : List Host.Cell :=
  if v = 0 then cellDrop l a else cellPut (cellDrop l a) a v

/-- The canonical form of a memory: addresses strictly rising, no entry equal to what an unlisted address reads as. -/
def cellsWf : List Host.Cell → Bool
  | [] => true
  | [(_, v)] => decide (v ≠ 0)
  | (a, v) :: (b, w) :: l => decide (v ≠ 0) && decide (a < b) && cellsWf ((b, w) :: l)

/-- Byte n, least significant first, of a bit vector. -/
def byteOf {m : Nat} (w : BitVec m) (n : Nat) : Byte := w.extractLsb' (8 * n) 8

/-- The n bytes of a word, least significant first (R11). -/
def bytesOf {m : Nat} (w : BitVec m) (n : Nat) : List Byte := (List.range n).map fun i => byteOf w i

/-- The number that bytes hold, least significant first. -/
def natOfBytes : List Byte → Nat
  | [] => 0
  | b :: l => b.toNat + 256 * natOfBytes l

/-- The word that bytes hold, least significant first (R11). -/
def wordOf (m : Nat) (l : List Byte) : BitVec m := BitVec.ofNat m (natOfBytes l)

/-- Local address of the semaphore block (R23). -/
def semBase : Nat := 0x3FF000

/-- The readable fields of a semaphore entry as 512 bits (R23). -/
def Sem.bits (x : Sem) : BitVec 128 :=
  (0 : BitVec 46) ++ (if x.overshot then 1 else 0 : BitVec 1) ++ (if x.err then 1 else 0 : BitVec 1) ++ x.gen ++ x.count ++ x.target

/-- Byte o of a semaphore entry as a read sees it (R23). -/
def Sem.byte (x : Sem) (o : Nat) : Byte := if o < 16 then byteOf x.bits o else 0

/-- A byte of tile t's scratchpad (R22, R23). -/
def State.localByte (s : State) (t a : Nat) : Byte :=
  if semBase ≤ a then (s.sem t ((a - semBase) / 64)).byte ((a - semBase) % 64) else cellRead s.mem (sliceAddr t a)

/-- The n bytes of tile t's scratchpad from local address a. -/
def State.localBytes (s : State) (t a n : Nat) : List Byte := (List.range n).map fun i => s.localByte t (a + i)

/-- Package memory and host memory are in their one canonical form: addresses rising, no byte listed that is zero. -/
abbrev State.Canon (s : State) : Prop := cellsWf s.mem = true ∧ cellsWf s.hostMem = true

/-- The form every memory operation keeps. -/
abbrev Memory.wf (s : State) : Prop := s.Canon

/-- Write one byte of tile t's scratchpad; the semaphore block is written by its own operations only: stores of the tile's
harts and writes of the host, whose effect R24 and R108 give. The spec does not say what a write of another package that
reaches the block does; the model drops its bytes there (DESIGN CHOICE, assumption 90). -/
def State.pokeLocal (s : State) (t a : Nat) (b : Byte) : State :=
  if semBase ≤ a then s else { s with mem := cellWrite s.mem (sliceAddr t a) b }

/-- Write consecutive bytes of tile t's scratchpad. -/
def State.pokeLocals (s : State) (t a : Nat) : List Byte → State
  | [] => s
  | b :: l => (s.pokeLocal t a b).pokeLocals t (a + 1) l

/-- A byte of HBM as it is stored, by canonical address. -/
def State.hbmByte (s : State) (a : Nat) : Byte := cellRead s.mem a

/-- Write one stored byte of HBM. -/
def State.pokeHbm (s : State) (a : Nat) (b : Byte) : State := { s with mem := cellWrite s.mem a b }

/-- Whether a 64-byte unit of memory holds an uncorrectable error (R150, R388). -/
def State.eccBad (s : State) (a : Nat) : Bool := s.ecc.contains (a / 64 * 64)

/-- Whether some of the n bytes of tile t's scratchpad from local address a hold an uncorrectable error (R3). -/
def State.localBad (s : State) (t a n : Nat) : Bool :=
  (List.range n).any fun i => decide (a + i < semBase) && s.eccBad (sliceAddr t (a + i))

/-! ### Bank groups, banks, lines (R37) -/

def groupOf (a : Nat) : Nat := a / 0x100000 % 4
def bankOf (a : Nat) : Nat := a / 64 % 8
def lineOf (a : Nat) : Nat := a / 64

/-! ### Fields of records -/

/-- The number in bits [hi:lo] of a record. -/
def fieldNat {m : Nat} (w : BitVec m) (hi lo : Nat) : Nat := (w.extractLsb' lo (hi + 1 - lo)).toNat

/-- The signed number in bits [hi:lo] of a record. -/
def fieldInt {m : Nat} (w : BitVec m) (hi lo : Nat) : Int := (w.extractLsb' lo (hi + 1 - lo)).toInt

/-- Bit n of a record. -/
def fieldBit {m : Nat} (w : BitVec m) (n : Nat) : Bool := w.getLsbD n

/-- Whether every listed range of bits is zero (R14). -/
def zeroFields {m : Nat} (w : BitVec m) (l : List (Nat × Nat)) : Bool := l.all fun r => decide (fieldNat w r.1 r.2 = 0)

/-- The ASID entry of an address space and its fields (R160). -/
def State.asidEntry (s : State) (a : W16) : BitVec 128 := tabGet 0 s.asids a.toNat
def State.asidFn (s : State) (a : W16) : Nat := fieldNat (s.asidEntry a) 62 58
def State.asidValid (s : State) (a : W16) : Bool := fieldBit (s.asidEntry a) 63

/-! ### Launch records and the layout of a task (R44, R46, R47) -/

def recWin (r : LaunchRec) : Nat := fieldNat r 322 320
def recAcc (r : LaunchRec) : Nat := fieldNat r 332 328
def recSpill (r : LaunchRec) : Nat := fieldNat r 351 336
def recCarveBase (r : LaunchRec) : Nat := fieldNat r 361 352 * 4096
def recCarveSize (r : LaunchRec) : Nat := fieldNat r 377 368 * 4096
def recFutOff (r : LaunchRec) : Nat := fieldNat r 401 384 * 16
def recFutCount (r : LaunchRec) : Nat := fieldNat r 427 416
def recOvfVa (r : LaunchRec) : Nat := fieldNat r 511 448
def recOvfSlots (r : LaunchRec) : Nat := fieldNat r 543 512
def recFqVa (r : LaunchRec) : Nat := fieldNat r 639 576
def recBbcVa (r : LaunchRec) : Nat := fieldNat r 703 640
def recHotVa (r : LaunchRec) : Nat := fieldNat r 767 704
def recPdim (r : LaunchRec) (n : Nat) : Nat := fieldNat r (799 + 32 * n) (768 + 32 * n)
def recAsid (r : LaunchRec) : W16 := r.extractLsb' 192 16
def recNctx (r : LaunchRec) : Nat := fieldNat r 19 16
def recPrio (r : LaunchRec) : Nat := fieldNat r 11 10
def recPower (r : LaunchRec) : Nat := fieldNat r 9 8
def recProfile (r : LaunchRec) : Nat := fieldNat r 23 20
def recFpcw (r : LaunchRec) : W32 := r.extractLsb' 32 32
def recDrift (r : LaunchRec) : Nat := fieldNat r 255 224
def recSeed (r : LaunchRec) : W64 := r.extractLsb' 256 64
def recHash (r : LaunchRec) : BitVec 512 := r.extractLsb' 1536 512
def recClen (r : LaunchRec) : Nat := fieldNat r 144 128
def recBlen (r : LaunchRec) : Nat := fieldNat r 173 160
def recMcount (r : LaunchRec) : Nat := fieldNat r 188 176
def recImageVa (r : LaunchRec) : Nat := fieldNat r 127 64
def recInitVa (r : LaunchRec) : Nat := fieldNat r 1535 1472
def recInitLen (r : LaunchRec) : Nat := fieldNat r 1119 1104 * 64

/-- A launch that no resident task has: what a lookup answers when there is none. -/
def Launch.none : Launch :=
  { id := 0, record := 0, queue := 0, m := 0, tiles := [], left := 0, nzx := 0, lowidx := Option.none, clock := Clock.zero,
    started := 0 }

def State.launch? (s : State) (i : Nat) : Option Launch := s.launches.find? fun l => decide (l.id = i)
def State.launch (s : State) (i : Nat) : Launch := (s.launch? i).getD Launch.none
def State.modLaunch (s : State) (i : Nat) (f : Launch → Launch) : State :=
  { s with launches := s.launches.map fun l => if l.id = i then f l else l }

/-- The launch record of the task in context c of tile t. -/
def State.recOf (s : State) (t c : Nat) : LaunchRec := (s.launch (s.ctx t c).launch).record
def State.asidOf (s : State) (t c : Nat) : W16 := recAsid (s.recOf t c)
def State.prioOf (s : State) (t c : Nat) : Nat := recPrio (s.recOf t c)

/-- First local address of a context's carve and the address after it (R46). -/
def State.carve (s : State) (t c : Nat) : Nat × Nat :=
  let r := s.recOf t c
  let b := recCarveBase r + (s.ctx t c).rank * recCarveSize r
  (b, b + recCarveSize r)

/-- Whether bytes a to a + n - 1 lie in the carves of launch l on tile t (R61, R71, R207), which are consecutive (R46). The
carve of a task that has retired stays its launch's until another launch takes it (R50, R327; DESIGN CHOICE, assumption 31). -/
def State.inLaunchCarves (s : State) (l t a n : Nat) : Bool :=
  let x := s.launch l
  let b := recCarveBase x.record
  let z := recCarveSize x.record
  x.tiles.contains t && decide (b ≤ a) && decide (a + n ≤ b + recNctx x.record * z) && decide (a + n ≤ semBase)
    && (s.tile t).ctxs.all fun e =>
      decide (e.2.launch = l) || (let k := s.carve t e.1; decide (a + n ≤ k.1) || decide (k.2 ≤ a))

/-- Whether bytes a to a + n - 1 lie in the carve of context c of tile t (R87). -/
def State.inOwnCarve (s : State) (t c a n : Nat) : Bool :=
  decide ((s.carve t c).1 ≤ a) && decide (a + n ≤ (s.carve t c).2)

/-- Context keys of tile t whose context number is in use on the tile: resident, saving, faulted, dumping. -/
def Ctx.onTile (x : Ctx) : Bool := decide (x.st ≠ .saved)
def State.residents (s : State) (t : Nat) : List Nat :=
  ((s.tile t).ctxs.filter fun e => decide (e.2.st = .resident)).map Prod.fst

/-- The global time base as a word, as seen at any tile (R20). DESIGN CHOICE, assumption 89: the spec lets two tiles' views lie up to
2 ticks apart; here every tile reads the one time base. -/
def State.ktime (s : State) : W64 := BitVec.ofNat 64 s.now

end Sys2Proof.Machine
end

