-- ==== Sys2Proof/Machine/Translate.lean ====
section
/-! DEFINITION. Bytes of HBM under a key slot (R149), address translation by the copy engine (R134 to R138), and vector
clocks, frontiers and messages (R117 to R119). -/

namespace Sys2Proof.Machine

/-! ### HBM under a key slot (R149) -/

def State.keySlot (s : State) (k : Nat) : KeySlot := tabGet KeySlot.reset s.keys k

/-- A key slot that an access of an address space may use (R136, R164). -/
def State.keyOk (s : State) (k : Nat) (asid : W16) : Bool :=
  decide (k = 0) || ((s.keySlot k).loaded && decide ((s.keySlot k).asid = asid))

/-- The 64 stored bytes of the unit at canonical address a. -/
def State.rawUnit (s : State) (a : Nat) : List Byte := (List.range 64).map fun i => s.hbmByte (a + i)

/-- The 64 bytes of the unit at canonical address a as the apply unit gives them under key slot k. -/
def State.hbmUnit (s : State) (k a : Nat) : List Byte :=
  if k = 0 then s.rawUnit a
  else
    let c := globalCell a
    xtsDecrypt (bytesOf (s.keySlot k).key 64) c.1 (c.2 / 64) (s.rawUnit a)

/-- One byte of HBM under key slot k. -/
def State.hbmGet (s : State) (k a : Nat) : Byte :=
  if k = 0 then s.hbmByte a else (s.hbmUnit k (a / 64 * 64)).getD (a % 64) 0

/-- n bytes of HBM from canonical address a; the caller stays within one 2 KiB granule or within one page. -/
def State.hbmRead (s : State) (k : Nat) (as : List Nat) : List Byte := as.map fun a => s.hbmGet k a

/-- Store 64 bytes from canonical address a. -/
def State.pokeUnit (s : State) (a : Nat) : List Byte → State
  | [] => s
  | b :: l => (s.pokeHbm a b).pokeUnit (a + 1) l

/-- Write one byte of HBM under key slot k: an indivisible read-modify-write of its unit (R149). -/
def State.hbmSet (s : State) (k a : Nat) (b : Byte) : State :=
  if k = 0 then s.pokeHbm a b
  else
    let u := a / 64 * 64
    let c := globalCell a
    s.pokeUnit u (xtsEncrypt (bytesOf (s.keySlot k).key 64) c.1 (c.2 / 64) ((s.hbmUnit k u).set (a % 64) b))

/-- Write bytes of HBM at listed addresses. -/
def State.hbmSets (s : State) (k : Nat) : List (Nat × Byte) → State
  | [] => s
  | (a, b) :: l => (s.hbmSet k a b).hbmSets k l

/-- The stack and the row of it that hold a canonical address (R388). -/
def rowOf (a : Nat) : Nat × Nat := let c := globalCell a; (c.1, Config.hbmRow c.1 c.2)

/-- Whether a physical address is of HBM. -/
def State.inHbm (s : State) (a : Nat) : Bool := match s.locate a with
  | .hbm _ _ => true
  | _ => false

/-- Units that a write covers in whole lose their error mark; their rows of HBM are to be repaired (R388). -/
def State.clearEcc (s : State) (as : List Nat) : State :=
  let whole (u : Nat) : Bool := (List.range 64).all fun i => as.contains (u + i)
  { s with ecc := s.ecc.filter fun u => !whole u, rewritten := (s.rewritten ++ ((s.ecc.filter whole).filter s.inHbm).map rowOf).eraseDups }

/-- An access that meets an uncorrectable error of HBM at one of the addresses is counted in the lifetime records (R3,
R386). -/
def State.noteEcc (s : State) (as : List Nat) : State :=
  match as.find? fun a => s.eccBad a && s.inHbm a with
  | none => s
  | some a =>
    let h := (globalCell a).1
    let e := tabGet (0, 0) s.lifetime.ecc h
    { s with lifetime := { s.lifetime with ecc := tabPut s.lifetime.ecc h (e.1, min (e.2 + 1) 0xFFFFFFFF) } }

/-- Bytes of host memory (R110, R124). -/
def State.hostRead (s : State) (a n : Nat) : List Byte := (List.range n).map fun i => cellRead s.hostMem (a + i)
/-- Place bytes of host memory. -/
def State.hostPoke (s : State) (a : Nat) : List Byte → State
  | [] => s
  | b :: l => ({ s with hostMem := cellWrite s.hostMem a b }).hostPoke (a + 1) l

/-- Bytes of a write cut where the address reaches a multiple of m: address and bytes of each TLP (R153). -/
def cutTlps (m : Nat) : Nat → Nat → List (Option Byte) → List (Nat × List (Option Byte))
  | 0, _, _ => []
  | fuel + 1, a, l =>
    if l.isEmpty then []
    else (a, l.take (m - a % m)) :: cutTlps m fuel (a + (m - a % m)) (l.drop (m - a % m))

/-- A write of the device leaves the port as Memory Write TLPs of at most the Max Payload Size of its function, under its
Requester ID, Relaxed Ordering and ID-Based Ordering clear, and is performed (R124, R153, R160). -/
def State.hostSend (s : State) (fn a : Nat) (data : List (Option Byte)) : State :=
  let u := ((List.range data.length).zip data).foldl (fun (v : State) e => match e.2 with
    | some b => v.hostPoke (a + e.1) [b]
    | none => v) s
  let tlps := cutTlps (128 * 2 ^ fieldNat (s.page fn).devctl 7 5) data.length a data
  { u with hostOut := u.hostOut ++ tlps.map fun e =>
      { fn := fn, addr := e.1, data := e.2, relaxed := false, idOrder := false } }

/-! ### Translation (R134 to R138) -/

/-- Where a virtual address leads: HBM at a canonical address under a key slot, or host memory (R136). -/
inductive Dest
  | hbm (addr key : Nat)
  | host (addr : Nat)
  deriving DecidableEq, Repr

/-- A translation fault: code of R340 and reason of R138. -/
structure TFault where
  code : Nat
  reason : Nat
  deriving DecidableEq, Repr

/-- What an access needs of its page (R72, R73, R74, R145). -/
structure Need where
  r : Bool
  w : Bool
  hbm : Bool
  deriving DecidableEq, Repr

def pteSize (p : W64) : Nat := fieldNat p 62 61
def pteTag (p : W64) : Nat := fieldNat p 46 25
def ptePfn (p : W64) : Nat := fieldNat p 24 0
def pageBytes (size : Nat) : Nat := if size = 0 then 0x10000 else if size = 1 then 0x200000 else 0x40000000

/-- Whether entry p answers probe step d for k, in the order of R136; some true: found. -/
def pteHit (n k va d : Nat) (small : Bool) (p : W64) : Bool :=
  fieldBit p 63 && decide (fieldNat p 60 59 = d) &&
    ((decide (pteSize p = 3) && decide (pteTag p / 32 = k / 2 ^ n))
     || (small && decide (pteSize p = 0) && decide (pteTag p = k / 2 ^ n * 32 + va / 2 ^ 16 % 32))
     || (small && decide (pteSize p = 1) && decide (pteTag p = k / 2 ^ n * 32))
     || (!small && decide (pteSize p = 2) && decide (pteTag p = k / 2 ^ n * 32)))

/-- The result of a probe: an entry, none, or an uncorrectable error at an address. -/
inductive Probe
  | found (p : W64)
  | none
  | ecc (a : Nat)
  deriving DecidableEq, Repr

/-- Bucket number b of a table at ptb, read by plain reads (R134). -/
def State.bucket (s : State) (ptb b : Nat) : List W64 :=
  (List.range 8).map fun e => wordOf 64 ((List.range 8).map fun i => s.hbmByte (s.canon (ptb + 64 * b + 8 * e + i)))

/-- The probe of R136 from distance d on. -/
def State.probe (s : State) (ptb n k va : Nat) (small : Bool) : List Nat → Probe
  | [] => .none
  | d :: ds =>
    let home := Nat.xor k (k / 2 ^ n) % 2 ^ n
    let b := (home + d) % 2 ^ n
    if s.eccBad (s.canon (ptb + 64 * b)) then .ecc (s.canon (ptb + 64 * b))
    else
      let es := s.bucket ptb b
      match es.find? (pteHit n k va d small) with
      | some p => .found p
      | none => if es.any fun p => !fieldBit p 63 then .none else s.probe ptb n k va small ds

/-- The walk of R136: the small pages, then the 1 GiB page. -/
def State.walk (s : State) (asid : W16) (va : Nat) : Probe :=
  let e := s.asidEntry asid
  let n := fieldNat e 57 53
  let ptb := fieldNat e 47 12 * 4096
  match s.probe ptb n (va / 2 ^ 21 % 2 ^ 27) va true [0, 1, 2, 3] with
  | .none => s.probe ptb n (va / 2 ^ 30 % 2 ^ 18 * 512 + 511) va false [0, 1, 2, 3]
  | r => r

/-- A malformed entry: SIZE 3, a misaligned PFN, or IL or KEY with LOC = 1 (R136). -/
def pteMalformed (p : W64) : Bool :=
  decide (pteSize p = 3) || (decide (pteSize p = 1) && decide (ptePfn p % 32 ≠ 0))
    || (decide (pteSize p = 2) && decide (ptePfn p % 16384 ≠ 0))
    || (fieldBit p 58 && (fieldBit p 57 || decide (fieldNat p 54 47 ≠ 0)))

/-- Checks 5 to 7 of R136 on an entry, and the address it forms. -/
def State.applyPte (s : State) (asid : W16) (va : Nat) (need : Need) (p : W64) : Except TFault Dest :=
  let off := va % pageBytes (pteSize p)
  let host := fieldBit p 58
  let hostPa := fieldNat (s.asidEntry asid) 127 80 * 65536 + ptePfn p * 65536 + off
  let pa :=
    if fieldBit p 57 then dieBase + ptePfn p / 2 ^ 22 * dieSlot + ptePfn p % 2 ^ 22 * 65536 + off
    else hbmBase + ptePfn p * 65536 + off
  let reach := s.locate pa
  let inHbm := match reach with
    | .hbm _ _ => true
    | _ => false
  if !host && !inHbm then .error ⟨0x10, 3⟩
  else if need.r && !fieldBit p 55 then .error ⟨0x11, 1⟩
  else if need.w && !fieldBit p 56 then .error ⟨0x11, 2⟩
  else if need.hbm && host then .error ⟨0x11, 3⟩
  else if !host && !s.keyOk (fieldNat p 54 47) asid then .error ⟨0x12, 1⟩
  else if host then .ok (.host hostPa)
  else .ok (.hbm (s.canon pa) (fieldNat p 54 47))

/-- A TLB entry that holds the page of va (R137). -/
def TlbEntry.hits (e : TlbEntry) (asid : W16) (va : Nat) : Bool :=
  decide (e.asid = asid) && decide (e.page = va / pageBytes e.size)

/-- The TLB with one more translation; a full TLB replaces an entry of its own choice (R137, assumption 16). -/
def State.tlbFill (s : State) (t : Nat) (e : TlbEntry) : State :=
  let l := (s.tile t).tlb
  if l.length < 256 then s.modTile t fun x => { x with tlb := l ++ [e] }
  else (s.modTile t fun x => { x with tlb := l.eraseIdx (Config.tlbVictim s.free % 256) ++ [e] }).bumpFree

/-- Translate a virtual address at the copy engine of tile t under an address space (R134, R136): the destination or the
first fault in the order of R136, and the state with the TLB as the translation leaves it. -/
def State.translate (s : State) (t : Nat) (asid : W16) (va : W64) (need : Need) : State × Except TFault Dest :=
  let a := va.toNat
  if 2 ^ 48 ≤ a then (s, .error ⟨0x10, 4⟩)
  else
    match (s.tile t).tlb.find? fun e => e.hits asid a with
    | some e => (s, s.applyPte asid a need e.pte)
    | none =>
      if !s.asidValid asid then (s, .error ⟨0x10, 1⟩)
      else
        match s.walk asid a with
        | .ecc a => (s.noteEcc [a], .error ⟨0x10, 5⟩)
        | .none => (s, .error ⟨0x10, 1⟩)
        | .found p =>
          if pteMalformed p then (s, .error ⟨0x10, 2⟩)
          else
            match s.applyPte asid a need p with
            | .error e => (s, .error e)
            | .ok d => (s.tlbFill t { asid := asid, size := pteSize p, page := a / pageBytes (pteSize p), pte := p }, .ok d)

/-- A destination shifted by i bytes within its page; HBM addresses are canonical, so the granule is followed (R32). -/
def State.destAt (s : State) (d : Dest) (i : Nat) : Dest :=
  match d with
  | .host a => .host (a + i)
  | .hbm a k =>
    -- within a granule the canonical address advances by one a byte; accesses of at most 64 aligned bytes stay inside
    .hbm (s.canon (a + i)) k

/-! ### Vector clocks (R117, R118) -/

/-- The larger of two components in serial arithmetic. -/
def laterComp (a b : W32) : W32 := if (a - b).toNat < 2 ^ 31 then a else b

def Clock.merge (a b : Clock) : Clock := Vector.zipWith laterComp a b

/-- Whether clock f covers clock v in every component (R119). -/
def Clock.covers (f v : Clock) : Bool := (List.range 10).all fun j => decide (((f.toList.getD j 0) - (v.toList.getD j 0)).toNat < 2 ^ 31)

/-- Whether f covers v in every component but j (R118). -/
def Clock.coversBut (f v : Clock) (k : Nat) : Bool :=
  (List.range 10).all fun j => decide (j = k) || decide (((f.toList.getD j 0) - (v.toList.getD j 0)).toNat < 2 ^ 31)

def Clock.at (c : Clock) (j : Nat) : W32 := c.toList.getD j 0
def Clock.setAt (c : Clock) (j : Nat) (v : W32) : Clock := if h : j < 10 then c.set j v else c

def State.dieClock (s : State) (d : Nat) : Clock := tabGet Clock.zero s.dies d
def State.setDieClock (s : State) (d : Nat) (c : Clock) : State := { s with dies := tabPut s.dies d c }

/-- The die merges a clock (R119, R120, R121). -/
def State.mergeDie (s : State) (d : Nat) (c : Clock) : State := s.setDieClock d ((s.dieClock d).merge c)

/-- Hart c of tile t acquires what a clock covers: its die merges it, and the hart's releases follow it (R73, R120). -/
def State.acquire (s : State) (t c : Nat) (k : Clock) : State :=
  (s.mergeDie (s.dieOf t) k).modHart t c fun h => { h with acq := h.acq.merge k }

/-- An engine of context c of tile t has read or acquired what a clock covers: the k.join or k.tlwait that follows acquires it
(R113, R120). -/
def State.keepLeft (s : State) (t c : Nat) (k : Clock) : State :=
  if (s.ctx? t c).isNone then s else s.modCtx t c fun x => { x with left := x.left.merge k }

/-- The die advances its own component by one (R117). -/
def State.tickDie (s : State) (d : Nat) : State :=
  s.setDieClock d ((s.dieClock d).setAt d ((s.dieClock d).at d + 1))

def State.frontier (s : State) (h : Home) : Clock :=
  match s.frontiers.find? fun e => decide (e.1 = h) with
  | some e => e.2
  | none => Clock.zero

def State.setFrontier (s : State) (h : Home) (c : Clock) : State :=
  if s.frontiers.any fun e => decide (e.1 = h) then
    { s with frontiers := s.frontiers.map fun e => if e.1 = h then (h, c) else e }
  else { s with frontiers := s.frontiers ++ [(h, c)] }

/-- The clock a home keeps with a line, if it is among the lines it keeps (R119). -/
def State.lineClock? (s : State) (h : Home) (line : Nat) : Option Clock :=
  (s.lines.find? fun e => decide (e.1 = h) && decide (e.2.1 = line)).map fun e => e.2.2

/-- The line clocks of a home keep the latest 4,096 lines written. A line's clock covers every write whose bytes a read of
it may return: the latest write's is merged with what the line had, or with the frontier where the home kept none (R119;
assumption 78). -/
def State.setLine (s : State) (h : Home) (line : Nat) (c : Clock) : State :=
  let c := ((s.lineClock? h line).getD (s.frontier h)).merge c
  let rest := s.lines.filter fun e => !(decide (e.1 = h) && decide (e.2.1 = line))
  let mine := rest.filter fun e => decide (e.1 = h)
  let rest' := if mine.length < 4096 then rest
    else match mine.getLast? with
      | some o => rest.filter fun e => !(decide (e.1 = h) && decide (e.2.1 = o.2.1))
      | none => rest
  { s with lines := (h, line, c) :: rest' }

/-- The home of a canonical address (R110). -/
def State.homeOf (s : State) (a : Nat) : Home :=
  match s.locate a with
  | .slice t _ => .tile t
  | .hbm h _ => .stack h
  | _ => .host

/-- The die a home lies on (R27, R294); host and pod lie on IO0. -/
def State.homeDie (s : State) : Home → Nat
  | .stack h => h / 3
  | .tile t => s.dieOf t
  | .node d => d
  | _ => 8

/-- The function that owns the launch of a hart (R124, R160). -/
def State.fnOf (s : State) : Option (Nat × Nat) → Nat
  | some (t, c) => s.asidFn (s.asidOf t c)
  | none => 0

/-- Put a message into flight; the answer is the state and the message's number. -/
def State.post (s : State) (m : Msg) : State × Nat :=
  ({ s with net := s.net ++ [{ m with id := s.nextId }], nextId := s.nextId + 1 }, s.nextId)

/-- Whether a message ticks its die: it carries a write, an atomic, a credit, a put or an arrival (R117). -/
def Body.ticks : Body → Bool
  | .write _ _ _ _ | .atomic _ _ _ _ _ _ _ | .count _ _ _ _ _ _ _ | .post _ _ _ _ | .put _ _ _ _ | .credit _ _ _ | .semErr _ _
  | .arrival _ | .retired _ | .sector _ _ => true
  | .fetch _ _ _ | .read _ _ _ _ | .response _ _ | .frontier _ | .completion _ _ _ _ _ => false

/-- Whether a die's component, after one more tick, would lead value v of an unapplied message by 2^30 (R117). -/
def State.leads (s : State) (d : Nat) (v : W32) : Bool :=
  decide (2 ^ 30 ≤ ((s.dieClock d).at d + 1 - v).toNat) && decide (((s.dieClock d).at d - v).toNat < 2 ^ 31)

/-- The unapplied messages that a die's component would come to lead by 2^30 with its next tick: those in flight, and of the
ordering point the routes that are still to be applied (R101, R117). -/
def State.tooFar (s : State) (d : Nat) : List Nat :=
  ((s.net.filter fun m => decide (m.src = d) && m.after.isEmpty && m.body.ticks && s.leads d (m.clock.at d)).map Msg.id)
    ++ if d = 8 then (s.routes.filter fun r => !r.applied && s.leads 8 (r.clock.at 8)).map Route.id else []

/-- A message of a hart, if it has one. -/
def State.newMsg (s : State) (src : Nat) (home : Home) (body : Body) (after : List Nat) (own : Option (Nat × Nat)) (va : W64) :
    Msg :=
  { id := 0, src := src, home := home, clock := s.dieClock src, sent := s.now, after := after, own := own, va := va,
    fn := s.fnOf own, body := body }

/-- Send a message that carries the die's clock without a tick (R117). -/
def State.sendQuiet (s : State) (src : Nat) (home : Home) (body : Body) (after : List Nat) (own : Option (Nat × Nat))
    (va : W64 := 0) : State × Nat :=
  s.post (s.newMsg src home body after own va)

/-- Send a message that ticks its die and carries the clock after the tick; one that must wait, for accesses or for the
die's lead, ticks when it leaves its tile (R73, R117). -/
def State.send (s : State) (src : Nat) (home : Home) (body : Body) (after : List Nat) (own : Option (Nat × Nat))
    (va : W64 := 0) : State × Nat :=
  if (after ++ s.tooFar src).isEmpty then (s.tickDie src).sendQuiet src home body [] own va
  else s.sendQuiet src home body (after ++ s.tooFar src) own va

def State.msg? (s : State) (id : Nat) : Option Msg := s.net.find? fun m => decide (m.id = id)
def State.dropMsg (s : State) (id : Nat) : State := { s with net := s.net.filter fun m => decide (m.id ≠ id) }

/-- A credit of a hart to its own tile, which crosses no mesh (R358). -/
def Msg.isLocal (m : Msg) : Bool := match m.home, m.body, m.own with
  | .tile t, .credit _ _ _, some (u, _) => decide (t = u)
  | _, _, _ => false

/-- Messages that stand in no order: responses and own-tile credits. -/
def Msg.unordered (m : Msg) : Bool := m.isLocal || match m.body with
  | .response _ _ | .completion _ _ _ _ _ => true
  | _ => false

/-- Whether a message carries a write that a clock covers: whoever holds the clock has acquired it (R113, R118). -/
def Msg.coveredBy (m : Msg) (k : Clock) : Bool :=
  m.after.isEmpty && m.body.ticks && !m.unordered && decide ((k.at m.src - m.clock.at m.src).toNat < 2 ^ 31)

/-- The home, the address and the key of a destination. -/
def State.destHome (s : State) (d : Dest) : Home × Nat × Nat :=
  match d with
  | .hbm a k => (s.homeOf a, a, k)
  | .host a => (.host, a, 0)

/-- Whether two scopes of R9 relate a tile and a home: the home lies inside scope sc of tile t (R111). -/
def State.inScope (s : State) (sc t : Nat) (h : Home) : Bool :=
  match h with
  | .host => decide (sc = 6)
  | .pod => decide (5 ≤ sc)
  | .tile u =>
    decide (4 ≤ sc) || decide (t = u)
      || (decide (sc = 3) && decide ((s.dealtOf t).1 = (s.dealtOf u).1))
      || (decide (sc = 2) && decide ((s.dealtOf t).1 = (s.dealtOf u).1) && decide ((s.dealtOf t).2.1 = (s.dealtOf u).2.1))
  | .stack k => decide (4 ≤ sc) || (decide (sc = 3) && decide (k / 3 = (s.dealtOf t).1))
  | .node d => decide (4 ≤ sc) || (decide (sc = 3) && decide (d = (s.dealtOf t).1))

end Sys2Proof.Machine
end

