-- ==== Sys2Proof/Machine/Ops.lean ====
section
/-! DEFINITION. The shared operations of the machine: messages to the host (R161, R364), records in fault queues (R139,
R140), taking an exception or fault (R340 to R345, R353) and the user trap FEMPTY with its return (R84), writes of the
scratchpad with what they disturb (R61, R305), and credits of semaphores (R24). -/

namespace Sys2Proof.Machine

abbrev Out := Host.Outcome State Fault Refusal

/-- Put work in front of what is under way. -/
def State.push (s : State) (l : List Work) : State := { s with micro := l ++ s.micro }

/-! ### MSI-X (R161) -/

/-- Whether the function's vectors are on: MSI-X enabled and the function mask clear, as Message Control in the configuration
space has them (assumption 86). -/
def FnPage.vectorsOn (p : FnPage) : Bool := (tabGet 0 p.config 0x80).getLsbD 31 && !(tabGet 0 p.config 0x80).getLsbD 30

/-- Whether a message of vector v goes out: the function's vectors are on and this one is not masked (R161). -/
def FnPage.sends (p : FnPage) (v : Nat) : Bool := !p.masked.contains v && p.vectorsOn

/-- Fire vector v of function f: the message goes out, or is held as pending while it is masked (R161). -/
def State.msix (s : State) (f v : Nat) : State :=
  s.modPage f fun p =>
    if p.sends v then { p with sent := tabPut p.sent v (tabGet 0 p.sent v + 1) } else { p with pending := insNat v p.pending }

/-! ### The trace ring (R364, R365) -/

/-- What a ring record says of its event, but for TICK, SRC and SEQ. -/
structure RingRec where
  kind : Nat
  id : Nat
  slot : Nat
  pc : Nat
  cause : Nat
  ctx : Nat
  data0 : W64
  data1 : W64

def Cause.code : Cause → Nat
  | .exec => 0 | .predoff => 1 | .nop => 2 | .replay => 3 | .semwait => 4 | .bankfrz => 5 | .spillfrz => 6
  | .starve => 7 | .idle => 8 | .switch => 9 | .loopset => 10 | .drain => 11 | .halt => 12 | .fault => 13
  | .throttle => 14 | .qfull => 15 | .pause => 16 | .fetch => 17

/-- Whether package addresses a to a + n - 1 lie in HBM and, for a virtual function, in one of its ranges (R156, R364). -/
def State.fnReaches (s : State) (f a n : Nat) : Bool :=
  decide (f = 0) || ((List.range 8).any fun i =>
    let b := tabGet 0 (s.page f).rbase i
    let l := tabGet 0 (s.page f).rlim i
    b.getLsbD 0 && decide (b.toNat / 4096 * 4096 ≤ a) && decide (a + n ≤ l.toNat / 4096 * 4096 + 4096))

/-- A record of source t for the ring of function f, if its ring is enabled: a posted, unencrypted write (R364, R365, R371);
WP counts it as it leaves (assumption 79). -/
def State.ring (s : State) (f t : Nat) (r : RingRec) : State :=
  let p := s.page f
  if !p.trcfg.getLsbD 0 then s
  else
    let n := 2 ^ (fieldNat p.trcfg 11 8 + 8)
    let base := fieldNat p.trcfg 47 12 * 4096
    let a := base + 32 * (p.wp.toNat % n)
    if (p.wp - p.rp).toNat = n ∨ !(s.inHbm base && s.inHbm a && s.fnReaches f base 1) then
      s.modPage f fun p => { p with tdrop := if p.tdrop = 0xFFFFFFFF then p.tdrop else p.tdrop + 1 }
    else
      let head : W64 := BitVec.ofNat 4 r.kind ++ BitVec.ofNat 12 r.id ++ BitVec.ofNat 4 r.slot ++ BitVec.ofNat 16 r.pc
        ++ BitVec.ofNat 5 r.cause ++ BitVec.ofNat 3 r.ctx ++ BitVec.ofNat 10 t ++ BitVec.ofNat 10 (s.tile t).seq
      let rec' : BitVec 256 := s.ktime ++ r.data1 ++ r.data0 ++ head
      let s := (s.send (s.dieOf t) (s.homeOf (s.canon a)) (.post (s.canon a) (bytesOf rec' 32) 0 none) [] none).1
      (s.modPage f fun p => { p with wp := p.wp + 1 }).modTile t fun x => { x with seq := x.seq + 1 }

/-! ### Records in a fault queue (R139, R140) -/

/-- What a fault or event record says, but for SEQ, ASID, TILE and CTX; met: the tick of its fault, if that lies back. -/
structure FaultRec where
  arg : W64
  lbmask : W16
  sector : Nat
  va : W64
  wr : Bool
  queue : Nat
  reason : Nat
  code : Nat
  met : Option Nat := none

/-- The 64 bytes of a fault record (R140). -/
def FaultRec.bits (r : FaultRec) (s : State) (t c : Nat) : Rec64 :=
  let x := s.ctx t c
  (0 : BitVec 192) ++ r.arg ++ BitVec.ofNat 64 (r.met.getD s.now) ++ s.asidOf t c ++ r.lbmask ++ BitVec.ofNat 32 r.sector ++ r.va
    ++ BitVec.ofNat 9 t ++ BitVec.ofNat 3 x.num ++ (if r.wr then 1 else 0 : BitVec 1) ++ BitVec.ofNat 3 r.queue
    ++ BitVec.ofNat 8 r.reason ++ BitVec.ofNat 8 r.code ++ x.seq

/-- A posted write of context c of tile t at a destination of a translation, and its number; fn: the function whose vector 0
fires when it is performed (R35, R117, R161). -/
def State.postBytes (s : State) (t c : Nat) (d : Dest) (l : List Byte) (fn : Option Nat) (after : List Nat) : State × Nat :=
  let h := s.destHome d
  s.send (s.dieOf t) h.1 (.post h.2.1 l h.2.2 fn) after (some (t, c))

/-- Whether a slot of the fault queue holds a parked fault that has not been answered (R140). -/
def Ctx.slotHeld (x : Ctx) (slot : Nat) : Bool :=
  x.parkedSeqs.any fun q => decide (q.toNat % 256 = slot) && !x.retryMap.contains q && !x.abortMap.contains q

/-- A record for the fault queue of context c; none where it is lost (R140). The answer carries its SEQ; vector 0 of the
owner fires when the record is written (R161). -/
def State.record (s : State) (t c : Nat) (r : FaultRec) : State × Option W32 :=
  let x := s.ctx t c
  let rec0 := s.recOf t c
  let slot := x.seq.toNat % 256
  let lose (s : State) := (s.modCtx t c fun x => { x with lost := x.lost + 1 }, none)
  if (s.ctx? t c).isNone then (s, none)
  else if x.slotHeld slot then lose s
  else
    let va := BitVec.ofNat 64 (recFqVa rec0 + x.task * 0x4000 + slot * 64)
    match s.translate t (s.asidOf t c) va ⟨false, true, false⟩ with
    | (s, .error _) => lose s
    | (s, .ok d) =>
      let bad := match d with
        | .hbm a _ => s.eccBad a
        | .host _ => false
      if bad then lose s
      else
        let s := (s.postBytes t c d (bytesOf (r.bits s t c) 64) (some (s.asidFn (s.asidOf t c))) []).1
        (s.modCtx t c fun x => { x with seq := x.seq + 1 }, some x.seq)

/-- An event record, if the launch has a fault queue (R98, R340, R355, R370). -/
def State.event (s : State) (t c : Nat) (code reason : Nat) (arg : W64) : State :=
  if (s.ctx? t c).isNone ∨ recFqVa (s.recOf t c) = 0 then s
  else (s.record t c { arg := arg, lbmask := 0, sector := 0, va := 0, wr := false, queue := 6, reason := reason, code := code }).1

/-! ### Items drained into the replay buffer (R345) -/

/-- The first issue cycle that a context stopped now is prevented from using. -/
def Engine.prevented (e : Engine) : Nat := if e.cur.isSome then e.ic + 1 else e.ic

/-- Every item of the context still due goes into its replay buffer, its due cycle as an offset (R345). -/
def State.drainItems (s : State) (t c : Nat) : State :=
  let e := s.engine t
  let mine := e.items.filter fun i => decide (i.ctx = c)
  let n := e.prevented
  let s := s.modEngine t fun e => { e with items := e.items.filter fun i => decide (i.ctx ≠ c) }
  s.modCtx t c fun x => { x with replay := x.replay ++ mine.map fun i => { i with due := i.due - n } }

/-- An overflow access that is under way, or whose access cycle lies before an issue cycle. -/
def Item.overflows (i : Item) (ic : Nat) : Bool := match i.kind with
  | .spillOut _ _ _ _ _ _ _ _ => true
  | .spill _ _ _ _ _ => decide (i.due < ic)
  | _ => false

/-- Whether an overflow access of the context freezes the engine (R213). -/
def State.spilling (s : State) (t c : Nat) : Bool :=
  (s.engine t).items.any fun i => decide (i.ctx = c) && i.overflows (s.engine t).prevented

/-- The engine no longer issues for the context; its hold ends, and an overflow freeze with no overflow access left. -/
def State.leaveTurn (s : State) (t c : Nat) : State :=
  s.modEngine t fun e =>
    let e := if e.turn = some c then { e with turn := none, turnStep := .idle } else e
    let frozen := e.items.any fun i => i.overflows e.prevented
    { e with freezes := e.freezes.filter fun f =>
        !(decide (f.owner = c) && decide (f.cause = Cause.semwait)) && (frozen || decide (f.cause ≠ Cause.spillfrz)) }

/-- The loop buffer no longer holds bundles of the context's run (R283). -/
def State.dropLoop (s : State) (t c : Nat) : State :=
  s.modEngine t fun e => { e with loopBuf := match e.loopBuf with
    | some b => if b.1 = c then none else some b
    | none => none }

/-! ### Hart state at a stop (R99) -/

def State.setX (s : State) (t c : Nat) (r : BitVec 5) (v : W64) : State :=
  if r = 0 then s else s.modHart t c fun h => { h with x := tabPut h.x r.toNat v }

def State.getX (s : State) (t c : Nat) (r : BitVec 5) : W64 := if r = 0 then 0 else tabGet 0 (s.hart t c).x r.toNat

/-- The response to a hart's blocking access that is already on its way (R99: a k.amo performed at its home). -/
def State.pendingResponse (s : State) (t c : Nat) : Option Msg :=
  s.net.find? fun m => match m.body with
    | .response _ dest => decide (dest.tile = t) && decide (dest.ctx = c)
    | _ => false

/-- Whether an access brings a value to a register. -/
def Body.asks : Body → Bool
  | .read _ _ _ _ => true
  | .atomic _ _ _ _ _ _ dest => dest.isSome
  | _ => false

/-- The hart stops at an instruction boundary: a blocking instruction is abandoned with its deadline saved; a k.amo that
was performed at its home is finished first; a read or atomic not yet performed is withdrawn (R99). -/
def State.hartBoundary (s : State) (t c : Nat) : State :=
  match (s.hart t c).wait with
  | none => s.modHart t c fun h => { h with reservation := none }
  | some w =>
    match s.pendingResponse t c with
    | some m =>
      match m.body, w.instr with
      | .response (some v) dest, .kAmoW _ _ _ _ _ _ | .response (some v) dest, .kAmoD _ _ _ _ _ _ =>
        let s := (s.acquire t c m.clock).dropMsg m.id
        let s := s.setX t c dest.rd v
        s.modHart t c fun h => { h with wait := none, reservation := none, pc := h.pc + BitVec.ofNat 64 w.len }
      | _, _ => (s.dropMsg m.id).modHart t c fun h =>
        { h with wait := none, reservation := none, abandoned := true, savedDeadline := w.deadline }
    | none =>
      let mine (m : Msg) : Bool := match m.body with
        | .read _ _ _ dest => decide (dest.tile = t) && decide (dest.ctx = c)
        | .atomic _ _ _ _ _ _ (some dest) => decide (dest.tile = t) && decide (dest.ctx = c)
        | _ => false
      let s := if w.what = .load then { s with net := s.net.filter fun m => !mine m } else s
      let parked := ((s.ctx t c).parkedHart.filter fun p => p.msg.asks).map fun p => p.id
      s.modHart t c fun h =>
        { h with wait := none, reservation := none, abandoned := true, savedDeadline := w.deadline,
                 outst := h.outst.filter fun id => !parked.contains id }

/-! ### Stops (R341 to R344, R353, R354) -/

/-- A stop record of the context now, but for what the fault names (R344). -/
def State.stopRec (s : State) (t c code : Nat) : Stop :=
  { tick := s.now, arg := 0, addr := 0, word := 0, pc := 0, asid := s.asidOf t c, tile := t, ctx := (s.ctx t c).num,
    baddr := 0, slot := 0, done := 0, reason := 0, code := code, sec := false, late := false, src := 0 }

/-- The bit of CATCH that covers a stop code (R373). -/
def catchBit (code : Nat) : Option Nat :=
  if 1 ≤ code ∧ code ≤ 0x14 then some code
  else if 0x40 ≤ code ∧ code ≤ 0x48 then some (code - 0x40 + 32)
  else if code = 0x30 then some 48
  else none

/-- Whether the context's debugger has asked to catch the code (R341). -/
def Debug.catches (d : Debug) (code : Nat) : Bool :=
  d.attached && match catchBit code with
    | some b => d.catchMask.getLsbD b
    | none => false

/-- The context halts: its hart and bundle context stop at their boundaries, its items go into the replay buffer, a halt
record is written; during an overflow freeze its hart stops now and the rest follows the freeze (R213, R374). -/
def State.haltNow (s : State) (t c code slot : Nat) (caught : Bool) : State :=
  if s.spilling t c then
    (s.hartBoundary t c).modDbg t c fun d =>
      { d with hh := true, haltReq := true, stepping := none, pend := some (code, slot, caught) }
  else
    let s := s.drainItems t c
    let s := s.leaveTurn t c
    let s := s.hartBoundary t c
    let s := s.modDbg t c fun d =>
      { d with eh := true, hh := true, haltReq := false, stepping := none, pend := none, caught := caught, code := code, slot := slot }
    s.push [.haltRecord t c]

/-- A fatal stop: the context freezes at once, its items drain, sessions it opened close, an event record is written
(R148, R353); during its dump the stop is the secondary one (R354). -/
def State.fatal (s : State) (t c : Nat) (r : Stop) : State :=
  let x := s.ctx t c
  if (s.ctx? t c).isNone then s
  else if x.st = .dumping then
    if x.secn = 0 then s.modCtx t c fun x => { x with secondary := some { r with sec := true }, secn := 1 }
    else s.modCtx t c fun x => { x with secn := 2 }
  else if x.st = .faulted ∨ x.st = .quarantined then s
  else
    let s := s.drainItems t c
    let s := (s.leaveTurn t c).dropLoop t c
    let s := s.hartBoundary t c
    let s := { s with sessions := s.sessions.filter fun n => decide (n.owner ≠ (t, c)) }
    let s := s.modCtx t c fun x =>
      { x with st := .faulted, lastCode := r.code, stop := some r, departed := false,
               dbg := { x.dbg with eh := false, hh := false, haltReq := false, pend := none } }
    s.event t c r.code 0 0

/-- Take a stop: the context halts if its debugger catches the code, or if it is a breakpoint or watchpoint; else the stop
is fatal (R341). The instruction or slot that stops has no effect (R343); a bundle that stops is reissued on resume with
its done slots replaced by no-operations (R342). -/
def State.takeStop (s : State) (t c : Nat) (r : Stop) : State :=
  let armed := r.code = 0x0B ∨ r.code = 0x0C ∨ (r.code = 0x43 ∧ (s.ctx t c).dbg.attached)
  if armed ∨ (s.ctx t c).dbg.catches r.code then
    let s := s.modCtx t c fun x => { x with stop := some r }
    -- a stop of the hart leaves the reissue that a breakpoint's halt is owed (R375)
    let s := if r.src = 0 ∧ !r.late then
        s.modCtx t c fun x => { x with reissue := some (r.baddr, r.done), dbg := { x.dbg with skip := decide (r.code = 0x0B) } }
      else s
    s.haltNow t c r.code r.slot (decide (¬ armed))
  else s.fatal t c r

/-- Charge slots to a cause, an owner (8: none) and a program counter. -/
def State.charge (s : State) (t : Nat) (slots : List Nat) (cause : Cause) (owner pc : Nat) : State :=
  s.modTile t fun x =>
    { x with charges := slots.foldl (fun l n => tabPut l n { owner := owner, cause := cause, pc := pc }) x.charges }

/-- The stop record of an exception of the control core: cause, trapped value and pc (R61, R344). -/
def State.hartStop (s : State) (t c cause : Nat) (tval : W64) (word : W32) : Stop :=
  { s.stopRec t c (0x40 + cause) with
    arg := tval, addr := if 4 ≤ cause ∧ cause ≤ 7 then tval else 0, word := word, pc := (s.hart t c).pc, src := 1 }

/-- The bytes of the instruction memory at a pc, as a word; beyond 64 KiB they read as zero (R61). -/
def State.fetchWord (s : State) (t pc : Nat) : W32 :=
  wordOf 32 ((List.range 4).map fun i => if pc + i < 0x10000 then cellRead (s.tile t).imem (pc + i) else 0)

/-- The word of the instruction at the hart's pc: 16 bits of a compressed one (R61, R344). -/
def State.pcWord (s : State) (t c : Nat) : W32 :=
  let w := s.fetchWord t (s.hart t c).pc.toNat
  if w.extractLsb' 0 2 = 3#2 then w else w &&& 0xFFFF

/-- TAKING AN EXCEPTION of the control core: cause, tval. Before any effect of the instruction (R343). -/
def State.raise (s : State) (t c cause : Nat) (tval : W64) : State :=
  let r := s.hartStop t c cause tval (s.pcWord t c)
  let x := s.ctx t c
  let s := s.charge t [8] (if (cause = 3 ∧ x.dbg.attached) ∨ x.dbg.catches r.code then .halt else .fault) x.num (x.hart.pc.toNat)
  s.takeStop t c r

/-- An illegal instruction: cause 2 with the word (R68). -/
def State.illegal (s : State) (t c : Nat) : State := s.raise t c 2 ((s.pcWord t c).setWidth 64)

/-- The user trap FEMPTY (R84). -/
def State.takeFempty (s : State) (t c : Nat) (addr : W64) : State :=
  s.modHart t c fun h => { h with fepc := h.pc, faddr := addr, fin := true, pc := h.fhandler }

/-- The return from the handler of FEMPTY (R84). -/
def State.returnFempty (s : State) (t c : Nat) : State :=
  s.modHart t c fun h => { h with fin := false, pc := h.fepc }

/-! ### Parking faults (R139, R140) -/

/-- A parking fault: its record is written and its SEQ kept; with no fault queue, or when the record is lost, the fault is
fatal. -/
def State.park (s : State) (t c : Nat) (r : FaultRec) (src : Nat) : State × Option W32 :=
  let stop := { s.stopRec t c r.code with
    addr := r.va, reason := r.reason, src := src, pc := if src = 1 then (s.hart t c).pc else 0,
    word := if src = 1 then s.pcWord t c else 0 }
  if recFqVa (s.recOf t c) = 0 then (s.takeStop t c stop, none)
  else
    match s.record t c r with
    | (s, some q) => (s.modCtx t c fun x => { x with parkedSeqs := x.parkedSeqs ++ [q] }, some q)
    | (s, none) => (s.fatal t c stop, none)

/-- CDATA met by an access of a hart or by a sector: a record and the context goes on; without a fault queue it is a stop (R3,
R72, R341, R344). -/
def State.cdata (s : State) (t c : Nat) (arg : W64) (queue sector : Nat) (va : W64) (wr : Bool) : State :=
  if (s.ctx? t c).isNone then s
  else if recFqVa (s.recOf t c) = 0 then
    s.takeStop t c { s.stopRec t c 0x13 with
      addr := va, src := if queue = 4 then 1 else 2, pc := if queue = 4 then (s.hart t c).pc else 0,
      word := if queue = 4 then s.pcWord t c else 0 }
  else
    (s.record t c { arg := arg, lbmask := 0, sector := sector, va := va, wr := wr, queue := queue, reason := 0, code := 0x13 }).1

/-! ### Writes of the scratchpad (R61, R305) -/

/-- A write of tile t's bytes [a, a + n) takes the reservation of every hart of the tile on those lines, but hart by's own
(R61). -/
def State.breakReservations (s : State) (t a n : Nat) (by' : Option Nat) : State :=
  s.modTile t fun x => { x with ctxs := x.ctxs.map fun e =>
    (e.1, match e.2.hart.reservation with
      | some l => if lineOf a ≤ l ∧ l ≤ lineOf (a + n - 1) ∧ by' ≠ some e.1 then
          { e.2 with hart := { e.2.hart with reservation := none } } else e.2
      | none => e.2) }

/-- Whether a write to [a, a + n) meets operand bytes of an open window (R305). -/
def hitsReads (reads : List (Nat × Nat)) (a n : Nat) : Bool := reads.any fun r => decide (a < r.1 + r.2) && decide (r.1 < a + n)

def ItemKind.taint (a n : Nat) : ItemKind → ItemKind
  | .window g acc reads tainted => .window g acc reads (tainted || hitsReads reads a n)
  | k => k

/-- The index words of a gather at the bytes [a, a + n) of its tile that are no longer what they were at its issue have changed
(R129). -/
def State.taintEntry (s : State) (t a n : Nat) (e : Entry) : Entry :=
  if e.idx.isEmpty then e
  else
    let at' (i : Nat) : Nat := fieldNat e.packet 469 448 + 4 * i
    let l := (List.range e.idx.length).filter fun i => decide (at' i < a + n) && decide (a < at' i + 4)
      && decide (natOfBytes (s.localBytes t (at' i) 4) ≠ e.idx.getD i 0)
    { e with changed := (e.changed ++ l).eraseDups }

/-- What a write to bytes [a, a + n) of its tile disturbs in a context: the windows of its replay buffer, the index words of
its gathers (R129, R319). -/
def State.taintCtx (s : State) (t a n : Nat) (x : Ctx) : Ctx :=
  { x with replay := x.replay.map fun i => { i with kind := i.kind.taint a n },
           chans := x.chans.map fun q => (q.1, q.2.map (s.taintEntry t a n)) }

/-- A write of the scratchpad marks the open windows and the saved ones whose operand bytes it meets, and the index words of
gathers that it changes (R129, R305, R319). -/
def State.taintWindows (s : State) (t a n : Nat) : State :=
  s.modTile t fun x => { x with
    engine := { x.engine with items := x.engine.items.map fun i => { i with kind := i.kind.taint a n } },
    ctxs := x.ctxs.map fun e => (e.1, s.taintCtx t a n e.2) }

/-- Write bytes of tile t's scratchpad, not of its semaphore block: by is the hart that writes, if a hart of the tile
does. -/
def State.writeLocal (s : State) (t a : Nat) (l : List Byte) (by' : Option Nat) : State :=
  ((s.pokeLocals t a l).breakReservations t a l.length by').taintWindows t a l.length

/-! ### Semaphores (R24, R25) -/

/-- The loop of R24: generations while COUNT reaches TARGET; fuel bounds the number of generations of one credit. -/
def Sem.advance : Nat → Nat → Nat → W16 → Nat → Nat × W16 × Nat
  | 0, _, count, gen, adv => (count, gen, adv)
  | n + 1, target, count, gen, adv =>
    if target ≠ 0 ∧ target ≤ count then Sem.advance n target (count - target) (gen + 1) (adv + 1) else (count, gen, adv)

/-- Generations in closed form: the result of the loop of R24 for any TARGET (COUNT div TARGET generations). -/
def Sem.generations (target count : Nat) (gen : W16) : Nat × W16 × Nat :=
  if target = 0 then (count, gen, 0) else (count % target, gen + BitVec.ofNat 16 (count / target), count / target)

/-- A credit of v units under R24. -/
def Sem.credit (x : Sem) (v : Nat) : Sem :=
  let sum := x.count.toNat + v
  let sat := decide (0xFFFFFFFF < sum)
  let r := Sem.generations x.target.toNat (if sat then 0xFFFFFFFF else sum) x.gen
  { x with count := BitVec.ofNat 32 r.1, gen := r.2.1, err := x.err || sat,
           overshot := x.overshot || decide (2 ≤ r.2.2 ∨ (r.2.2 = 1 ∧ r.1 ≠ 0)) }

/-- A store of TARGET under R24: generations advance at once, OVERSHOOT is never set. -/
def Sem.store (x : Sem) (target : W32) : Sem :=
  let r := Sem.generations target.toNat x.count.toNat x.gen
  { x with target := target, count := BitVec.ofNat 32 r.1, gen := r.2.1 }

/-- sarm.z: COUNT, ERR and OVERSHOOT cleared, then TARGET stored (R77). -/
def Sem.rearm (x : Sem) (target : W32) : Sem := { x with count := 0, err := false, overshot := false }.store target

/-- The test of R79 and R216 against an awaited generation. -/
def Sem.reached (x : Sem) (want : W16) : Bool := decide ((x.gen - want).toNat < 32768)

/-- A semaphore of a tile changes: the harts' reservations on its line are lost (R61). -/
def State.modSem (s : State) (t g : Nat) (f : Sem → Sem) : State :=
  (s.setSem t g (f (s.sem t g))).breakReservations t (semBase + 64 * g) 64 none

/-- A credit applied at its tile, carrying a clock (R24, R120). -/
def State.creditSem (s : State) (t g v : Nat) (k : Clock) : State :=
  s.modSem t g fun x => { x.credit v with clock := x.clock.merge k }

/-- A store to TARGET of the rest of one entry (R24). -/
def State.armSem (s : State) (t g : Nat) (target : W32) (zero : Bool) : State :=
  s.modSem t g fun x => if zero then x.rearm target else x.store target

/-! ### Owners, commands, queues -/

/-- Whether function f owns the address space of context k of tile t (R160, R346). -/
def State.owns (s : State) (f t k : Nat) : Bool :=
  (s.ctx? t k).isSome && s.asidValid (s.asidOf t k) && decide (s.asidFn (s.asidOf t k) = f)

/-- The oldest command of R346 of a page. -/
def FnPage.ctl? (p : FnPage) : Option W64 := p.cmds.findSome? fun c => match c with
  | .ctl w => some w
  | .debug _ _ _ => none

def cmdOp (w : W64) : Nat := fieldNat w 63 62
def cmdArea (w : W64) : Nat := fieldNat w 59 24 * 4096
def cmdKill (w : W64) : Bool := fieldBit w 23
def cmdCtx (w : W64) : Nat := fieldNat w 11 9
def cmdTile (w : W64) : Nat := fieldNat w 8 0
def cmdReserved (w : W64) : Bool := decide (fieldNat w 61 60 ≠ 0) || decide (fieldNat w 22 12 ≠ 0)

/-- Whether a command of a function page pre-empts context c of tile t: the pre-emption is in progress (R333, R347). -/
def State.preempting (s : State) (t c : Nat) : Bool :=
  s.pages.any fun p => match p.2.ctl? with
    | some w => decide (cmdOp w = 1) && !cmdReserved w && decide (cmdTile w = t) && decide (cmdCtx w = (s.ctx t c).num) && s.owns p.1 t c
    | none => false

def Ctx.count (x : Ctx) (q : Nat) : Counts := tabGet Counts.reset x.counts q
def Ctx.setCount (x : Ctx) (q : Nat) (k : Counts) : Ctx := { x with counts := tabPut x.counts q k }
def Ctx.chan (x : Ctx) (q : Nat) : List Entry := tabGet [] x.chans q
def Ctx.setChan (x : Ctx) (q : Nat) (l : List Entry) : Ctx := { x with chans := tabPut x.chans q l }

/-- The index words that a gather's packet names on tile t (R127, R129). -/
def State.indexWords (s : State) (t : Nat) (p : Rec64) : List Nat :=
  if fieldNat p 3 0 = 2 then
    (List.range (fieldNat p 227 216 + 1)).map fun i => natOfBytes (s.localBytes t (fieldNat p 469 448 + 4 * i) 4)
  else []

/-- Entries of queue q: copy channels 0 to 3, run queue 4, stack queue 5 (R86). -/
def Ctx.occ (x : Ctx) (q : Nat) : Nat := if q = 4 then x.runs.length else (x.chan q).length
def queueSize (q : Nat) : Nat := if q < 4 then 32 else 16

/-- Counts after an entry has entered (R86). -/
def Counts.enter (k : Counts) (inc : W64) : Counts := { k with issued := k.issued + 1, tlsum := k.tlsum + inc }

/-- Counts after an entry has left (R86). -/
def Counts.leave (k : Counts) (inc : W64) : Counts := { k with retired := k.retired + 1, timeline := k.timeline + inc }

/-- Run a function on a context that must be there. -/
def State.withCtx (s : State) (t c : Nat) (f : Ctx → Out) : Out :=
  match s.ctx? t c with
  | some x => f x
  | none => .fault .noContext

/-- Put independent work behind the waiting work. -/
def State.later (s : State) (l : List Work) : State := { s with agenda := s.agenda ++ l }

/-- A row done for a tile and a context. -/
def rowAt (i : Instr) (t c : Nat) : Work := .row i { tile := t, ctx := c, slot := 0, len := 4, fn := 0 }

/-- A row done for a function page. -/
def rowFn (i : Instr) (f : Nat) : Work := .row i { tile := 0, ctx := 0, slot := 0, len := 4, fn := f }

end Sys2Proof.Machine
end

