-- ==== Sys2Proof/Machine/Operands.lean ====
section
/-! DEFINITION. Every operand form: the sources and destinations of a bundle slot (R175 to R181), the addresses of a memory
slot (R207, R209 to R212), the references of the control core (R71), and what each slot instruction uses, from which the
checks at issue are made (R176, R179, R182, R185, R188). -/

namespace Sys2Proof.Machine

/-! ### Lanes and masks -/

/-- The 128 lanes whose lane i is f i. -/
def lanesOf (f : Nat → W32) : Lanes := ⟨((List.range 128).map f).toArray, by simp⟩

/-- Lane i. -/
def laneAt (l : Lanes) (i : Nat) : W32 := l.toArray.getD i 0

def Lanes.zero : Lanes := lanesOf fun _ => 0

/-- The lanes of new in the mask, of old elsewhere. -/
def laneMerge (mask : Mask) (new old : Lanes) : Lanes :=
  lanesOf fun i => if mask.getLsbD i then laneAt new i else laneAt old i

def Mask.full : Mask := BitVec.allOnes 128

/-- The mask whose bit i is f i. -/
def maskOf (f : Nat → Bool) : Mask :=
  BitVec.ofNat 128 ((List.range 128).foldl (fun acc i => acc + (if f i then 2 ^ i else 0)) 0)

/-- Lanes of a mask in ascending order. -/
def lanesIn (m : Mask) : List Nat := (List.range 128).filter fun i => m.getLsbD i

/-! ### The slot that issues -/

/-- The run whose bundles issue: started, and not all of them issued. -/
def Ctx.curRun? (x : Ctx) : Option RunEntry := x.runs.find? fun e => e.started && !e.issued

/-- What a slot sees at its issue. -/
structure Env where
  t : Nat
  c : Nat
  n : Nat
  x : Ctx
  e : Engine
  r : LaunchRec
  baddr : Nat
  word : W32
  fpcw : W32
  run : Nat
  rot : Bool
  free : Nat

/-- The bundle that issues for context c, its address; 0 when none does. -/
def Engine.baddrOf (e : Engine) (c : Nat) : Nat :=
  match e.cur with
  | some (d, b) => if d = c then b else 0
  | none => 0

/-- The word of slot n of bundle b in the bundle memory of tile t (R170). -/
def State.slotWord (s : State) (t b n : Nat) : W32 :=
  wordOf 32 ((List.range 4).map fun i => cellRead (s.tile t).bmem (32 * b + 4 * n + i))

def State.env (s : State) (t c n : Nat) : Env :=
  let x := s.ctx t c
  let e := s.engine t
  let b := e.baddrOf c
  let run := x.curRun?
  { t := t, c := c, n := n, x := x, e := e, r := s.recOf t c, baddr := b, word := s.slotWord t b n,
    fpcw := match run with
      | some q => q.fpcw
      | none => 0,
    run := match run with
      | some q => q.ord
      | none => 0,
    rot := match run with
      | some q => fieldBit q.desc 64
      | none => false,
    free := s.free }

/-! ### The shadow of landings of an earlier segment (R180) -/

/-- Whether a landing writes a target. -/
def ItemKind.hits (tgt : Target) : ItemKind → Bool
  | .vec u _ _ _ _ => decide (u = tgt)
  | .pred n _ _ _ => decide (tgt = .p n)
  | .scalar u _ _ => decide (u = tgt)
  | .flag n _ => decide (tgt = .k n)
  | .addr n _ => decide (tgt = .a n)
  | .load u _ _ _ _ => decide (u = tgt)
  | .spill _ _ _ u isFill | .spillOut _ _ _ _ _ u isFill _ => isFill && decide (u = tgt)
  | _ => false

/-- A landing of an earlier segment still due on a target; reading its register gives the old or the new value (R180). -/
def Env.shadow (v : Env) (tgt : Target) : Option Item :=
  v.e.items.find? fun i => decide (i.ctx = v.c) && decide (i.seg ≠ v.x.bun.seg) && i.kind.hits tgt

/-- Whether some landing of an earlier segment is still due. -/
def Env.shadowed (v : Env) : Bool := v.e.items.any fun i => decide (i.ctx = v.c) && decide (i.seg ≠ v.x.bun.seg)

/-- Which value a read of register number key in a shadow gives: true, the new one. -/
def Env.seesNew (v : Env) (key : Nat) : Bool := Config.shadowNew (v.free * 1024 + key)

/-- The lanes a pending result gives a register that holds old lanes; a load or fill whose access is still to be made gives
none yet (R180; assumption 12). -/
def Item.incoming (i : Item) (old : Lanes) : Lanes :=
  match i.kind with
  | .vec _ mask data _ _ => laneMerge mask data old
  | _ => old

/-! ### Vector operands (R175, R176, R178) -/

/-- The window register a specifier names under the rotating base (R176). -/
def Env.reg (v : Env) (n : Nat) : Nat :=
  if v.rot ∧ 64 ≤ n then 64 + (n - 64 + v.x.bun.loop.rrb) % 32 else n

/-- The register a writable specifier names. -/
def Env.target (v : Env) (spec : BitVec 7) : Target :=
  let n := spec.toNat
  if n < 96 then .v (v.reg n) else if n < 104 then .o (n - 96) else .latchOnly

def Bun.vreg (b : Bun) (n : Nat) : Lanes := tabGet Lanes.zero b.v n
def Bun.oreg (b : Bun) (n : Nat) : Lanes := tabGet Lanes.zero b.o n

/-- The lanes of a register, in the shadow of an earlier segment's landing perhaps the new ones. -/
def Env.register (v : Env) (tgt : Target) (key : Nat) (old : Lanes) : Lanes :=
  match v.shadow tgt with
  | none => old
  | some i =>
    if v.seesNew key then i.incoming old else old

/-- A last-result latch as a vector source (R178): zero until its slot lands a result in this segment. -/
def Env.latch (v : Env) (n : Nat) : Lanes :=
  match tabGet? v.x.bun.latch n with
  | none => Lanes.zero
  | some l =>
    if l.seg ≠ v.x.bun.seg then Lanes.zero
    else if n < 2 then lanesOf fun _ => l.wide.setWidth 32
    else l.lanes

/-- The value of lc0: 0 in the prologue, k in the kernel, the iterations made in the epilogue (R281). -/
def Env.lc (v : Env) (l : Nat) : Nat :=
  if l = 0 then v.x.bun.loop.k else v.x.bun.loop.idx.getD (l - 1) 0

/-- The 128 lanes of a source specifier (R175). -/
def Env.vec (v : Env) (spec : BitVec 7) : Lanes :=
  let n := spec.toNat
  if n < 96 then v.register (.v (v.reg n)) (v.reg n) (v.x.bun.vreg (v.reg n))
  else if n < 104 then v.register (.o (n - 96)) n (v.x.bun.oreg (n - 96))
  else if n < 112 then v.latch (n - 104)
  else match n with
    | 0x70 => lanesOf fun i => BitVec.ofNat 32 i
    | 0x72 => lanesOf fun i => BitVec.ofNat 32 (i / 16)
    | 0x73 => lanesOf fun i => BitVec.ofNat 32 (i % 16)
    | 0x74 => lanesOf fun _ => 0x3F800000
    | 0x75 => lanesOf fun _ => 1
    | 0x76 => lanesOf fun _ => 0xFFFFFFFF
    | 0x77 => lanesOf fun _ => BitVec.ofNat 32 v.t
    | 0x78 => lanesOf fun _ => BitVec.ofNat 32 (v.lc 0)
    | 0x79 => lanesOf fun _ => BitVec.ofNat 32 (v.lc 1)
    | 0x7A => lanesOf fun _ => BitVec.ofNat 32 (v.lc 2)
    | 0x7B => lanesOf fun _ => BitVec.ofNat 32 (v.lc 3)
    | 0x7C => lanesOf fun _ => BitVec.ofNat 32 (v.lc 4)
    | 0x7D => lanesOf fun _ => BitVec.ofNat 32 (v.lc 5)
    | _ => Lanes.zero

/-- Lane i of a source. -/
def Env.src (v : Env) (spec : BitVec 7) (i : Nat) : W32 := laneAt (v.vec spec) i

/-! ### Predicates, scalars, flags, address registers (R177) -/

/-- Predicate p: p0 is true in every lane. -/
def Bun.pred (b : Bun) (p : Nat) : Mask := if p = 0 then Mask.full else tabGet 0 b.p p

def Env.pred (v : Env) (p : BitVec 4) : Mask :=
  let old := v.x.bun.pred p.toNat
  match v.shadow (.p p.toNat) with
  | some i =>
    match i.kind with
    | .pred _ mask bits _ => if v.seesNew (128 + p.toNat) then (old &&& ~~~mask) ||| (bits &&& mask) else old
    | _ => old
  | none => old

/-- s register: s0 reads zero. -/
def Bun.sreg (b : Bun) (n : Nat) : W64 := if n = 0 then 0 else tabGet 0 b.s n

def Env.s (v : Env) (n : BitVec 6) : W64 :=
  let old := v.x.bun.sreg n.toNat
  if n = 0 then 0
  else match v.shadow (.s n.toNat) with
    | some i =>
      match i.kind with
      | .scalar _ val _ => if v.seesNew (256 + n.toNat) then val else old
      | _ => old
    | none => old

/-- k flag: k0 is true. -/
def Bun.kflag (b : Bun) (n : Nat) : Bool := decide (n = 0) || b.k.getLsbD n

def Env.k (v : Env) (n : BitVec 3) : Bool :=
  let old := v.x.bun.kflag n.toNat
  match v.shadow (.k n.toNat) with
  | some i =>
    match i.kind with
    | .flag _ val => if v.seesNew (384 + n.toNat) then val else old
    | _ => old
  | none => old

def Bun.areg (b : Bun) (n : Nat) : W32 := tabGet 0 b.a n

def Env.a (v : Env) (n : BitVec 4) : W32 :=
  let old := v.x.bun.areg n.toNat
  match v.shadow (.a n.toNat) with
  | some i =>
    match i.kind with
    | .addr _ val => if v.seesNew (448 + n.toNat) then val else old
    | _ => old
  | none => old

/-! ### What a slot instruction uses -/

/-- What stands before an instruction: nothing, a flag, a predicate, or a predicate's lane 0 (R181). -/
inductive Guard
  | always
  | flag (k : BitVec 3)
  | mask (p : BitVec 4)
  | lane0 (p : BitVec 4)
  deriving DecidableEq, Repr

/-- A destination as it is encoded. -/
inductive Dst
  | none
  | v (spec : BitVec 7)
  | p (n : BitVec 4)
  | s (n : BitVec 6)
  | k (n : BitVec 3)
  | a (n : BitVec 4)
  | acc (code : BitVec 5)
  deriving DecidableEq, Repr

/-- Sources read by specifier, destination and its latency, accumulator named, what stands before it, and whether it draws
random bits. -/
structure Use where
  srcs : List (BitVec 7)
  dst : Dst
  lat : Nat
  acc : Option (BitVec 5)
  guard : Guard
  sr : Bool

def Use.plain : Use := { srcs := [], dst := .none, lat := 0, acc := none, guard := .always, sr := false }

def useSR (g : SR) (lat : Nat) : Use := { Use.plain with dst := .s g.sd, lat := lat, guard := .flag g.kc }
def useSC (kc kd : BitVec 3) : Use := { Use.plain with dst := .k kd, lat := 1, guard := .flag kc }
def useS (kc : BitVec 3) (sd : BitVec 6) : Use := { Use.plain with dst := .s sd, lat := 1, guard := .flag kc }
def useV (pr : BitVec 4) (d : BitVec 7) (srcs : List (BitVec 7)) (lat : Nat) : Use :=
  { Use.plain with srcs := srcs, dst := .v d, lat := lat, guard := .mask pr }
def useP (pr pd : BitVec 4) (srcs : List (BitVec 7)) (lat : Nat) : Use :=
  { Use.plain with srcs := srcs, dst := .p pd, lat := lat, guard := .mask pr }
def useAcc (a : BitVec 5) : Use := { Use.plain with dst := .acc a, acc := some a }

/-- What each slot instruction uses, with the latencies of R187, R188, R190, R191. -/
def useOf : Instr → Use
  | .add g | .sub g => useSR g 1
  | .mul g | .mulh g | .mulhn g => useSR g 3
  | .and g | .or g | .xor g | .andn g | .shl g | .shr g | .sra g | .rotl g | .min g | .max g | .minn g | .maxn g => useSR g 1
  | .clz g | .popc g => useS g.kc g.sd
  | .sel g => { useSR g 1 with guard := .always }
  | .addi g | .movhi g | .andI g | .orI g | .xorI g => useS g.kc g.sd
  | .movi g | .smov g => useS g.kc g.sd
  | .shlI g | .shrI g | .sraI g | .rotlI g => useS g.kc g.sd
  | .ceq g | .cne g | .clt g | .cle g | .cltn g | .clen g => useSC g.kc g.kd
  | .ceqI g | .cneI g | .cltI g | .cleI g | .cltnI g | .clenI g => useSC g.kc g.kd
  | .kand g | .kor g | .kxor g => useSC g.kc g.kd
  | .aset kc ad _ _ | .aadd kc ad _ => { Use.plain with dst := .a ad, lat := 1, guard := .flag kc }
  | .aget kc sd _ => useS kc sd
  | .bbc kc _ => { Use.plain with guard := .flag kc }
  | .fadd g | .fsub g => useV g.pr g.d [g.a, g.b] 4
  | .fmul g => useV g.pr g.d [g.a, g.b] 5
  | .fma g | .fms g | .fnma g | .fnms g => useV g.pr g.d [g.a, g.b, g.d] 5
  | .fmin g | .fmax g | .fminn g | .fmaxn g => useV g.pr g.d [g.a, g.b] 4
  | .fceq g | .fclt g | .fcle g | .fcun g => useP g.pr g.pd [g.a, g.b] 4
  | .fclass g => useV g.pr g.d [g.a] 4
  | .vaddI32 g | .vsubI32 g | .vmulI32 g | .vand g | .vor g | .vxor g | .vandn g | .vshl g | .vshr g | .vsra g
  | .vminI32 g | .vmaxI32 g | .vminN32 g | .vmaxN32 g | .perm g => useV g.pr g.d [g.a, g.b] 2
  | .vceqI32 g | .vcltI32 g | .vcltN32 g => useP g.pr g.pd [g.a, g.b] 2
  | .vmov g => useV g.pr g.d [g.a] 2
  | .vmovi g => useV g.pr g.d [] 2
  | .vbcs g => useV g.pr g.d [] 2
  | .vsel g => { useV g.pr g.d [g.a, g.b] 2 with guard := .always }
  | .pack g => useV g.pr g.d [g.a, g.b] 3
  | .unpack g => useV g.pr g.d [g.a] 3
  | .bcl g => useV g.pr g.d [g.a] 2
  | .xcl g => useV g.pr g.d [g.a] 4
  | .vredAddF g => useV g.pr g.d [g.a] 10
  | .vredMaxF g | .vredAddI32 g => useV g.pr g.d [g.a] 6
  | .part g => useV g.pr g.d [g.a] 12
  | .pand g | .por g | .pxor g | .pandn g => useP g.pr g.pd [] 2
  | .ppop g => useV g.pr g.d [] 2
  | .cvt g => { useV g.pr g.d [g.a] 3 with sr := decide (g.rnd = 5) }
  | .rsqa g | .rcpa g | .exp2a g | .log2a g | .sina g | .cosa g | .tanha g => useV g.pr g.d [g.a] 8
  | .mma g | .mmaAcc g => useAcc g.acc
  | .mzero a => useAcc a
  | .mdrain g => { Use.plain with acc := some g.acc, sr := decide (g.rnd = 5) }
  | .rstat g => { Use.plain with dst := .v g.d, lat := 40, acc := some g.acc }
  | .vld g | .vldB g => useV g.pr g.dm [] 6
  | .vldS g => useV g.pr g.dm [] 6
  | .vldx g => useV g.pr g.dm [g.vi] 8
  | .vst g => { Use.plain with srcs := [g.dm], guard := .mask g.pr }
  | .vstS g => { Use.plain with srcs := [g.dm], guard := .mask g.pr }
  | .vstx g => { Use.plain with srcs := [g.dm, g.vi], guard := .mask g.pr }
  | .sld g => { Use.plain with dst := .s g.s, lat := 6, guard := .lane0 g.pr }
  | .sst g => { Use.plain with guard := .lane0 g.pr }
  | .spill g => { Use.plain with srcs := [g.dm], guard := .mask g.pr }
  | .fill g => useV g.pr g.dm [] 6
  | _ => Use.plain

/-! ### The checks of a context at issue (R176, R179, R187, R188) -/

/-- A main-file register outside the window (R176). -/
def Env.outside (v : Env) (spec : BitVec 7) : Bool := decide (spec.toNat < 96) && decide (16 * recWin v.r ≤ spec.toNat)

/-- A predicate that rotation takes from compares and predicate logic (R188). -/
def Env.rotPred (v : Env) (p : BitVec 4) : Bool := v.rot && decide (4 ≤ p.toNat) && decide (p.toNat ≤ 11)

/-- An accumulator code that the context does not have (R179). -/
def Env.noAcc (v : Env) (a : BitVec 5) : Bool :=
  let n := a.toNat
  if n < 20 then decide (recAcc v.r ≤ n)
  else if n = 20 then decide (recAcc v.r < 10)
  else if n = 21 then decide (recAcc v.r ≠ 20)
  else true

/-- What makes a slot IENC beyond its encoding (R176, R179, R187, R188). -/
def Env.bad (v : Env) (i : Instr) : Bool :=
  let u := useOf i
  !wellFormed i || u.srcs.any v.outside
    || (match u.dst with
        | .v d => v.outside d
        | .p n => v.rotPred n
        | _ => false)
    || (match u.acc with
        | some a => v.noAcc a
        | none => false)
    || (match i with
        | .mark id => decide (recMcount v.r ≤ id.toNat)
        | .ienc _ => true
        | _ => false)

/-- A slot whose flag is false or whose predicate is false in every lane (R181). -/
def Env.off (v : Env) (u : Use) : Bool :=
  match u.guard with
  | .always => false
  | .flag k => !v.k k
  | .mask p => decide (v.pred p = 0)
  | .lane0 p => !(v.pred p).getLsbD 0

/-- The target two slots must not both write in one landing cycle (R182). -/
def Env.landsOn (v : Env) (u : Use) : Option (Target × Nat) :=
  match u.dst with
  | .none => none
  | .v d => match v.target d with
    | .latchOnly => none
    | t => some (t, u.lat)
  | .p n => some (.p n.toNat, u.lat)
  | .s n => if n = 0 then none else some (.s n.toNat, u.lat)
  | .k n => some (.k n.toNat, u.lat)
  | .a n => some (.a n.toNat, u.lat)
  | .acc _ => none

/-! ### The control core (R71) -/

/-- A scratchpad reference, its fields. -/
def refRemote (w : W64) : Bool := w.getLsbD 63
def refTile (w : W64) : Nat := fieldNat w 40 32
def refAddr (w : W64) : Nat := fieldNat w 21 0

/-- The tile a reference of the issuer on tile t names. -/
def refOn (t : Nat) (w : W64) : Nat := if refRemote w then refTile w else t

/-- Whether tile u carries a task of launch l: it is one of the tiles the launch was placed on, whether or not its tasks have
retired; the spec does not say what retirement changes here (R71, R131; DESIGN CHOICE, assumption 31). -/
def State.carries (s : State) (l u : Nat) : Bool := (s.launch l).tiles.contains u

/-- R71's conditions on the reserved bits and the tile. -/
def State.refShape (s : State) (t c : Nat) (w : W64) : Bool :=
  decide (fieldNat w 62 41 = 0) && decide (fieldNat w 31 22 = 0)
    && (if refRemote w then s.carries (s.ctx t c).launch (refTile w) else decide (refTile w = 0))

/-- A valid reference to n bytes of a carve of the launch (R71). -/
def State.refOk (s : State) (t c : Nat) (w : W64) (n : Nat) : Bool :=
  s.refShape t c w && s.inLaunchCarves (s.ctx t c).launch (refOn t w) (refAddr w) n

/-- A valid reference to a semaphore (R71). -/
def State.semRefOk (s : State) (t c : Nat) (w : W64) : Bool := s.refShape t c w && decide (refAddr w < 64)

/-- A reference that names the issuer's own tile (R71). -/
def refLocal (t : Nat) (w : W64) : Bool := decide (refOn t w = t)

/-- Bytes of an access of size code sz. -/
def sizeOf (sz : BitVec 2) : Nat := 2 ^ sz.toNat

end Sys2Proof.Machine
end

