-- ==== Sys2Proof/Machine/Issue.lean ====
section
/-! DEFINITION. The issue of one bundle slot: its stop (R184, R342, R344), its items (R180, R208, R345), and the form every
slot instruction's meaning has: the checks of the context, the predicate, then the effect. -/

namespace Sys2Proof.Machine

/-- Slot v.n stops the bundle with a code: it and every higher slot issue nothing, and the stop is taken (R184, R342). -/
def State.stopSlot (s : State) (v : Env) (code reason : Nat) (addr : W64) : State :=
  let r : Stop := { s.stopRec v.t v.c code with
    addr := addr, word := v.word, baddr := v.baddr, slot := v.n, done := BitVec.ofNat 8 (2 ^ v.n - 1), reason := reason }
  let s := s.modEngine v.t fun e => { e with stopAt := some v.n }
  s.takeStop v.t v.c r

/-- An item of the slot that issues, due after lat issue cycles. -/
def Env.item (v : Env) (lat : Nat) (k : ItemKind) : Item :=
  { ctx := v.c, due := v.e.ic + lat, issued := v.e.ic, baddr := v.baddr, slot := v.n, seg := v.x.bun.seg, run := v.run,
    word := v.word, kind := k }

/-- The slot issues an item. -/
def State.issue (s : State) (v : Env) (lat : Nat) (k : ItemKind) : State :=
  s.modEngine v.t fun e => { e with items := e.items ++ [v.item lat k] }

/-- The stochastic-rounding counter advances (R228). -/
def State.srAdvance (s : State) (v : Env) : State := s.modBun v.t v.c fun b => { b with srCount := b.srCount + 1 }

/-- The meaning of a slot instruction: IENC if the context does not admit it; nothing if its flag or predicate is off,
but for the counter of a stochastic rounding (R228); else f. -/
def State.slotRun (s : State) (i : Instr) (f : Env → State → State) : Out :=
  let t := s.focus.tile
  let c := s.focus.ctx
  s.withCtx t c fun _ =>
    let v := s.env t c s.focus.slot
    let s := if v.shadowed then s.bumpFree else s
    if v.bad i then .next (s.stopSlot v 1 0 0)
    else if v.off (useOf i) then .next (if (useOf i).sr then s.srAdvance v else s)
    else .next (f v s)

/-- A scalar result (R196). -/
def State.issueS (s : State) (v : Env) (lat : Nat) (sd : BitVec 6) (r : W64) : State :=
  s.issue v lat (.scalar (.s sd.toNat) r true)

/-- A flag result (R200). -/
def State.issueK (s : State) (v : Env) (kd : BitVec 3) (b : Bool) : State := s.issue v 1 (.flag kd.toNat b)

/-- An address-register result (R202). -/
def State.issueA (s : State) (v : Env) (ad : BitVec 4) (r : W32) : State := s.issue v 1 (.addr ad.toNat r)

/-- A vector result in the lanes of a mask, with its flags (R180, R230). -/
def State.issueV (s : State) (v : Env) (lat : Nat) (d : BitVec 7) (mask : Mask) (data : Lanes) (flags : BitVec 5) : State :=
  s.issue v lat (.vec (v.target d) mask data true flags)

/-- A predicate result in the lanes of a mask (R249). -/
def State.issueP (s : State) (v : Env) (lat : Nat) (pd : BitVec 4) (mask bits : Mask) (flags : BitVec 5) : State :=
  s.issue v lat (.pred pd.toNat mask bits flags)

/-- The OR of the flags of a list. -/
def orFlags (l : List FFlags) : FFlags := l.foldl FFlags.or FFlags.none

end Sys2Proof.Machine
end

