-- ==== Sys2Proof/Machine/Scalar.lean ====
section
/-! DEFINITION. The scalar slots SA and SB (R196 to R205): one meaning per instruction. -/

namespace Sys2Proof.Machine

/-! ### Shapes -/

/-- Register and register to register (R198). -/
def scalarRR (i : Instr) (g : SR) (f : W64 → W64 → W64) (s : State) : Out :=
  s.slotRun i fun v u => u.issueS v (useOf i).lat g.sd (f (v.s g.sa) (v.s g.sb))

/-- One register to register (R198). -/
def scalarR (i : Instr) (g : SU) (f : W64 → W64) (s : State) : Out :=
  s.slotRun i fun v u => u.issueS v 1 g.sd (f (v.s g.sa))

/-- Register and signed immediate (R199). -/
def scalarRI (i : Instr) (g : SI) (f : W64 → W64 → W64) (s : State) : Out :=
  s.slotRun i fun v u => u.issueS v 1 g.sd (f (v.s g.sa) (g.imm.signExtend 64))

/-- Register and shift count (R199). -/
def scalarSh (i : Instr) (g : SSh) (f : W64 → Nat → W64) (s : State) : Out :=
  s.slotRun i fun v u => u.issueS v 1 g.sd (f (v.s g.sa) g.cnt.toNat)

/-- Compare of two registers (R200). -/
def scalarCmp (i : Instr) (g : SC) (c : Cmp) (s : State) : Out :=
  s.slotRun i fun v u => u.issueK v g.kd (c.test (v.s g.sa) (v.s g.sb))

/-- Compare with a signed immediate (R200). -/
def scalarCmpI (i : Instr) (g : SCI) (c : Cmp) (s : State) : Out :=
  s.slotRun i fun v u => u.issueK v g.kd (c.test (v.s g.sa) (g.imm.signExtend 64))

/-- Logic of two flags (R200). -/
def scalarFlag (i : Instr) (g : SK) (f : Bool → Bool → Bool) (s : State) : Out :=
  s.slotRun i fun v u => u.issueK v g.kd (f (v.k g.ka) (v.k g.kb))

/-! ### What the operations compute (R198) -/

/-- Low 6 bits of a shift count. -/
def cnt6 (b : W64) : Nat := (b.extractLsb' 0 6).toNat

def mulHigh (a b : W64) : W64 := ((a.signExtend 128 * b.signExtend 128).extractLsb' 64 64)
def mulHighN (a b : W64) : W64 := ((a.setWidth 128 * b.setWidth 128).extractLsb' 64 64)

/-- Leading zero bits among the low n bits of a. -/
def leadZeros {w : Nat} (a : BitVec w) : Nat → Nat
  | 0 => 0
  | n + 1 => if a.getLsbD n then 0 else leadZeros a n + 1

/-- Trailing zero bits among n bits from bit i. -/
def trailZeros {w : Nat} (a : BitVec w) (i : Nat) : Nat → Nat
  | 0 => 0
  | n + 1 => if a.getLsbD i then 0 else trailZeros a (i + 1) n + 1

/-- One bits among the low n bits. -/
def countOnes {w : Nat} (a : BitVec w) : Nat → Nat
  | 0 => 0
  | n + 1 => countOnes a n + (if a.getLsbD n then 1 else 0)

/-! ### Register forms (R198) -/

def execAdd (g : SR) (s : State) : Out := scalarRR (.add g) g (fun a b => a + b) s
def execSub (g : SR) (s : State) : Out := scalarRR (.sub g) g (fun a b => a - b) s
def execMul (g : SR) (s : State) : Out := scalarRR (.mul g) g (fun a b => a * b) s
def execMulh (g : SR) (s : State) : Out := scalarRR (.mulh g) g mulHigh s
def execMulhn (g : SR) (s : State) : Out := scalarRR (.mulhn g) g mulHighN s
def execAnd (g : SR) (s : State) : Out := scalarRR (.and g) g (fun a b => a &&& b) s
def execOr (g : SR) (s : State) : Out := scalarRR (.or g) g (fun a b => a ||| b) s
def execXor (g : SR) (s : State) : Out := scalarRR (.xor g) g (fun a b => a ^^^ b) s
def execAndn (g : SR) (s : State) : Out := scalarRR (.andn g) g (fun a b => a &&& ~~~b) s
def execShl (g : SR) (s : State) : Out := scalarRR (.shl g) g (fun a b => a <<< cnt6 b) s
def execShr (g : SR) (s : State) : Out := scalarRR (.shr g) g (fun a b => a >>> cnt6 b) s
def execSra (g : SR) (s : State) : Out := scalarRR (.sra g) g (fun a b => a.sshiftRight (cnt6 b)) s
def execRotl (g : SR) (s : State) : Out := scalarRR (.rotl g) g (fun a b => a.rotateLeft (cnt6 b)) s
def execMin (g : SR) (s : State) : Out := scalarRR (.min g) g (fun a b => if a.sle b then a else b) s
def execMax (g : SR) (s : State) : Out := scalarRR (.max g) g (fun a b => if b.sle a then a else b) s
def execMinn (g : SR) (s : State) : Out := scalarRR (.minn g) g (fun a b => if a.ule b then a else b) s
def execMaxn (g : SR) (s : State) : Out := scalarRR (.maxn g) g (fun a b => if b.ule a then a else b) s
def execClz (g : SU) (s : State) : Out := scalarR (.clz g) g (fun a => BitVec.ofNat 64 (leadZeros a 64)) s
def execPopc (g : SU) (s : State) : Out := scalarR (.popc g) g (fun a => BitVec.ofNat 64 (countOnes a 64)) s

/-- sel: the flag is the selector, and the result is written in every case (R201). -/
def execSel (g : SR) (s : State) : Out :=
  s.slotRun (.sel g) fun v u => u.issueS v 1 g.sd (if v.k g.kc then v.s g.sa else v.s g.sb)

/-! ### Immediate forms (R199) -/

def execAddi (g : SI) (s : State) : Out := scalarRI (.addi g) g (fun a b => a + b) s
def execAndI (g : SI) (s : State) : Out := scalarRI (.andI g) g (fun a b => a &&& b) s
def execOrI (g : SI) (s : State) : Out := scalarRI (.orI g) g (fun a b => a ||| b) s
def execXorI (g : SI) (s : State) : Out := scalarRI (.xorI g) g (fun a b => a ^^^ b) s
def execMovi (g : SM) (s : State) : Out :=
  s.slotRun (.movi g) fun v u => u.issueS v 1 g.sd (g.imm.signExtend 64)
def execMovhi (g : SI) (s : State) : Out :=
  s.slotRun (.movhi g) fun v u => u.issueS v 1 g.sd (((v.s g.sa).extractLsb' 0 54 ++ g.imm : BitVec 64))
def execShlI (g : SSh) (s : State) : Out := scalarSh (.shlI g) g (fun a n => a <<< n) s
def execShrI (g : SSh) (s : State) : Out := scalarSh (.shrI g) g (fun a n => a >>> n) s
def execSraI (g : SSh) (s : State) : Out := scalarSh (.sraI g) g (fun a n => a.sshiftRight n) s
def execRotlI (g : SSh) (s : State) : Out := scalarSh (.rotlI g) g (fun a n => a.rotateLeft n) s

/-! ### Compares and flag logic (R200) -/

def execCeq (g : SC) (s : State) : Out := scalarCmp (.ceq g) g .eq s
def execCne (g : SC) (s : State) : Out := scalarCmp (.cne g) g .ne s
def execClt (g : SC) (s : State) : Out := scalarCmp (.clt g) g .lt s
def execCle (g : SC) (s : State) : Out := scalarCmp (.cle g) g .le s
def execCltn (g : SC) (s : State) : Out := scalarCmp (.cltn g) g .ltn s
def execClen (g : SC) (s : State) : Out := scalarCmp (.clen g) g .len s
def execCeqI (g : SCI) (s : State) : Out := scalarCmpI (.ceqI g) g .eq s
def execCneI (g : SCI) (s : State) : Out := scalarCmpI (.cneI g) g .ne s
def execCltI (g : SCI) (s : State) : Out := scalarCmpI (.cltI g) g .lt s
def execCleI (g : SCI) (s : State) : Out := scalarCmpI (.cleI g) g .le s
def execCltnI (g : SCI) (s : State) : Out := scalarCmpI (.cltnI g) g .ltn s
def execClenI (g : SCI) (s : State) : Out := scalarCmpI (.clenI g) g .len s
def execKand (g : SK) (s : State) : Out := scalarFlag (.kand g) g (fun a b => a && b) s
def execKor (g : SK) (s : State) : Out := scalarFlag (.kor g) g (fun a b => a || b) s
def execKxor (g : SK) (s : State) : Out := scalarFlag (.kxor g) g (fun a b => a != b) s

/-! ### Special reads (R186, R201) -/

/-- krate: the rate weight (R42). -/
def State.rateWord (s : State) (t : Nat) : W64 := BitVec.ofNat 64 (s.weight t)

/-- The value a name of R186 reads at issue. icount counts the bundles issued before this one. -/
def State.special (s : State) (v : Env) (name : Nat) : W64 :=
  match name with
  | 0 => BitVec.ofNat 64 v.t
  | 1 => s.didWord v.t
  | 2 => BitVec.ofNat 64 (fieldNat (s.didWord v.t) 7 4)
  | 3 => BitVec.ofNat 64 v.x.num
  | 4 => s.rateWord v.t
  | 5 => v.x.bun.icount
  | 6 => s.ktime
  | _ => if v.x.bun.wcols then 1 else 0

/-- smov; bstc clears WCOLS after reading it (R186). -/
def execSmov (g : SM) (s : State) : Out :=
  s.slotRun (.smov g) fun v u =>
    let u' := if g.imm.toNat = 8 then u.modBun v.t v.c fun b => { b with wcols := false } else u
    u'.issueS v 1 g.sd (u.special v g.imm.toNat)

/-! ### Address registers (R202) -/

def execAset (kc : BitVec 3) (ad : BitVec 4) (sa : BitVec 6) (imm : BitVec 10) (s : State) : Out :=
  s.slotRun (.aset kc ad sa imm) fun v u => u.issueA v ad ((v.s sa + imm.signExtend 64).setWidth 32)

def execAadd (kc : BitVec 3) (ad : BitVec 4) (imm : BitVec 10) (s : State) : Out :=
  s.slotRun (.aadd kc ad imm) fun v u => u.issueA v ad (v.a ad + imm.signExtend 32)

def execAget (kc : BitVec 3) (sd : BitVec 6) (aa : BitVec 4) (s : State) : Out :=
  s.slotRun (.aget kc sd aa) fun v u => u.issueS v 1 sd ((v.a aa).setWidth 64)

end Sys2Proof.Machine
end

