-- ==== Sys2Proof/Machine/VectorNum.lean ====
section
/-! DEFINITION. What the vector operations compute on an element, a lane or a cluster (R246 to R257). -/

namespace Sys2Proof.Machine

/-- A rounding context: RM and FTZ of the run's control word (R229, R232). -/
structure FpEnv where
  mode : Mode
  down : Bool
  ftz : Bool
  deriving DecidableEq, Repr

def fpEnv (fpcw : W32) : FpEnv := ⟨modeOf (rmOf fpcw), decide (rmOf fpcw = 3), ftzOf fpcw⟩

/-! ### deliver (R247) -/

/-- The default NaN of a format. -/
def FFmt.nan (f : FFmt) : Nat := f.nanCode.getD 0

/-- The last case of R247: round, then flush (R232). -/
def deliver (q : FpEnv) (f : FFmt) (v : Val) : Nat × FFlags := f.flush q.ftz (roundF f q.mode v)

/-- deliver for x times y plus z, or x times y alone (R246, R247). -/
def deliverMul (q : FpEnv) (f : FFmt) (neg : Bool) (x y : Val) (z : Option Val) : Nat × FFlags :=
  if (x.isInf && y.isZero) || (x.isZero && y.isInf) then (f.nan, FFlags.invalid)
  else
    let zz := z.getD Val.zero
    if x.isNan || y.isNan || zz.isNan then
      (f.nan, if x.isSig || y.isSig || zz.isSig then FFlags.invalid else FFlags.none)
    else
      let p := if neg then (x.mul y).negate else x.mul y
      match z with
      | none => deliver q f p
      | some w =>
        let v := p.add q.down w
        if v.isNan then (f.nan, FFlags.invalid) else deliver q f v

/-- deliver for a sum (R247). -/
def deliverAdd (q : FpEnv) (f : FFmt) (x y : Val) : Nat × FFlags :=
  if x.isNan || y.isNan then (f.nan, if x.isSig || y.isSig then FFlags.invalid else FFlags.none)
  else
    let v := x.add q.down y
    if v.isNan then (f.nan, FFlags.invalid) else deliver q f v

/-- The arithmetic operations of R246. -/
inductive FpOp
  | add | sub | mul | fma | fms | fnma | fnms
  deriving DecidableEq, Repr

/-- One element of an arithmetic operation (R246). -/
def FpOp.elem (o : FpOp) (q : FpEnv) (f : FFmt) (a b d : Nat) : Nat × FFlags :=
  let x := f.source q.ftz a
  let y := f.source q.ftz b
  let z := f.source q.ftz d
  match o with
  | .add => deliverAdd q f x y
  | .sub => deliverAdd q f x y.negate
  | .mul => deliverMul q f false x y none
  | .fma => deliverMul q f false x y (some z)
  | .fms => deliverMul q f false x y (some z.negate)
  | .fnma => deliverMul q f true x y (some z)
  | .fnms => deliverMul q f true x y (some z.negate)

/-! ### Selections, compares, classes (R248 to R250) -/

/-- The code of a value that a source of the format holds. -/
def FFmt.codeOf (f : FFmt) (v : Val) : Nat := (roundF f .rne v).1

/-- fmin, fmax, fminn, fmaxn: big for the larger, num for the n forms (R248). -/
def fpSelect (q : FpEnv) (f : FFmt) (big num : Bool) (a b : Nat) : Nat × FFlags :=
  let x := f.source q.ftz a
  let y := f.source q.ftz b
  let fl := if x.isSig || y.isSig then FFlags.invalid else FFlags.none
  if x.isNan || y.isNan then
    if num ∧ !x.isNan then (f.codeOf x, fl)
    else if num ∧ !y.isNan then (f.codeOf y, fl)
    else (f.nan, fl)
  else
    let xFirst := if big then !x.lt true y else !y.lt true x
    (f.codeOf (if xFirst then x else y), fl)

/-- The compares of R249. -/
inductive FpCmp
  | eq | lt | le | un
  deriving DecidableEq, Repr

def FpCmp.elem (o : FpCmp) (q : FpEnv) (f : FFmt) (a b : Nat) : Bool × FFlags :=
  let x := f.source q.ftz a
  let y := f.source q.ftz b
  let nan := x.isNan || y.isNan
  let sig := if x.isSig || y.isSig then FFlags.invalid else FFlags.none
  let quiet := if nan then FFlags.invalid else FFlags.none
  match o with
  | .eq => (!nan && !x.lt false y && !y.lt false x, sig)
  | .lt => (!nan && x.lt false y, quiet)
  | .le => (!nan && !y.lt false x, quiet)
  | .un => (nan, sig)

/-- The class mask of R250. -/
def fpClass (q : FpEnv) (f : FFmt) (a : Nat) : Nat :=
  match f.source q.ftz a with
  | .nan sig => if sig then 2 ^ 8 else 2 ^ 9
  | .inf n => if n then 2 ^ 0 else 2 ^ 7
  | .fin n m _ =>
    if m = 0 then (if n then 2 ^ 3 else 2 ^ 4)
    else if f.subnormal a then (if n then 2 ^ 2 else 2 ^ 5)
    else (if n then 2 ^ 1 else 2 ^ 6)

/-! ### Packed types (R223, R245) -/

def tyFmt : FTy → FFmt
  | .f => fp32
  | .h2 => fp16
  | .b2 => bf16

def lo16 (x : W32) : Nat := (x.extractLsb' 0 16).toNat
def hi16 (x : W32) : Nat := (x.extractLsb' 16 16).toNat

/-- The two halves of a packed lane put together. -/
def packed (lo hi : Nat) : W32 := BitVec.ofNat 16 hi ++ BitVec.ofNat 16 lo

/-- An element operation on a lane: one element for .f, two for the packed types, their flags ORed (R223). -/
def onLane3 (ty : FTy) (f : FFmt → Nat → Nat → Nat → Nat × FFlags) (a b d : W32) : W32 × FFlags :=
  match ty with
  | .f =>
    let r := f fp32 a.toNat b.toNat d.toNat
    (BitVec.ofNat 32 r.1, r.2)
  | _ =>
    let r := f (tyFmt ty) (lo16 a) (lo16 b) (lo16 d)
    let u := f (tyFmt ty) (hi16 a) (hi16 b) (hi16 d)
    (packed r.1 u.1, r.2.or u.2)

/-- A compare on a lane: AND of the elements, OR for the unordered test (R249). -/
def cmpLane (ty : FTy) (o : FpCmp) (q : FpEnv) (a b : W32) : Bool × FFlags :=
  match ty with
  | .f => o.elem q fp32 a.toNat b.toNat
  | _ =>
    let r := o.elem q (tyFmt ty) (lo16 a) (lo16 b)
    let u := o.elem q (tyFmt ty) (hi16 a) (hi16 b)
    (if o = .un then r.1 || u.1 else r.1 && u.1, r.2.or u.2)

/-! ### Conversions (R254) -/

/-- The mode of a rounding code; code 0 is RM, code 5 draws the bits of stream index l (R189, R227). -/
def cvtMode (v : Env) (n : W64) (rnd : BitVec 3) (l : Nat) : Mode :=
  match rnd.toNat with
  | 0 => modeOf (rmOf v.fpcw)
  | 1 => .rne
  | 2 => .rz
  | 3 => .ru
  | 4 => .rd
  | _ => .sr (srbits (recSeed v.r) v.t v.x.num l n)

/-- Whether FTZ flushes a lane format: FP32, FP16, BF16 (R232). -/
def ftzFmt (code : Nat) : Bool := decide (code ≤ 2)

/-- One lane of cvt (R254). -/
def cvtLane (ftz : Bool) (src dst : Nat) (mode : Mode) (w : W32) : W32 × FFlags :=
  match lfmtOf src, lfmtOf dst with
  | some l, some d =>
    let flushSrc := ftz && ftzFmt src && !(decide (3 ≤ dst) && decide (dst ≤ 10))
    let x := match l with
      | .f f => f.source flushSrc (w.toNat % 2 ^ l.width)
      | .i _ _ => l.decode w.toNat
    let sig := if x.isSig then FFlags.invalid else FFlags.none
    let r := d.round mode x
    let r' := match d with
      | .f f => if ftzFmt dst then
          let u := f.flush ftz (r.1.toNat, r.2)
          (BitVec.ofNat 32 u.1, u.2)
        else r
      | .i _ _ => r
    (r'.1, r'.2.or sig)
  | _, _ => (0, FFlags.none)

/-! ### Reductions and partition (R256, R257) -/

/-- One level of the tree over absent and present nodes. -/
def treeLevel (op : Nat → Nat → Nat × FFlags) : List (Option Nat) → List (Option Nat) × FFlags
  | some a :: some b :: l =>
    let r := op a b
    let u := treeLevel op l
    (some r.1 :: u.1, r.2.or u.2)
  | some a :: none :: l =>
    let u := treeLevel op l
    (some a :: u.1, u.2)
  | none :: b :: l =>
    let u := treeLevel op l
    (b :: u.1, u.2)
  | l => (l, FFlags.none)

/-- The tree of R256 over the 16 lanes of a cluster: the node, and the flags of the tree. -/
def tree16 (op : Nat → Nat → Nat × FFlags) (w : List (Option Nat)) : Option Nat × FFlags :=
  let a := treeLevel op w
  let b := treeLevel op a.1
  let c := treeLevel op b.1
  let d := treeLevel op c.1
  (d.1.headD none, ((a.2.or b.2).or c.2).or d.2)

/-- The lanes of cluster c that take part. -/
def clusterLanes (mask : Mask) (pre : W32 → Nat) (a : Lanes) (c : Nat) : List (Option Nat) :=
  (List.range 16).map fun k => if mask.getLsbD (16 * c + k) then some (pre (laneAt a (16 * c + k))) else none

/-- A reduction of every cluster, and its flags (R256). -/
def reduce (mask : Mask) (pre : W32 → Nat) (op : Nat → Nat → Nat × FFlags) (a : Lanes) : Lanes × FFlags :=
  let rs := (List.range 8).map fun c => tree16 op (clusterLanes mask pre a c)
  (lanesOf fun i => BitVec.ofNat 32 (((rs.getD (i / 16) (none, FFlags.none)).1).getD 0), orFlags (rs.map Prod.snd))

/-- The lane numbers sorted by key, inactive lanes last (R257). -/
def partList (mask : Mask) (a : Lanes) : List Nat :=
  let key (i : Nat) : Nat := if mask.getLsbD i then ((laneAt a i).extractLsb' 0 3).toNat else 8
  (List.range 9).flatMap fun k => (List.range 128).filter fun i => decide (key i = k)

end Sys2Proof.Machine
end

