-- ==== Sys2Proof/Machine/Vector.lean ====
section
/-! DEFINITION. The vector slots VA, VB and VC (R244 to R258): one meaning per instruction. -/

namespace Sys2Proof.Machine

/-! ### Shapes -/

/-- Lane by lane, without flags. -/
def vec2 (i : Instr) (g : V3) (f : W32 → W32 → W32) (s : State) : Out :=
  s.slotRun i fun v u =>
    let a := v.vec g.a
    let b := v.vec g.b
    u.issueV v (useOf i).lat g.d (v.pred g.pr) (lanesOf fun j => f (laneAt a j) (laneAt b j)) 0

/-- A floating-point result in every active lane, the flags of the active lanes ORed (R230, R246). -/
def fpLanes (s : State) (v : Env) (lat : Nat) (d : BitVec 7) (mask : Mask) (f : Nat → W32 × FFlags) : State :=
  let rs := (List.range 128).map fun j => if mask.getLsbD j then f j else (0, FFlags.none)
  s.issueV v lat d mask (lanesOf fun j => (rs.getD j (0, FFlags.none)).1) (orFlags (rs.map Prod.snd)).bits

/-- The arithmetic forms (R246). -/
def fpArith (i : Instr) (g : VF) (o : FpOp) (s : State) : Out :=
  s.slotRun i fun v u =>
    let a := v.vec g.a
    let b := v.vec g.b
    let d := v.vec g.d
    fpLanes u v (useOf i).lat g.d (v.pred g.pr) fun j =>
      onLane3 g.ty (o.elem (fpEnv v.fpcw)) (laneAt a j) (laneAt b j) (laneAt d j)

/-- The selections (R248). -/
def fpSel (i : Instr) (g : VF) (big num : Bool) (s : State) : Out :=
  s.slotRun i fun v u =>
    let a := v.vec g.a
    let b := v.vec g.b
    fpLanes u v 4 g.d (v.pred g.pr) fun j =>
      onLane3 g.ty (fun f x y _ => fpSelect (fpEnv v.fpcw) f big num x y) (laneAt a j) (laneAt b j) 0

/-- The compares (R249). -/
def fpCompare (i : Instr) (g : VFC) (o : FpCmp) (s : State) : Out :=
  s.slotRun i fun v u =>
    let a := v.vec g.a
    let b := v.vec g.b
    let mask := v.pred g.pr
    let rs := (List.range 128).map fun j =>
      if mask.getLsbD j then cmpLane g.ty o (fpEnv v.fpcw) (laneAt a j) (laneAt b j) else (false, FFlags.none)
    u.issueP v 4 g.pd mask (maskOf fun j => (rs.getD j (false, FFlags.none)).1) (orFlags (rs.map Prod.snd)).bits

/-- The integer compares (R251). -/
def vecCmp (i : Instr) (g : VC) (c : Cmp) (s : State) : Out :=
  s.slotRun i fun v u =>
    let a := v.vec g.a
    let b := v.vec g.b
    u.issueP v 2 g.pd (v.pred g.pr) (maskOf fun j => c.test (laneAt a j) (laneAt b j)) 0

/-- Predicate logic (R258). -/
def predLogic (i : Instr) (g : PL) (f : Mask → Mask → Mask) (s : State) : Out :=
  s.slotRun i fun v u => u.issueP v 2 g.pd (v.pred g.pr) (f (v.pred g.pa) (v.pred g.pb)) 0

/-- Results from one source that rearranges lanes (R252, R253, R255). -/
def vecMap (i : Instr) (pr : BitVec 4) (d a : BitVec 7) (f : Lanes → Nat → W32) (s : State) : Out :=
  s.slotRun i fun v u =>
    let x := v.vec a
    u.issueV v (useOf i).lat d (v.pred pr) (lanesOf (f x)) 0

/-! ### Floating point (R246 to R250) -/

def execFadd (g : VF) (s : State) : Out := fpArith (.fadd g) g .add s
def execFsub (g : VF) (s : State) : Out := fpArith (.fsub g) g .sub s
def execFmul (g : VF) (s : State) : Out := fpArith (.fmul g) g .mul s
def execFma (g : VF) (s : State) : Out := fpArith (.fma g) g .fma s
def execFms (g : VF) (s : State) : Out := fpArith (.fms g) g .fms s
def execFnma (g : VF) (s : State) : Out := fpArith (.fnma g) g .fnma s
def execFnms (g : VF) (s : State) : Out := fpArith (.fnms g) g .fnms s
def execFmin (g : VF) (s : State) : Out := fpSel (.fmin g) g false false s
def execFmax (g : VF) (s : State) : Out := fpSel (.fmax g) g true false s
def execFminn (g : VF) (s : State) : Out := fpSel (.fminn g) g false true s
def execFmaxn (g : VF) (s : State) : Out := fpSel (.fmaxn g) g true true s
def execFceq (g : VFC) (s : State) : Out := fpCompare (.fceq g) g .eq s
def execFclt (g : VFC) (s : State) : Out := fpCompare (.fclt g) g .lt s
def execFcle (g : VFC) (s : State) : Out := fpCompare (.fcle g) g .le s
def execFcun (g : VFC) (s : State) : Out := fpCompare (.fcun g) g .un s

/-- fclass (R250). -/
def execFclass (g : VFU) (s : State) : Out :=
  s.slotRun (.fclass g) fun v u =>
    let a := v.vec g.a
    fpLanes u v 4 g.d (v.pred g.pr) fun j =>
      onLane3 g.ty (fun f x _ _ => (fpClass (fpEnv v.fpcw) f x, FFlags.none)) (laneAt a j) 0 0

/-! ### Integers (R251) -/

/-- Low 5 bits of a shift count. -/
def cnt5 (b : W32) : Nat := (b.extractLsb' 0 5).toNat

def execVaddI32 (g : V3) (s : State) : Out := vec2 (.vaddI32 g) g (fun a b => a + b) s
def execVsubI32 (g : V3) (s : State) : Out := vec2 (.vsubI32 g) g (fun a b => a - b) s
def execVmulI32 (g : V3) (s : State) : Out := vec2 (.vmulI32 g) g (fun a b => a * b) s
def execVand (g : V3) (s : State) : Out := vec2 (.vand g) g (fun a b => a &&& b) s
def execVor (g : V3) (s : State) : Out := vec2 (.vor g) g (fun a b => a ||| b) s
def execVxor (g : V3) (s : State) : Out := vec2 (.vxor g) g (fun a b => a ^^^ b) s
def execVandn (g : V3) (s : State) : Out := vec2 (.vandn g) g (fun a b => a &&& ~~~b) s
def execVshl (g : V3) (s : State) : Out := vec2 (.vshl g) g (fun a b => a <<< cnt5 b) s
def execVshr (g : V3) (s : State) : Out := vec2 (.vshr g) g (fun a b => a >>> cnt5 b) s
def execVsra (g : V3) (s : State) : Out := vec2 (.vsra g) g (fun a b => a.sshiftRight (cnt5 b)) s
def execVminI32 (g : V3) (s : State) : Out := vec2 (.vminI32 g) g (fun a b => if a.sle b then a else b) s
def execVmaxI32 (g : V3) (s : State) : Out := vec2 (.vmaxI32 g) g (fun a b => if b.sle a then a else b) s
def execVminN32 (g : V3) (s : State) : Out := vec2 (.vminN32 g) g (fun a b => if a.ule b then a else b) s
def execVmaxN32 (g : V3) (s : State) : Out := vec2 (.vmaxN32 g) g (fun a b => if b.ule a then a else b) s
def execVceqI32 (g : VC) (s : State) : Out := vecCmp (.vceqI32 g) g .eq s
def execVcltI32 (g : VC) (s : State) : Out := vecCmp (.vcltI32 g) g .lt s
def execVcltN32 (g : VC) (s : State) : Out := vecCmp (.vcltN32 g) g .ltn s

/-! ### Moves and selection (R252, R253) -/

def execVmov (g : V2) (s : State) : Out := vecMap (.vmov g) g.pr g.d g.a (fun x j => laneAt x j) s

def execVmovi (g : VImm) (s : State) : Out :=
  s.slotRun (.vmovi g) fun v u => u.issueV v 2 g.d (v.pred g.pr) (lanesOf fun _ => g.imm.signExtend 32) 0

def execVbcs (g : VS) (s : State) : Out :=
  s.slotRun (.vbcs g) fun v u => u.issueV v 2 g.d (v.pred g.pr) (lanesOf fun _ => (v.s g.s).setWidth 32) 0

/-- vsel selects in every lane and writes every lane (R181, R252). -/
def execVsel (g : V3) (s : State) : Out :=
  s.slotRun (.vsel g) fun v u =>
    let a := v.vec g.a
    let b := v.vec g.b
    let p := v.pred g.pr
    u.issueV v 2 g.d Mask.full (lanesOf fun j => if p.getLsbD j then laneAt a j else laneAt b j) 0

def execPack (g : V3) (s : State) : Out :=
  vec2 (.pack g) g (fun a b => (b.extractLsb' 0 16 ++ a.extractLsb' 0 16 : BitVec 32)) s

/-- The parts of R253. -/
def unpackLane (part : Nat) (x : W32) : W32 :=
  match part with
  | 0 => (x.extractLsb' 0 16).setWidth 32
  | 1 => (x.extractLsb' 16 16).setWidth 32
  | 2 => (x.extractLsb' 0 16).signExtend 32
  | _ => (x.extractLsb' 16 16).signExtend 32

def execUnpack (g : VN 2) (s : State) : Out :=
  vecMap (.unpack g) g.pr g.d g.a (fun x j => unpackLane g.n.toNat (laneAt x j)) s

/-! ### Lanes and clusters (R255) -/

def execPerm (g : V3) (s : State) : Out :=
  s.slotRun (.perm g) fun v u =>
    let a := v.vec g.a
    let b := v.vec g.b
    u.issueV v 2 g.d (v.pred g.pr)
      (lanesOf fun j => laneAt a (16 * (j / 16) + ((laneAt b j).extractLsb' 0 4).toNat)) 0

def execBcl (g : VN 4) (s : State) : Out :=
  vecMap (.bcl g) g.pr g.d g.a (fun x j => laneAt x (16 * (j / 16) + g.n.toNat)) s

def execXcl (g : VN 3) (s : State) : Out :=
  vecMap (.xcl g) g.pr g.d g.a (fun x j => laneAt x ((j + 16 * g.n.toNat) % 128)) s

/-! ### Reductions, partition, predicates (R256 to R258) -/

/-- A source of a floating-point reduction under FTZ. -/
def flushLane (q : FpEnv) (x : W32) : Nat :=
  if q.ftz && fp32.subnormal x.toNat then fp32.join (decide (2 ^ 31 ≤ x.toNat)) 0 else x.toNat

def execVredAddF (g : V2) (s : State) : Out :=
  s.slotRun (.vredAddF g) fun v u =>
    let q := fpEnv v.fpcw
    let m := v.pred g.pr
    let r := reduce m (flushLane q) (fun x y => FpOp.add.elem q fp32 x y 0) (v.vec g.a)
    u.issueV v 10 g.d m r.1 r.2.bits

def execVredMaxF (g : V2) (s : State) : Out :=
  s.slotRun (.vredMaxF g) fun v u =>
    let q := fpEnv v.fpcw
    let m := v.pred g.pr
    let a := v.vec g.a
    let r := reduce m (flushLane q) (fun x y => fpSelect q fp32 true false x y) a
    let sig := (lanesIn m).any fun i => (fp32.decode (laneAt a i).toNat).isSig
    u.issueV v 6 g.d m r.1 (if sig then FFlags.invalid else FFlags.none).bits

def execVredAddI32 (g : V2) (s : State) : Out :=
  s.slotRun (.vredAddI32 g) fun v u =>
    let m := v.pred g.pr
    let r := reduce m BitVec.toNat (fun x y => ((x + y) % 2 ^ 32, FFlags.none)) (v.vec g.a)
    u.issueV v 6 g.d m r.1 0

def execPart (g : V2) (s : State) : Out :=
  s.slotRun (.part g) fun v u =>
    let m := v.pred g.pr
    let l := partList m (v.vec g.a)
    u.issueV v 12 g.d m (lanesOf fun j => BitVec.ofNat 32 (l.getD j 0)) 0

def execPand (g : PL) (s : State) : Out := predLogic (.pand g) g (fun a b => a &&& b) s
def execPor (g : PL) (s : State) : Out := predLogic (.por g) g (fun a b => a ||| b) s
def execPxor (g : PL) (s : State) : Out := predLogic (.pxor g) g (fun a b => a ^^^ b) s
def execPandn (g : PL) (s : State) : Out := predLogic (.pandn g) g (fun a b => a &&& ~~~b) s

def execPpop (g : PP) (s : State) : Out :=
  s.slotRun (.ppop g) fun v u =>
    u.issueV v 2 g.d (v.pred g.pr) (lanesOf fun _ => BitVec.ofNat 32 (countOnes (v.pred g.pa) 128)) 0

/-! ### Conversion (R254) -/

def execCvt (g : Cvt) (s : State) : Out :=
  s.slotRun (.cvt g) fun v u =>
    let a := v.vec g.a
    let n := v.x.bun.srCount
    let u := if g.rnd = 5 then u.srAdvance v else u
    fpLanes u v 3 g.d (v.pred g.pr) fun j =>
      cvtLane (ftzOf v.fpcw) g.src.toNat g.dst.toNat (cvtMode v n g.rnd j) (laneAt a j)

end Sys2Proof.Machine
end

