-- ==== Sys2Proof/Machine/Sfu.lean ====
section
/-! DEFINITION. The special-function approximations of the X slot (R259 to R265): one meaning per instruction. -/

namespace Sys2Proof.Machine

/-- Linear interpolation in a table (R260). -/
def interp (tab : List (List Nat)) (j f : Nat) : Nat :=
  let a : Int := Int.ofNat (Sfu.entry tab j)
  if f = 0 then Sfu.entry tab j
  else ((256 * a + (Int.ofNat (Sfu.entry tab (j + 1)) - a) * Int.ofNat f + 128) / 256).toNat

/-- Exponent and 23-bit fraction of a finite number that is not zero (R260). -/
def normal23 (m : Nat) (e : Int) : Int × Nat := (leadExp m e, m * 2 ^ (23 - Nat.log2 m) - 2 ^ 23)

/-- Index and fraction bits of a 23-bit fraction (R261). -/
def idxOf (m : Nat) : Nat := m / 2 ^ 15 % 256
def fracOf (m : Nat) : Nat := m / 2 ^ 7 % 256

/-- floor(x times 2 to the k) for x = plus or minus m times 2 to the e. -/
def floorScaled (n : Bool) (m : Nat) (e : Int) (k : Int) : Int :=
  if 0 ≤ e + k then scaled n m (e + k) 0
  else
    let d : Int := Int.ofNat (2 ^ (-(e + k)).toNat)
    (if n then -(Int.ofNat m) else Int.ofNat m) / d

/-- What an approximation makes of its source: a special value of R265, or the exact y of R261 to R264. -/
inductive Approx
  | code (c : Nat) (f : FFlags)
  | val (y : Val)
  deriving DecidableEq, Repr

def nanInvalid : Approx := .code 0x7FC00000 FFlags.invalid
def infOf (neg : Bool) : Nat := if neg then 0xFF800000 else 0x7F800000
def zeroOf (neg : Bool) : Nat := if neg then 0x80000000 else 0

/-- e mod 2, 0 or 1, and the whole half of e less it. -/
def halves (e : Int) : Int × Int := (e % 2, (e - e % 2) / 2)

/-- rsqa (R261, R265). -/
def rsqaOf : Val → Approx
  | .nan _ => .code 0x7FC00000 FFlags.none
  | .inf n => if n then nanInvalid else .code 0 FFlags.none
  | .fin n m e =>
    if m = 0 then .code (infOf n) FFlags.divZero
    else if n then nanInvalid
    else
      let x := normal23 m e
      let h := halves x.1
      .val (.fin false (interp (if h.1 = 0 then Sfu.rs0 else Sfu.rs1) (idxOf x.2) (fracOf x.2)) (-24 - h.2))

/-- rcpa (R261, R265). -/
def rcpaOf : Val → Approx
  | .nan _ => .code 0x7FC00000 FFlags.none
  | .inf n => .code (zeroOf n) FFlags.none
  | .fin n m e =>
    if m = 0 then .code (infOf n) FFlags.divZero
    else
      let x := normal23 m e
      .val (.fin n (interp Sfu.rc (idxOf x.2) (fracOf x.2)) (-24 - x.1))

/-- exp2a (R262, R265). -/
def exp2aOf : Val → Approx
  | .nan _ => .code 0x7FC00000 FFlags.none
  | .inf n => .code (if n then 0 else infOf false) FFlags.none
  | .fin n m e =>
    -- the clamp to -256 .. 256 is taken on the scaled argument
    let k : Int := if m ≠ 0 ∧ 8 ≤ leadExp m e then (if n then -(256 * 65536) else 256 * 65536) else floorScaled n m e 16
    let t := (k % 65536).toNat
    .val (.fin false (interp Sfu.ex (t / 256) (t % 256)) (k / 65536 - 23))

/-- log2a (R262, R265). -/
def log2aOf : Val → Approx
  | .nan _ => .code 0x7FC00000 FFlags.none
  | .inf n => if n then nanInvalid else .code (infOf false) FFlags.none
  | .fin n m e =>
    if m = 0 then .code (infOf true) FFlags.divZero
    else if n then nanInvalid
    else
      let x := normal23 m e
      .val (ofUnits (x.1 * 2 ^ 24 + Int.ofNat (interp Sfu.lg (idxOf x.2) (fracOf x.2))) (-24))

/-- sina, and cosa with a quarter turn added (R263, R265). -/
def sinaOf (quarter : Nat) : Val → Approx
  | .nan _ => .code 0x7FC00000 FFlags.none
  | .inf _ => nanInvalid
  | .fin n m e =>
    let t := (((floorScaled n m e 18) % 2 ^ 18).toNat + quarter) % 2 ^ 18
    let q := t / 2 ^ 16
    let w := if q % 2 = 1 then 2 ^ 16 - t % 2 ^ 16 else t % 2 ^ 16
    let r := interp Sfu.sn (w / 256) (w % 256)
    .val (.fin (decide (2 ≤ q) && decide (r ≠ 0)) r (-24))

/-- tanha (R264, R265). -/
def tanhaOf : Val → Approx
  | .nan _ => .code 0x7FC00000 FFlags.none
  | .inf n => .val (.fin n 1 0)
  | .fin n m e =>
    let r :=
      if m ≠ 0 ∧ 3 ≤ leadExp m e then 2 ^ 24
      else
        let t := (floorScaled false m e 13).toNat
        interp Sfu.th (t / 256) (t % 256)
    .val (.fin n r (-24))

/-- Deliver one lane: round to FP32, rne; a signalling NaN sets invalid (R259, R265). -/
def approxLane (f : Val → Approx) (w : W32) : W32 × FFlags :=
  let x := fp32.decode w.toNat
  let sig := if x.isSig then FFlags.invalid else FFlags.none
  match f x with
  | .code c fl => (BitVec.ofNat 32 c, fl.or sig)
  | .val y =>
    let r := roundF fp32 .rne y
    (BitVec.ofNat 32 r.1, r.2)

/-- The form of every approximation (R259). -/
def approx (i : Instr) (g : V2) (f : Val → Approx) (s : State) : Out :=
  s.slotRun i fun v u =>
    let a := v.vec g.a
    fpLanes u v 8 g.d (v.pred g.pr) fun j => approxLane f (laneAt a j)

def execRsqa (g : V2) (s : State) : Out := approx (.rsqa g) g rsqaOf s
def execRcpa (g : V2) (s : State) : Out := approx (.rcpa g) g rcpaOf s
def execExp2a (g : V2) (s : State) : Out := approx (.exp2a g) g exp2aOf s
def execLog2a (g : V2) (s : State) : Out := approx (.log2a g) g log2aOf s
def execSina (g : V2) (s : State) : Out := approx (.sina g) g (sinaOf 0) s
def execCosa (g : V2) (s : State) : Out := approx (.cosa g) g (sinaOf (2 ^ 16)) s
def execTanha (g : V2) (s : State) : Out := approx (.tanha g) g tanhaOf s

end Sys2Proof.Machine
end

