-- ==== Sys2Proof/Machine/Memory.lean ====
section
/-! DEFINITION. The memory slots MA and MB (R206 to R218): one meaning per instruction. -/

namespace Sys2Proof.Machine

/-! ### Checks (R207, R215, R305, R376) -/

/-- An address as the 64 bits of a stop record; a negative one is sign-extended. -/
def addrWord (a : Int) : W64 := BitVec.ofInt 64 a

/-- The lowest-numbered reason of R207 that fails on an active lane, and the address of the first lane that fails it. -/
def State.spbnd (s : State) (v : Env) (size : Nat) (l : List (Nat × Int)) : Option (Nat × Int) :=
  match l.find? fun e => !(decide (0 ≤ e.2) && decide (e.2.toNat + size ≤ 0x400000)) with
  | some e => some (1, e.2)
  | none =>
    match l.find? fun e => !s.inLaunchCarves v.x.launch v.t e.2.toNat size with
    | some e => some (2, e.2)
    | none =>
      match l.find? fun e => decide (e.2.toNat % size ≠ 0) with
      | some e => some (3, e.2)
      | none => none

/-- The groups of the windows of context c that are open in access cycle ac (R305). -/
def Engine.openGroups (e : Engine) (c ac : Nat) : List Nat :=
  e.items.flatMap fun i =>
    match i.kind with
    | .window gs _ _ _ => if i.ctx = c ∧ ac < i.due then gs else []
    | _ => []

/-- The first lane whose address lies in an open window of the context (R305 reason 1). -/
def Env.mbank (v : Env) (ac : Nat) (l : List (Nat × Int)) : Option Int :=
  let gs := v.e.openGroups v.c ac
  (l.find? fun e => gs.contains (groupOf e.2.toNat)).map fun e => e.2

/-- Whether bytes a to a + n - 1 meet an armed watchpoint for reads (w false) or writes (R376). -/
def Ctx.watched (x : Ctx) (w : Bool) (a n : Nat) : Bool :=
  x.dbg.attached && x.dbg.wps.any fun p =>
    (if w then p.2.w else p.2.r) && decide (a ≤ p.2.last) && decide (p.2.first < a + n)

/-- The stop of a memory slot after IENC, in the order of R215: SPBND, MBANK, WATCH; code, reason and address. -/
def State.memStop (s : State) (v : Env) (w : Bool) (size acc : Nat) (l : List (Nat × Int)) : Option (Nat × Nat × Int) :=
  match s.spbnd v size l with
  | some r => some (6, r.1, r.2)
  | none =>
    match v.mbank (v.e.ic + acc) l with
    | some a => some (3, 1, a)
    | none =>
      match l.find? fun e => v.x.watched w e.2.toNat size with
      | some e => some (0x0C, 0, e.2)
      | none => none

/-! ### Addresses (R209) -/

def areaBase (v : Env) (ar : BitVec 4) : Int := Int.ofNat (v.a ar).toNat

/-- The active lanes with their addresses. -/
def laneAddrs (v : Env) (pr : BitVec 4) (f : Nat → Int) : List (Nat × Int) := (lanesIn (v.pred pr)).map fun i => (i, f i)

def offAddr (v : Env) (g : MO) (i : Nat) : Int := areaBase v g.ar + g.off.toInt * 64 + 4 * Int.ofNat i
def wordAddr (v : Env) (g : MO) (_ : Nat) : Int := areaBase v g.ar + g.off.toInt * 4
def strideAddr (v : Env) (g : MS) (i : Nat) : Int :=
  areaBase v g.ar + g.off.toInt * 4 + Int.ofNat i * (v.s g.s).toInt
def indexAddr (v : Env) (g : MX) (idx : Lanes) (i : Nat) : Int := areaBase v g.ar + Int.ofNat (laneAt idx i).toNat
def scalarAddr (v : Env) (g : MSc) : Int := areaBase v g.ar + g.off.toInt * 8

def natAddrs (l : List (Nat × Int)) : List (Nat × Nat) := l.map fun e => (e.1, e.2.toNat)

/-! ### Shapes -/

/-- A vector load: checked, then an access in cycle acc whose data lands lat after it (R208, R209). -/
def State.loadLanes (s : State) (v : Env) (pr : BitVec 4) (d : BitVec 7) (acc lat : Nat) (l : List (Nat × Int)) : State :=
  match s.memStop v false 4 acc l with
  | some e => s.stopSlot v e.1 e.2.1 (addrWord e.2.2)
  | none => s.issue v acc (.load (v.target d) (v.pred pr) (natAddrs l) false lat)

/-- A vector store: data read at issue, written in cycle acc in ascending lane order (R210). -/
def State.storeLanes (s : State) (v : Env) (d : BitVec 7) (acc : Nat) (l : List (Nat × Int)) : State :=
  match s.memStop v true 4 acc l with
  | some e => s.stopSlot v e.1 e.2.1 (addrWord e.2.2)
  | none =>
    let x := v.vec d
    s.issue v acc (.store (maskOf fun n => l.any fun e => decide (e.1 = n))
      (l.map fun e => (e.2.toNat, (laneAt x e.1).setWidth 64)) 4)

/-! ### Loads and stores (R209 to R211) -/

def execVld (g : MO) (s : State) : Out :=
  s.slotRun (.vld g) fun v u => u.loadLanes v g.pr g.dm 2 4 (laneAddrs v g.pr (offAddr v g))

def execVldB (g : MO) (s : State) : Out :=
  s.slotRun (.vldB g) fun v u => u.loadLanes v g.pr g.dm 2 4 (laneAddrs v g.pr (wordAddr v g))

def execVldS (g : MS) (s : State) : Out :=
  s.slotRun (.vldS g) fun v u => u.loadLanes v g.pr g.dm 2 4 (laneAddrs v g.pr (strideAddr v g))

def execVldx (g : MX) (s : State) : Out :=
  s.slotRun (.vldx g) fun v u => u.loadLanes v g.pr g.dm 3 5 (laneAddrs v g.pr (indexAddr v g (v.vec g.vi)))

def execVst (g : MO) (s : State) : Out :=
  s.slotRun (.vst g) fun v u => u.storeLanes v g.dm 2 (laneAddrs v g.pr (offAddr v g))

def execVstS (g : MS) (s : State) : Out :=
  s.slotRun (.vstS g) fun v u => u.storeLanes v g.dm 2 (laneAddrs v g.pr (strideAddr v g))

def execVstx (g : MX) (s : State) : Out :=
  s.slotRun (.vstx g) fun v u => u.storeLanes v g.dm 3 (laneAddrs v g.pr (indexAddr v g (v.vec g.vi)))

/-- sld: 8 bytes to an s register and, their low half, to the latch (R211). -/
def execSld (g : MSc) (s : State) : Out :=
  s.slotRun (.sld g) fun v u =>
    let l := [(0, scalarAddr v g)]
    match u.memStop v false 8 2 l with
    | some e => u.stopSlot v e.1 e.2.1 (addrWord e.2.2)
    | none => u.issue v 2 (.load (.s g.s.toNat) 1 (natAddrs l) true 4)

def execSst (g : MSc) (s : State) : Out :=
  s.slotRun (.sst g) fun v u =>
    let l := [(0, scalarAddr v g)]
    match u.memStop v true 8 2 l with
    | some e => u.stopSlot v e.1 e.2.1 (addrWord e.2.2)
    | none => u.issue v 2 (.store 1 [((scalarAddr v g).toNat, v.s g.s)] 8)

/-! ### Spill slots (R212, R213) -/

/-- Where a spill slot lies. -/
inductive SpillPlace
  | carve (a : Nat)
  | overflow (va : Nat)
  | outside
  deriving DecidableEq, Repr

/-- The place of spill slot n for the context that issues (R212). -/
def State.spillPlace (s : State) (v : Env) (n : Nat) : SpillPlace :=
  let sp := recSpill v.r
  if n < sp then .carve ((s.carve v.t v.c).1 + n * 512)
  else if n < sp + recOvfSlots v.r then
    .overflow (recOvfVa v.r + v.x.task * recOvfSlots v.r * 512 + (n - sp) * 512)
  else .outside

def execSpill (g : MSp) (s : State) : Out :=
  s.slotRun (.spill g) fun v u =>
    match u.spillPlace v g.slot.toNat with
    | .outside => u.stopSlot v 7 0 0
    | .overflow va => u.issue v 2 (.spill va (v.pred g.pr) (v.vec g.dm) .latchOnly false)
    | .carve a => u.storeLanes v g.dm 2 (laneAddrs v g.pr fun i => Int.ofNat (a + 4 * i))

def execFill (g : MSp) (s : State) : Out :=
  s.slotRun (.fill g) fun v u =>
    match u.spillPlace v g.slot.toNat with
    | .outside => u.stopSlot v 7 0 0
    | .overflow va => u.issue v 2 (.spill va (v.pred g.pr) Lanes.zero (v.target g.dm) true)
    | .carve a => u.loadLanes v g.pr g.dm 2 4 (laneAddrs v g.pr fun i => Int.ofNat (a + 4 * i))

/-! ### Semaphores from the MB slot (R216 to R218) -/

/-- The acquire of a semaphore wait of the bundle engine for context c: the die merges the semaphore's clock, which a k.join
of the run hands on to the hart (R113, R120). -/
def State.acquireSem (s : State) (t c g : Nat) : State := (s.mergeDie (s.dieOf t) (s.sem t g).clock).keepLeft t c (s.sem t g).clock

/-- The engine holds a bundle: it is frozen until the generation comes (R216). -/
def State.holdBundle (s : State) (v : Env) : State :=
  s.modEngine v.t fun e => { e with
    cur := none,
    freezes := if e.freezes.any fun f => decide (f.cause = Cause.semwait) then e.freezes
      else e.freezes ++ [{ cause := .semwait, left := none, owner := v.c, pc := v.baddr }] }

/-- swait: the acquire when the generation has come, the hold of the whole bundle otherwise. It is executed before anything
else of its bundle, in the state that its test at the bundle boundary saw (R216). -/
def execSwait (g r : BitVec 6) (s : State) : Out :=
  s.slotRun (.swait g r) fun v u =>
    if (u.sem v.t g.toNat).reached ((v.s r).setWidth 16) then u.acquireSem v.t v.c g.toNat else u.holdBundle v

/-- spost: the reference is checked, and a count that is not zero is credited in the access cycle (R217). -/
def execSpost (r : BitVec 6) (scope : BitVec 3) (count : BitVec 13) (s : State) : Out :=
  s.slotRun (.spost r scope count) fun v u =>
    let w := v.s r
    if !u.semRefOk v.t v.c w then u.stopSlot v 6 4 w
    else if count = 0 then u
    else u.issue v 3 (.credit (refOn v.t w) (refAddr w) count.toNat scope.toNat)

def execSarm (g r : BitVec 6) (s : State) : Out :=
  s.slotRun (.sarm g r) fun v u => u.issue v 3 (.arm g.toNat ((v.s r).setWidth 32) false)

def execSarmZ (g r : BitVec 6) (s : State) : Out :=
  s.slotRun (.sarmZ g r) fun v u => u.issue v 3 (.arm g.toNat ((v.s r).setWidth 32) true)

end Sys2Proof.Machine
end

