-- ==== Sys2Proof/Machine/MatrixNum.lean ====
section
/-! DEFINITION. Matrix operand formats, scales and codebooks (R233 to R235, R303, R304), the numerics profiles (R236 to R241),
the storage of accumulators (R299, R300, R317), and the elements a drain and a row statistic read (R240, R311, R312). -/

namespace Sys2Proof.Machine

/-! ### Formats (R233) -/

/-- Families of R233. -/
inductive Fam
  | wide | exact | mx | kq
  deriving DecidableEq, Repr

/-- What an element's bits stand for. -/
inductive Elem
  | flt (f : FFmt)
  | int (signed : Bool) (w : Nat)
  /-- MXINT8: an INT8 value times 2 to the -6 -/
  | mxint
  /-- an index into a codebook -/
  | lut
  deriving DecidableEq, Repr

/-- Bits an element occupies, its meaning, its family, and the block size with ue for the UE5M3 scale (block 0: none). -/
structure MFmt where
  bits : Nat
  elem : Elem
  fam : Fam
  block : Nat
  ue : Bool
  deriving DecidableEq, Repr

/-- Elements of K in a 512-byte row. -/
def MFmt.kper (f : MFmt) : Nat := 4096 / f.bits

def wideF (b : Nat) (f : FFmt) : MFmt := ⟨b, .flt f, .wide, 0, false⟩
def exactF (b : Nat) (f : FFmt) : MFmt := ⟨b, .flt f, .exact, 0, false⟩
def exactI (b : Nat) (s : Bool) : MFmt := ⟨b, .int s b, .exact, 0, false⟩
def mxF (b : Nat) (f : FFmt) : MFmt := ⟨b, .flt f, .mx, 32, false⟩

/-- The format codes of R233; none for 0x1C to 0x1F. -/
def mfmtOf (code : Nat) : Option MFmt := match code with
  | 0x00 => some (wideF 32 fp32)
  | 0x01 => some (wideF 32 fp22)
  | 0x02 => some (wideF 16 bf16)
  | 0x03 => some (wideF 16 fp16)
  | 0x04 => some ⟨4, .lut, .wide, 0, false⟩
  | 0x05 => some ⟨2, .lut, .wide, 0, false⟩
  | 0x06 => some (exactI 16 true)
  | 0x07 => some (exactF 8 e5m2)
  | 0x08 => some (exactF 8 e4m3)
  | 0x09 => some (exactF 8 e3m4)
  | 0x0A => some (exactF 8 e3m2)
  | 0x0B => some (exactF 8 e2m3)
  | 0x0C => some (exactF 4 e2m1)
  | 0x0D => some (exactI 8 true)
  | 0x0E => some (exactI 8 false)
  | 0x0F => some (exactI 4 true)
  | 0x10 => some (exactI 4 false)
  | 0x11 => some (exactI 2 true)
  | 0x12 => some (mxF 8 e5m2)
  | 0x13 => some (mxF 8 e4m3)
  | 0x14 => some (mxF 8 e3m2)
  | 0x15 => some (mxF 8 e2m3)
  | 0x16 => some (mxF 4 e2m1)
  | 0x17 => some ⟨8, .mxint, .mx, 32, false⟩
  | 0x18 => some ⟨4, .flt e2m1, .kq, 64, true⟩
  | 0x19 => some ⟨8, .flt e2m3, .kq, 64, true⟩
  | 0x1A => some ⟨4, .int true 4, .kq, 64, true⟩
  | 0x1B => some ⟨8, .flt e4m3, .kq, 64, false⟩
  | _ => none

/-- Whether a profile accepts a format code (R236). -/
def profileTakes (pf code : Nat) : Bool := match pf with
  | 0 => decide (code ≤ 5)
  | 1 => decide (2 ≤ code) && decide (code ≤ 5)
  | 2 => decide (6 ≤ code) && decide (code ≤ 0x1B)
  | _ => [0x06, 0x0D, 0x0E, 0x0F, 0x10, 0x11].contains code

/-! ### Elements (R234, R235, R304) -/

/-- The raw bits of element k of a row (R234). -/
def rawElem (bits : Nat) (row : Array Byte) (k : Nat) : Nat :=
  let b (i : Nat) : Nat := (row.getD i 0).toNat
  match bits with
  | 32 => b (4 * k) + 2 ^ 8 * b (4 * k + 1) + 2 ^ 16 * b (4 * k + 2) + 2 ^ 24 * b (4 * k + 3)
  | 16 => b (2 * k) + 2 ^ 8 * b (2 * k + 1)
  | 8 => b k
  | 4 => if k % 2 = 0 then b (k / 2) % 16 else b (k / 2) / 16
  | _ => b (k / 4) / 4 ^ (k % 4) % 4

/-- The value of an element's own bits. -/
def elemVal (e : Elem) (book : BitVec 256) (raw : Nat) : Val :=
  match e with
  | .flt f => f.decode raw
  | .int s w => (LFmt.i s w).decode raw
  | .mxint =>
    match (LFmt.i true 8).decode raw with
    | .fin n m _ => .fin n m (-6)
    | v => v
  | .lut => bf16.decode ((book.extractLsb' (16 * raw) 16).toNat)

/-- The value of a scale code (R235). -/
def scaleVal (ue : Bool) (code : Nat) : Val :=
  if code = 255 then .nan false
  else if ue then
    if code / 8 = 0 then .fin false (code % 8) (-17) else .fin false (8 + code % 8) (Int.ofNat (code / 8) - 18)
  else .fin false 1 (Int.ofNat code - 127)

/-- The operand of an mma at a local address: row r, the first K elements, scales read at scale + r K / B (R303, R304). -/
def State.operandRow (s : State) (t : Nat) (f : MFmt) (addr scale K : Nat) (book : BitVec 256) (r : Nat) : List Val :=
  let row := (s.localBytes t (addr + 512 * r) 512).toArray
  let scales := if f.block = 0 then #[] else (s.localBytes t (scale + r * (K / f.block)) (K / f.block)).toArray
  (List.range K).map fun k =>
    let v := elemVal f.elem book (rawElem f.bits row k)
    if f.block = 0 then v else v.mul (scaleVal f.ue (scales.getD (k / f.block) 0).toNat)

/-! ### Profiles 0 and 1 (R237, R238) -/

/-- round(x, fp32, rne) as a value again. -/
def round32 (v : Val) : Val := fp32.decode (roundF fp32 .rne v).1

def addRound (a b : Val) : Val := round32 (a.add false b)

/-- One level of the tree: neighbours added. -/
def pairUp (op : Val → Val → Val) : List Val → List Val
  | a :: b :: l => op a b :: pairUp op l
  | l => l

/-- The four rounded levels of a group of 16 (R237). -/
def group0 (w : List Val) : Val := (pairUp addRound (pairUp addRound (pairUp addRound (pairUp addRound w)))).headD Val.zero

/-- The exact sum of a group, rounded once (R238). -/
def group1 (w : List Val) : Val :=
  match w with
  | [] => Val.zero
  | x :: l => round32 (l.foldl (fun a b => a.add false b) x)

/-- The sums of the groups of 16 of a list of products; fuel is the number of groups. -/
def groupSums (g : List Val → Val) : Nat → List Val → List Val
  | 0, _ => []
  | n + 1, w => g (w.take 16) :: groupSums g n (w.drop 16)

/-- The chain over the group sums, from the accumulator or from the first sum (R237). -/
def chain (acc : Option Val) (sums : List Val) : Val :=
  match acc, sums with
  | some a, l => l.foldl addRound a
  | none, x :: l => l.foldl addRound x
  | none, [] => Val.zero

/-- One element under profile 0 or 1: products rounded first when both formats are FP32. -/
def dotFloat (pf : Nat) (both32 : Bool) (acc : Option Val) (a b : List Val) : W32 :=
  let w := List.zipWith (fun x y => if both32 then round32 (x.mul y) else x.mul y) a b
  let sums := groupSums (if pf = 0 then group0 else group1) (w.length / 16) w
  BitVec.ofNat 32 (roundF fp32 .rne (chain acc sums)).1

/-! ### Profiles 3 and 4 (R241) -/

/-- A value that is a whole number. -/
def Val.whole : Val → Int
  | .fin n m e => scaled n m e 0
  | _ => 0

def dotInt (sat : Bool) (acc : Int) (a b : List Val) : W32 :=
  let v := acc + (List.zipWith (fun x y => x.whole * y.whole) a b).foldl (· + ·) 0
  if sat then BitVec.ofInt 32 (if v < -(2 ^ 31) then -(2 ^ 31) else if 2 ^ 31 - 1 < v then 2 ^ 31 - 1 else v)
  else BitVec.ofInt 32 v

/-! ### Profile 2 (R239) -/

/-- An exact element (R239). -/
structure Exact where
  value : Int
  nan : Bool
  pinf : Bool
  ninf : Bool
  ovf : Bool
  osign : Bool
  deriving DecidableEq, Repr

def Exact.zero : Exact := ⟨0, false, false, false, false, false⟩

/-- Whether floor(x times 2 to the 192) discards a part that is not zero. -/
def lossy (m : Nat) (e : Int) : Bool := decide (e + 192 < 0) && decide (m % 2 ^ (-(e + 192)).toNat ≠ 0)

/-- One instruction on one exact element: the element, whether a contribution was truncated, whether it overflowed now. -/
def dotExact (accum : Bool) (x : Exact) (a b : List Val) : Exact × Bool × Bool :=
  let prods := List.zipWith Val.mul a b
  let x0 := if accum then x else { Exact.zero with value := x.value, osign := x.osign }
  let nan := prods.any Val.isNan
  let pinf := prods.any fun p => match p with
    | .inf n => !n
    | _ => false
  let ninf := prods.any fun p => match p with
    | .inf n => n
    | _ => false
  let t := prods.foldl (fun acc p => match p with
    | .fin n m e => acc + floorScaled n m e 192
    | _ => acc) (0 : Int)
  let loss := prods.any fun p => match p with
    | .fin _ m e => lossy m e
    | _ => false
  let y := { x0 with nan := x0.nan || nan, pinf := x0.pinf || pinf, ninf := x0.ninf || ninf }
  if y.ovf then (y, loss, false)
  else
    let v := if accum then x.value + t else t
    if 2 ^ 319 - 1 < v then ({ y with value := 2 ^ 319 - 1, ovf := true, osign := false }, loss, true)
    else if v < -(2 ^ 319) then ({ y with value := -(2 ^ 319), ovf := true, osign := true }, loss, true)
    else ({ y with value := v }, loss, false)

/-! ### Storage (R299, R300, R317) -/

/-- Words of a unit not written: zero. -/
def zeroUnit : List W32 := List.replicate 4096 0

def Bun.unitOf (b : Bun) (u : Nat) : List W32 := tabGet zeroUnit b.unit u
def Bun.kindOf (b : Bun) (u : Nat) : Nat := tabGet 0 b.kind u
def Bun.sideOf (b : Bun) (x : Nat) : Side := tabGet Side.reset b.side x

/-- The units an accumulator code names: one, or the ten of an exact accumulator. -/
def accUnits (code : Nat) : List Nat :=
  if code < 20 then [code] else (List.range 10).map fun u => u + 10 * (code - 20)

/-- Whether two codes share a unit (R307). -/
def accOverlap (a b : Nat) : Bool := (accUnits a).any fun u => (accUnits b).contains u

/-- Whether exact accumulator x is in use (R300). -/
def Bun.exactUsed (b : Bun) (x : Nat) : Bool := (accUnits (20 + x)).all fun u => decide (b.kindOf u = 3)

/-- The state byte of an exact element (R317). -/
def Exact.byte (x : Exact) : Byte := (0 : BitVec 3) ++ bit x.osign ++ bit x.ovf ++ bit x.ninf ++ bit x.pinf ++ bit x.nan

/-- Element k of an exact accumulator, from its ten units and its side store (R317). -/
def exactAt (units : List (Array W32)) (side : Array Byte) (k : Nat) : Exact :=
  let n := ((List.range 10).map fun u => ((units.getD u #[]).getD k 0).toNat * 2 ^ (32 * u)).foldl (· + ·) 0
  let st := side.getD k 0
  ⟨(BitVec.ofNat 320 n).toInt, st.getLsbD 0, st.getLsbD 1, st.getLsbD 2, st.getLsbD 3, st.getLsbD 4⟩

/-- The 4,096 elements of exact accumulator x. -/
def Bun.exactElems (b : Bun) (x : Nat) : List Exact :=
  let units := (accUnits (20 + x)).map fun u => (b.unitOf u).toArray
  let side := (b.sideOf x).bytes.toArray
  (List.range 4096).map fun k => exactAt units side k

/-- Word u of VALUE. -/
def Exact.word (x : Exact) (u : Nat) : W32 := (BitVec.ofInt 320 x.value).extractLsb' (32 * u) 32

/-- Store the elements of exact accumulator x and its summary flags, and put it in use (R300, R317). -/
def Bun.putExact (b : Bun) (x : Nat) (l : List Exact) (loss ovf : Bool) : Bun :=
  let us := List.range 10
  { b with
    unit := us.foldl (fun tb u => tabPut tb (u + 10 * x) (l.map fun e => e.word u)) b.unit,
    kind := us.foldl (fun tb u => tabPut tb (u + 10 * x) 3) b.kind,
    side := tabPut b.side x { bytes := l.map Exact.byte, loss := loss, ovf := ovf } }

/-- A plain accumulator whose KIND is 3 leaves its group: the other units and the exact state become empty (R300). -/
def Bun.leaveExact (b : Bun) (u : Nat) : Bun :=
  if b.kindOf u = 3 then
    let x := u / 10
    let us := accUnits (20 + x)
    { b with unit := us.foldl tabDel b.unit, kind := us.foldl tabDel b.kind, side := tabDel b.side x }
  else b

/-- Store plain accumulator u with a kind. -/
def Bun.putPlain (b : Bun) (u kind : Nat) (l : List W32) : Bun :=
  let b := b.leaveExact u
  { b with unit := tabPut b.unit u l, kind := tabPut b.kind u kind }

/-- KIND of an accumulator as an mma sets it at its issue (R300, R306). -/
def Bun.tagAcc (b : Bun) (code kind : Nat) : Bun :=
  let b := if code < 20 then b.leaveExact code else b
  { b with kind := (accUnits code).foldl (fun l u => tabPut l u kind) b.kind }

/-- An accumulator takes the result of an mma (R306, R317). -/
def Bun.putAcc (b : Bun) (code : Nat) (d : AccData) : Bun :=
  let b := b.tagAcc code d.kind
  { b with
    unit := ((accUnits code).zip d.units).foldl (fun l e => tabPut l e.1 e.2) b.unit
    side := match d.side with
      | some x => tabPut b.side (code - 20) x
      | none => b.side }

/-- An accumulator as the result of an mma. -/
def Bun.accData (b : Bun) (code : Nat) (fmt : BitVec 586) (prof : Nat) : AccData :=
  { kind := b.kindOf (if code < 20 then code else 10 * (code - 20)),
    units := (accUnits code).map b.unitOf,
    side := if code < 20 then none else some (b.sideOf (code - 20)),
    fmt := fmt,
    prof := prof }

/-- mzero's effect (R310). -/
def Bun.mzero (b : Bun) (code : Nat) : Bun :=
  if code < 20 then
    let b := b.leaveExact code
    { b with unit := tabDel b.unit code, kind := tabDel b.kind code }
  else b.putExact (code - 20) (List.replicate 4096 Exact.zero) false false

/-! ### What mdrain and rstat read (R240, R311) -/

/-- d of R240 for an exact element. -/
def Exact.val (x : Exact) : Val :=
  if x.nan || (x.pinf && x.ninf) then .nan false
  else if x.pinf then .inf false
  else if x.ninf then .inf true
  else if x.ovf then .inf x.osign
  else ofUnits x.value (-192)

/-- The values of the 4,096 elements of an accumulator (R311). -/
def Bun.accVals (b : Bun) (code : Nat) : List Val :=
  if code < 20 then
    match b.kindOf code with
    | 0 => List.replicate 4096 Val.zero
    | 1 => (b.unitOf code).map fun w => fp32.decode w.toNat
    | _ => (b.unitOf code).map fun w => (LFmt.i true 32).decode w.toNat
  else (b.exactElems (code - 20)).map Exact.val

/-- MPROF reason 6 of a drain or a statistic: the tag does not fit the code (R311, R312). -/
def Bun.accMismatch (b : Bun) (code : Nat) : Bool :=
  if code < 20 then decide (b.kindOf code = 3) else !b.exactUsed (code - 20)

/-- Bits of a drained element (R311). -/
def drainBits (dfmt : Nat) : Nat := match dfmt with
  | 0 => 32
  | 13 => 32
  | 14 => 32
  | 1 => 16
  | 2 => 16
  | 11 => 16
  | 12 => 16
  | 8 => 4
  | _ => 8

/-- The bytes of drained elements: FP4 packs two in a byte (R234, R311). -/
def packDrain (bits : Nat) : List W32 → List Byte
  | [] => []
  | a :: l =>
    if bits = 4 then
      match l with
      | [] => [(a.extractLsb' 0 4).setWidth 8]
      | b :: l' => (b.extractLsb' 0 4 ++ a.extractLsb' 0 4 : BitVec 8) :: packDrain bits l'
    else bytesOf a (bits / 8) ++ packDrain bits l

/-- The largest of two terms as fmax takes it, without FTZ (R248, R312). -/
def maxVal (a b : Val) : Val :=
  if a.isNan || b.isNan then .nan false else if a.lt true b then b else a

def absVal : Val → Val
  | .fin _ m e => .fin false m e
  | .inf _ => .inf false
  | v => v

/-- The six levels of the tree of R312. -/
def tree64 (op : Val → Val → Val) (w : List Val) : Val :=
  let f := pairUp op
  (f (f (f (f (f (f w)))))).headD Val.zero

/-- The lanes of rstat for STAT 0 to 3 (R312). -/
def rstatLanes (stat : Nat) (x : List Val) : Lanes :=
  let r := (x.map round32).toArray
  let term (v : Val) : Val := match stat with
    | 1 => round32 (v.mul v)
    | 3 => absVal v
    | _ => v
  let op : Val → Val → Val := if stat ≤ 1 then addRound else maxVal
  lanesOf fun i =>
    let w := (List.range 64).map fun c => term (if i < 64 then r.getD (64 * i + c) Val.zero else r.getD (64 * c + (i - 64)) Val.zero)
    BitVec.ofNat 32 (roundF fp32 .rne (tree64 op w)).1

end Sys2Proof.Machine
end

