-- ==== Sys2Proof/Machine/Matrix.lean ====
section
/-! DEFINITION. The matrix and row-statistics instructions of the X slot (R301 to R312): one meaning per instruction. -/

namespace Sys2Proof.Machine

/-! ### Engines, windows (R305, R307) -/

/-- Whether the matrix engine (rs false) or the row-statistics engine is occupied by context c. -/
def Engine.busyBy (e : Engine) (rs : Bool) (c : Nat) : Bool :=
  e.items.any fun i => match i.kind with
    | .busy r _ => decide (i.ctx = c) && decide (r = rs)
    | _ => false

/-- Whether an accumulator of context c is pending (R307). -/
def Engine.accPending (e : Engine) (c code : Nat) : Bool :=
  e.items.any fun i => match i.kind with
    | .accPending a _ => decide (i.ctx = c) && accOverlap a code
    | _ => false

/-- The bundle context with the result that the latest mma into an accumulator is to leave, which the next one chains from
(R236, R307). -/
def Engine.chained (e : Engine) (c code : Nat) (b : Bun) : Bun :=
  let l := e.items.filterMap fun i => match i.kind with
    | .accPending a d => if i.ctx = c ∧ a = code then some (i.due, d) else none
    | _ => none
  match l.find? fun x => l.all fun y => decide (y.1 ≤ x.1) with
  | some x => b.putAcc code x.2
  | none => b

/-- Whether an accumulator of context c is still read: by rstat, or by mdrain too if both (R307). -/
def Engine.accRead (e : Engine) (c code : Nat) (both : Bool) : Bool :=
  e.items.any fun i => match i.kind with
    | .busy r a => decide (i.ctx = c) && (r || both) && accOverlap a code
    | _ => false

/-- The groups an access reaches in its access cycle, the cycle itself (R305). -/
def Item.accessGroups (i : Item) : List Nat :=
  match i.kind with
  | .load _ _ l _ _ => l.map fun a => groupOf a.2
  | .store _ l _ => l.map fun a => groupOf a.1
  | .fmtC _ a => [groupOf a]
  | _ => []

/-- Whether an access of context c already issued falls in a window over groups gs for n access cycles from now,
those of this cycle included (R305). -/
def Engine.accessIn (e : Engine) (c n : Nat) (gs : List Nat) : Bool :=
  (e.items.any fun i => decide (i.ctx = c) && decide (i.due < e.ic + n) && i.accessGroups.any gs.contains)
    || (decide (e.touched.1 = e.ic) && e.touched.2.any fun a => decide (a.1 = c) && gs.contains a.2)

/-- A range of bytes that lies in one bank group. -/
def oneGroup (a n : Nat) : Bool := decide (a / 0x100000 = (a + n - 1) / 0x100000)

/-- Ranges of bytes with the alignment each must have, checked in the order of R207 and R309. -/
def State.xSpbnd (s : State) (v : Env) (l : List (Nat × Nat × Nat)) : Option (Nat × Nat) :=
  match l.find? fun r => decide (0x400000 < r.1 + r.2.1) with
  | some r => some (1, r.1)
  | none =>
    match l.find? fun r => !s.inLaunchCarves v.x.launch v.t r.1 r.2.1 with
    | some r => some (2, r.1)
    | none =>
      match l.find? fun r => decide (r.1 % r.2.2 ≠ 0) with
      | some r => some (3, r.1)
      | none => none

/-! ### Format-pair entries (R301, R302) -/

def Bun.fmtEnt (b : Bun) (n : Nat) : BitVec 586 := tabGet 0 b.fmt n

/-- n bits of an entry from bit lo replaced (R301). -/
def setBits {w : Nat} (x : BitVec w) (lo n : Nat) (val : Nat) : BitVec w :=
  let keep := x.toNat % 2 ^ lo + x.toNat / 2 ^ (lo + n) * 2 ^ (lo + n)
  BitVec.ofNat w (keep + val % 2 ^ n * 2 ^ lo)

/-- mset.f: AFMT from bits [4:0], BFMT from [12:8] (R302). -/
def execMsetF (ent : BitVec 4) (r : BitVec 6) (s : State) : Out :=
  s.slotRun (.msetF ent r) fun v u =>
    let w := v.s r
    u.issue v 1 (.fmtBits ent.toNat 0 10 ((w.extractLsb' 8 5 ++ w.extractLsb' 0 5 : BitVec 10).setWidth 512))

/-- mset.s: ASCALE from the a register, BSCALE from the s register (R302). -/
def execMsetS (ent : BitVec 4) (r : BitVec 6) (a : BitVec 4) (s : State) : Out :=
  s.slotRun (.msetS ent r a) fun v u =>
    u.issue v 1 (.fmtBits ent.toNat 10 64 (((v.s r).extractLsb' 0 32 ++ v.a a : BitVec 64).setWidth 512))

/-- mset.c: the codebooks from 64 bytes, read in access cycle issue + 2, landing at issue + 3 (R302). -/
def execMsetC (ent : BitVec 4) (a : BitVec 4) (s : State) : Out :=
  s.slotRun (.msetC ent a) fun v u =>
    let ad := (v.a a).toNat
    match u.xSpbnd v [(ad, 64, 64)] with
    | some e => u.stopSlot v 6 e.1 (BitVec.ofNat 64 e.2)
    | none =>
      if (v.e.openGroups v.c (v.e.ic + 2)).contains (groupOf ad) then u.stopSlot v 3 1 (BitVec.ofNat 64 ad)
      else if v.x.watched false ad 64 then u.stopSlot v 0x0C 0 (BitVec.ofNat 64 ad)
      else u.issue v 2 (.fmtC ent.toNat ad)

/-! ### mma (R303 to R308) -/

/-- What an mma reads and checks: its entry's formats, depth, and the byte ranges with their alignment. -/
structure MmaOps where
  fa : MFmt
  fb : MFmt
  k : Nat
  a : Nat
  b : Nat
  sa : Nat
  sb : Nat
  acb : BitVec 256
  bcb : BitVec 256

def scaleBytes (f : MFmt) (k : Nat) : Nat := if f.block = 0 then 0 else 64 * (k / f.block)

def MmaOps.scales (o : MmaOps) : List (Nat × Nat × Nat) :=
  (if o.fa.block = 0 then [] else [(o.sa, scaleBytes o.fa o.k, 64)])
    ++ (if o.fb.block = 0 then [] else [(o.sb, scaleBytes o.fb o.k, 64)])

def MmaOps.ranges (o : MmaOps) : List (Nat × Nat × Nat) := [(o.a, 0x8000, 512), (o.b, 0x8000, 512)] ++ o.scales

/-- The bytes of an operand that its first K elements a row take (R303). -/
def operandReads (a k : Nat) (f : MFmt) : List (Nat × Nat) :=
  let n := (k * f.bits + 7) / 8
  if 512 ≤ n then [(a, 0x8000)] else (List.range 64).map fun i => (a + 512 * i, n)

/-- The bytes an mma reads: of the rows that hold more than K elements not the rest (R303, R305). -/
def MmaOps.reads (o : MmaOps) : List (Nat × Nat) :=
  operandReads o.a o.k o.fa ++ operandReads o.b o.k o.fb ++ o.scales.map fun r => (r.1, r.2.1)

/-- MBANK reason 3 of an mma: an operand or a scale area not wholly in its operand's group (R305). -/
def MmaOps.split (o : MmaOps) : Bool :=
  !(oneGroup o.a 0x8000 && oneGroup o.b 0x8000)
    || (decide (o.fa.block ≠ 0) && !(oneGroup o.sa (scaleBytes o.fa o.k) && decide (groupOf o.sa = groupOf o.a)))
    || (decide (o.fb.block ≠ 0) && !(oneGroup o.sb (scaleBytes o.fb o.k) && decide (groupOf o.sb = groupOf o.b)))

/-- MPROF of an mma, in the order of R308: the reason. -/
def mprof (b : Bun) (prof pf code : Nat) (fa fb : Nat) (accum : Bool) : Option Nat :=
  if 5 ≤ prof ∧ prof ≤ 14 ∨ 4 < pf then some 1
  else match mfmtOf fa, mfmtOf fb with
    | some x, some y =>
      if x.fam ≠ y.fam then some 3
      else if !(profileTakes pf fa && profileTakes pf fb) then some 4
      else if (pf = 2 ∧ code < 20) ∨ (pf ≠ 2 ∧ 20 ≤ code) then some 5
      else
        let fits : Bool :=
          if code < 20 then
            decide (b.kindOf code = 0) || decide (b.kindOf code = if pf ≤ 1 then 1 else 2)
          else b.exactUsed (code - 20)
        if accum ∧ !fits then some 6 else none
    | _, _ => some 2

/-- The accumulator after an mma (R236 to R241, R306). -/
def State.mmaResult (s : State) (t : Nat) (b : Bun) (o : MmaOps) (pf code : Nat) (accum both32 : Bool) : Bun :=
  let rows := (List.range 64).map fun i => s.operandRow t o.fa o.a o.sa o.k o.acb i
  let cols := (List.range 64).map fun j => s.operandRow t o.fb o.b o.sb o.k o.bcb j
  if code < 20 then
    let old := (b.unitOf code).toArray
    let kind := b.kindOf code
    let l := (List.range 64).flatMap fun i => (List.range 64).map fun j =>
      let w := old.getD (64 * i + j) 0
      let ra := rows.getD i []
      let cb := cols.getD j []
      if pf ≤ 1 then
        dotFloat pf both32 (if accum then some (if kind = 0 then Val.zero else fp32.decode w.toNat) else none) ra cb
      else dotInt (decide (pf = 4)) (if accum ∧ kind ≠ 0 then w.toInt else 0) ra cb
    b.putPlain code (if pf ≤ 1 then 1 else 2) l
  else
    let x := code - 20
    let old := (if b.exactUsed x then b.exactElems x else []).toArray
    let rs := (List.range 64).flatMap fun i => (List.range 64).map fun j =>
      dotExact accum (old.getD (64 * i + j) Exact.zero) (rows.getD i []) (cols.getD j [])
    let sd := if b.exactUsed x then b.sideOf x else Side.reset
    b.putExact x (rs.map fun r => r.1) (sd.loss || rs.any fun r => r.2.1) (sd.ovf || rs.any fun r => r.2.2)

/-- mma and mma.acc (R306): checks in the order MBUSY, MPROF, SPBND, MBANK, WATCH (R309). -/
def mmaRun (i : Instr) (g : XM) (accum : Bool) (s : State) : Out :=
  s.slotRun i fun v u =>
    let code := g.acc.toNat
    let ent := v.x.bun.fmtEnt g.fpe.toNat
    let fa := fieldNat ent 4 0
    let fb := fieldNat ent 9 5
    let prof := g.prof.toNat
    let pf := if prof = 15 then recProfile v.r else prof
    if v.e.busyBy false v.c then u.stopSlot v 4 1 0
    else if v.e.accRead v.c code false then u.stopSlot v 4 4 0
    else match mprof v.x.bun prof pf code fa fb accum with
      | some r => u.stopSlot v 5 r 0
      | none =>
        match mfmtOf fa, mfmtOf fb with
        | some x, some y =>
          let o : MmaOps := {
            fa := x, fb := y, k := Nat.min x.kper y.kper, a := (v.a g.aa).toNat, b := (v.a g.ab).toNat,
            sa := fieldNat ent 41 10, sb := fieldNat ent 73 42, acb := ent.extractLsb' 74 256, bcb := ent.extractLsb' 330 256 }
          let gs := [groupOf o.a, groupOf o.b]
          match u.xSpbnd v o.ranges with
          | some e => u.stopSlot v 6 e.1 (BitVec.ofNat 64 e.2)
          | none =>
            if o.split then u.stopSlot v 3 3 0
            else if groupOf o.a = groupOf o.b then u.stopSlot v 3 2 0
            else if v.e.accessIn v.c 128 gs then u.stopSlot v 3 1 0
            else match o.ranges.find? fun r => v.x.watched false r.1 r.2.1 with
              | some r => u.stopSlot v 0x0C 0 (BitVec.ofNat 64 r.1)
              | none =>
                let b := u.mmaResult v.t (v.e.chained v.c code v.x.bun) o pf code accum (decide (fa = 0) && decide (fb = 0))
                let d := b.accData code ent pf
                let u := u.modBun v.t v.c fun b => b.tagAcc code d.kind
                let u := u.issue v 128 (.busy false code)
                let u := u.issue v 128 (.window gs code o.reads false)
                u.issue v 160 (.accPending code d)
        | _, _ => u.stopSlot v 5 2 0

def execMma (g : XM) (s : State) : Out := mmaRun (.mma g) g false s
def execMmaAcc (g : XM) (s : State) : Out := mmaRun (.mmaAcc g) g true s

/-! ### mzero (R310), mdrain (R311), rstat (R312) -/

def execMzero (acc : BitVec 5) (s : State) : Out :=
  s.slotRun (.mzero acc) fun v u =>
    if v.e.accPending v.c acc.toNat || v.e.accRead v.c acc.toNat true then u.stopSlot v 4 4 0
    else u.issue v 1 (.mzero acc.toNat)

def execMdrain (g : XD) (s : State) : Out :=
  s.slotRun (.mdrain g) fun v u =>
    let code := g.acc.toNat
    let bits := drainBits g.dfmt.toNat
    let a := (v.a g.ad).toNat
    let n := 512 * bits
    if v.e.busyBy false v.c then u.stopSlot v 4 1 0
    else if v.e.accPending v.c code then u.stopSlot v 4 2 0
    else if v.x.bun.accMismatch code then u.stopSlot v 5 6 0
    else match u.xSpbnd v [(a, n, 64)] with
      | some e => u.stopSlot v 6 e.1 (BitVec.ofNat 64 e.2)
      | none =>
        if !oneGroup a n then u.stopSlot v 3 3 0
        else if v.e.accessIn v.c 80 [groupOf a] then u.stopSlot v 3 1 0
        else if v.x.watched true a n then u.stopSlot v 0x0C 0 (BitVec.ofNat 64 a)
        else
          let sr := v.x.bun.srCount
          let u := if g.rnd = 5 then u.srAdvance v else u
          let fmt := (lfmtOf g.dfmt.toNat).getD (.f fp32)
          let rs := ((List.range 4096).zip (v.x.bun.accVals code)).map fun e => fmt.round (cvtMode v sr g.rnd e.1) e.2
          let u := u.issue v 80 (.busy false code)
          let u := u.issue v 80 (.window [groupOf a] code [] false)
          u.issue v 80 (.drain a (packDrain bits (rs.map Prod.fst)) (orFlags (rs.map Prod.snd)).bits)

def execRstat (g : XR) (s : State) : Out :=
  s.slotRun (.rstat g) fun v u =>
    let code := g.acc.toNat
    if v.e.accPending v.c code then u.stopSlot v 4 2 0
    else if v.e.busyBy true v.c then u.stopSlot v 4 3 0
    else if g.stat = 4 ∧ code < 20 then u.stopSlot v 5 5 0
    else if v.x.bun.accMismatch code then u.stopSlot v 5 6 0
    else
      let u := u.issue v 16 (.busy true code)
      if g.stat = 4 then
        let sd := v.x.bun.sideOf (code - 20)
        let w : W32 := BitVec.ofNat 32 ((if sd.loss then 1 else 0) + (if sd.ovf then 2 else 0))
        let u := u.modBun v.t v.c fun b =>
          { b with side := tabPut b.side (code - 20) { b.sideOf (code - 20) with loss := false, ovf := false } }
        u.issueV v 40 g.d Mask.full (lanesOf fun _ => w) 0
      else u.issueV v 40 g.d Mask.full (rstatLanes g.stat.toNat (v.x.bun.accVals code)) 0

end Sys2Proof.Machine
end

