-- ==== Sys2Proof/Machine/Loops.lean ====
section
/-! DEFINITION. The loop engine (R277 to R285): the run descriptor and its check, the order in which a run issues its bundles,
and the markers, block counters and yields that a bundle holds (R203 to R205, R368 to R370). -/

namespace Sys2Proof.Machine

/-! ### The run descriptor (R277, R278) -/

def rdStart (d : Rec64) : Nat := fieldNat d 12 0
def rdKlen (d : Rec64) : Nat := fieldNat d 29 16
def rdPlen (d : Rec64) : Nat := fieldNat d 45 32
def rdElen (d : Rec64) : Nat := fieldNat d 61 48
def rdRot (d : Rec64) : Bool := fieldBit d 64
def rdKo (d : Rec64) : Bool := fieldBit d 65
def rdS (d : Rec64) : Nat := fieldNat d 69 66
def rdOuter (d : Rec64) : Nat := fieldNat d 72 70
def rdWen (d : Rec64) : Bool := fieldBit d 73
def rdWg (d : Rec64) : Nat := fieldNat d 79 74
def rdWgen (d : Rec64) : W16 := d.extractLsb' 80 16
def rdPen (d : Rec64) : Bool := fieldBit d 96
def rdPscope (d : Rec64) : Nat := fieldNat d 99 97
def rdPtile (d : Rec64) : Nat := fieldNat d 108 100
def rdPg (d : Rec64) : Nat := fieldNat d 114 109
def rdPcnt (d : Rec64) : Nat := fieldNat d 127 115

/-- TRIP of level l; level 0 is the kernel. -/
def rdTrip (d : Rec64) (l : Nat) : Nat := if l = 0 then fieldNat d 159 128 else fieldNat d (159 + 16 * l) (144 + 16 * l)

/-- Increment entry e (R278). -/
def rdInc (d : Rec64) (e : Nat) : W32 := d.extractLsb' (256 + 32 * e) 32
def incValid (w : W32) : Bool := w.getLsbD 31
def incLvl (w : W32) : Nat := fieldNat w 30 28

/-- The register and the amount of an increment entry. -/
def incReg (w : W32) : Nat := fieldNat w 27 24
def incAmount (w : W32) : W32 := (w.extractLsb' 0 22).signExtend 32

/-- The valid entries of level l, in ascending order. -/
def rdPend (d : Rec64) (l : Nat) : List Nat :=
  (List.range 8).filter fun e => incValid (rdInc d e) && decide (incLvl (rdInc d e) = l)

/-! ### The check of a run (R279) -/

/-- RUNBAD with its reason, RUNSHORT, or none: code and reason. -/
def State.runCheck (s : State) (t c : Nat) (e : RunEntry) : Option (Nat × Nat) :=
  let d := e.desc
  let r := s.recOf t c
  let incs := (List.range 8).map (rdInc d)
  if e.malformed || !zeroFields d [(255, 240), (63, 62), (47, 46), (31, 30), (15, 13)]
      || incs.any (fun w => if incValid w then decide (fieldNat w 23 22 ≠ 0) else decide (w ≠ 0)) then some (9, 1)
  else if rdKlen d = 0 ∨ 8192 < rdKlen d ∨ 8192 < rdStart d + rdPlen d + rdKlen d + rdElen d then some (9, 2)
  else if (rdRot d && (decide (recWin r ≠ 6) || decide (rdS d = 0) || decide (8 < rdS d)))
      || (!rdRot d && (decide (rdS d ≠ 0) || rdKo d)) then some (9, 3)
  else if decide (5 < rdOuter d)
      || (List.range 5).any (fun i => if i < rdOuter d then decide (rdTrip d (i + 1) = 0) else decide (rdTrip d (i + 1) ≠ 0))
      || (decide (rdTrip d 0 = 0) && !rdRot d)
      || incs.any (fun w => incValid w && decide (rdOuter d < incLvl w)) then some (9, 4)
  else if (!rdWen d && !zeroFields d [(95, 74)]) || (!rdPen d && !zeroFields d [(127, 97)])
      || (rdPen d && (decide (rdPscope d = 0) || decide (rdPscope d = 7) || decide (rdPcnt d = 0)
          || !s.carries (s.ctx t c).launch (rdPtile d))) then some (9, 5)
  else if rdRot d && !rdKo d && decide (rdTrip d 0 < max 1 (rdS d - 1)) then some (8, 0)
  else none

/-! ### The order of the bundles (R281) -/

/-- Kernel iterations of a pass. -/
def rdN0 (d : Rec64) : Nat := if rdKo d then rdTrip d 0 + rdS d - 1 else rdTrip d 0

/-- The address of the bundle that issues next. -/
def Loop.addr (d : Rec64) (l : Loop) : Nat :=
  match l.phase with
  | .prologue => rdStart d + l.pos
  | .kernel => rdStart d + rdPlen d + l.pos
  | _ => rdStart d + rdPlen d + rdKlen d + l.pos

/-- The rotation at the head of kernel iteration k. -/
def kernelStep (d : Rec64) (k : Nat) : List (Option Bool) :=
  if rdRot d then [some (if rdKo d then decide (k < rdTrip d 0) else true)] else []

/-- The level indices one pass on, i1 fastest, with the highest level that changed; none after the last pass. -/
def nextIdx (d : Rec64) : List Nat → Nat → Option (List Nat × Nat)
  | [], _ => none
  | i :: is, l =>
    if rdOuter d < l then none
    else if i + 1 < rdTrip d l then some ((i + 1) :: is, l)
    else match nextIdx d is (l + 1) with
      | some (js, h) => some (0 :: js, h)
      | none => none

/-- Skip the parts of the run that hold no bundle; the steps and increments met on the way wait for the next bundle. -/
def Loop.settle (d : Rec64) : Nat → Loop → Loop
  | 0, l => { l with phase := .done }
  | n + 1, l =>
    match l.phase with
    | .prologue =>
      if l.pos < rdPlen d then l
      else if rdN0 d = 0 then
        Loop.settle d n { l with phase := .epilogue, pos := 0, k := 0, steps := l.steps ++ (if rdRot d then [some false] else []) }
      else Loop.settle d n { l with phase := .kernel, pos := 0, k := 0, steps := l.steps ++ kernelStep d 0 }
    | .kernel =>
      if l.pos < rdKlen d then l
      else if l.k + 1 < rdN0 d then
        Loop.settle d n { l with pos := 0, k := l.k + 1, steps := l.steps ++ kernelStep d (l.k + 1), pend := l.pend ++ rdPend d 0 }
      else
        Loop.settle d n { l with phase := .epilogue, pos := 0, k := rdN0 d,
                                 steps := l.steps ++ (if rdRot d then [some false] else []) }
    | .epilogue =>
      if l.pos < rdElen d then l
      else match nextIdx d l.idx 1 with
        | some (idx, h) =>
          Loop.settle d n { l with phase := .prologue, pos := 0, k := 0, idx := idx, pend := l.pend ++ rdPend d h,
                                   steps := l.steps ++ (if rdRot d then [none] else []) }
        | none => { l with phase := .done, pend := [], steps := [] }
    | .done => l

/-- The loop state at the setup of a run (R280); a run without a bundle is done at once. -/
def Loop.start (d : Rec64) : Loop :=
  let l : Loop := { Loop.reset with phase := .prologue }
  if rdPlen d = 0 ∧ rdElen d = 0 ∧ rdN0 d = 0 then { l with phase := .done } else Loop.settle d 8 l

/-- The loop state after the bundle at its position has issued. -/
def Loop.advance (d : Rec64) (l : Loop) : Loop := Loop.settle d 8 { l with pos := l.pos + 1 }

/-- The predicates after one rotation: p11 to p5 take p10 to p4, p4 takes b (R281). -/
def rotatePreds (b : Bool) (p : Tab Mask) : Tab Mask :=
  let p' := (List.range 7).foldl (fun q i => tabPut q (11 - i) (tabGet 0 p (10 - i))) p
  tabPut p' 4 (if b then Mask.full else 0)

def clearPreds (p : Tab Mask) : Tab Mask := (List.range 8).foldl (fun q i => tabPut q (4 + i) 0) p

/-- One step of the rotating base, or its reset at a new pass. -/
def Bun.rotate (x : Bun) : Option Bool → Bun
  | some b => { x with loop := { x.loop with rrb := (x.loop.rrb + 31) % 32 }, p := rotatePreds b x.p }
  | none => { x with loop := { x.loop with rrb := 0 }, p := clearPreds x.p }

/-- The pending steps and increments take effect at the bundle that issues (R281); the increments add to what has landed
(R202). -/
def Bun.applyLoop (x : Bun) (d : Rec64) : Bun :=
  let y := x.loop.steps.foldl Bun.rotate x
  let a := x.loop.pend.foldl (fun a e => tabPut a (incReg (rdInc d e)) (tabGet 0 a (incReg (rdInc d e)) + incAmount (rdInc d e))) y.a
  { y with a := a, loop := { y.loop with steps := [], pend := [] } }

/-! ### yield (R205) -/

/-- yield: its bundle is the last of the segment; the engine ends it when the bundle has issued. -/
def execYield (s : State) : Out :=
  s.slotRun .yield fun v u => u.modBun v.t v.c fun b => { b with loop := { b.loop with yielded := true } }

/-! ### bbc and the counter cache (R203, R370) -/

/-- The context that speaks for a launch on a tile: its first, else c. -/
def State.holderOf (s : State) (t c l : Nat) : Nat :=
  match (s.tile t).ctxs.find? fun e => decide (e.2.launch = l) with
  | some e => e.1
  | none => c

/-- Write a delta back: an 8-byte atomic addition at the home of entry n, which is no access of a context and orders nothing;
a fault drops it with an event record (R370). -/
def State.writeBack (s : State) (t c : Nat) (x : Delta) : State :=
  if x.delta = 0 then s
  else
    let r := (s.launch x.launch).record
    let holder := s.holderOf t c x.launch
    match s.translate t (recAsid r) (BitVec.ofNat 64 (recBbcVa r + 8 * x.n)) ⟨true, true, false⟩ with
    | (s, .error _) => s.event t holder 0 2 (BitVec.ofNat 64 x.n)
    | (s, .ok d) =>
      let h := s.destHome d
      let onHost := decide (h.1 = .host)
      (s.send (s.dieOf t) h.1 (.count h.2.1 (BitVec.ofNat 64 x.delta) h.2.2 x.n onHost t x.launch) [] (some (t, holder))).1

/-- The write-backs of a launch on a tile that are under way (R56). -/
def State.backsOf (s : State) (t l : Nat) : List Nat :=
  s.net.filterMap fun m => match m.body with
    | .count _ _ _ _ _ u k => if u = t ∧ k = l then some m.id else none
    | _ => none

/-- Write back every delta of a launch on a tile (R56, R370). -/
def State.flushCounters (s : State) (t c l : Nat) : State :=
  let mine := (s.tile t).cache.filter fun x => decide (x.launch = l)
  let s := s.modTile t fun y => { y with cache := y.cache.filter fun x => decide (x.launch ≠ l) }
  mine.foldl (fun u x => u.writeBack t c x) s

/-- One count of block n (R370): the cache keeps the most recently incremented entry first. -/
def State.countBlock (s : State) (t c l n : Nat) : State :=
  let cache := (s.tile t).cache
  let rest := cache.filter fun x => !(decide (x.launch = l) && decide (x.n = n))
  let now : Delta := match cache.find? fun x => decide (x.launch = l) && decide (x.n = n) with
    | some x => { x with delta := x.delta + 1 }
    | none => { launch := l, n := n, delta := 1 }
  if now.delta = 0xFFFFFFFF then (s.modTile t fun y => { y with cache := rest }).writeBack t c now
  else if 64 ≤ rest.length then
    let s' := s.modTile t fun y => { y with cache := now :: rest.take 63 }
    (rest.drop 63).foldl (fun u x => u.writeBack t c x) s'
  else s.modTile t fun y => { y with cache := now :: rest }

def execBbc (kc : BitVec 3) (n : BitVec 14) (s : State) : Out :=
  s.slotRun (.bbc kc n) fun v u => if recBbcVa v.r = 0 then u else u.countBlock v.t v.c v.x.launch n.toNat

/-! ### mark (R204, R368, R369) -/

/-- A signed number saturated to 32 bits. -/
def sat32 (x : Int) : W32 := BitVec.ofInt 32 (max (-2147483648) (min 2147483647 x))

/-- The record a mark writes: marker, bundle, actual clock cycles, expected offset, the launch's DRIFT, lc0. -/
def traverse (id pc ctx actual expect drift lc : Nat) : RingRec :=
  let d : Int := Int.ofNat actual - Int.ofNat expect
  let armed := decide (drift ≠ 0) && decide (drift < d.natAbs)
  { kind := 4, id := id, slot := 1, pc := pc, cause := 31, ctx := ctx,
    data0 := (0 : BitVec 31) ++ bit armed ++ sat32 d,
    data1 := BitVec.ofNat 32 (min lc 0xFFFFFFFF) ++ BitVec.ofNat 32 (min actual 0xFFFFFFFF) }

/-- The window that a marker arms: the next 1,024 bundles, behind the marking bundle itself (R369). -/
def armedFull : Nat := 1025

def execMark (id : BitVec 12) (s : State) : Out :=
  s.slotRun (.mark id) fun v u =>
    let x := u.tile v.t
    let first := (v.x.bun.loop.firstClk).getD x.clk
    let m : W64 := match x.image with
      | some i => i.markers.getD id.toNat 0
      | none => 0
    let r := traverse id.toNat v.baddr v.x.num (x.clk - first) (fieldNat m 31 0) (recDrift v.r) (v.lc 0)
    let u := u.ring (u.asidFn (u.asidOf v.t v.c)) v.t r
    if r.data0.getLsbD 32 then u.modBun v.t v.c fun b => { b with armed := armedFull } else u

/-- An all-zero slot issues and does nothing (R185). -/
def execNoOperation (s : State) : Out := .next s

/-- A slot whose encoding the maps do not hold (R185). -/
def execIenc (w : W32) (s : State) : Out := s.slotRun (.ienc w) fun _ u => u

end Sys2Proof.Machine
end

