-- ==== Sys2Proof/Machine/Landing.lean ====
section
/-! DEFINITION. What comes due at an issue cycle: landings (R180, R183, R230, R231), access cycles (R208, R213, R214, R217,
R218), and the rows for the freezes they begin. -/

namespace Sys2Proof.Machine

def bundleSlots : List Nat := [0, 1, 2, 3, 4, 5, 6, 7]

/-! ### Order of items -/

/-- Whether item a was issued before item b: earlier bundle, then lower slot (R114, R208). -/
def Item.before (a b : Item) : Bool := decide (a.issued < b.issued) || (decide (a.issued = b.issued) && decide (a.slot ≤ b.slot))

def insertItem (a : Item) : List Item → List Item
  | [] => [a]
  | b :: l => if a.before b then a :: b :: l else b :: insertItem a l

/-- Items in the order in which they were issued. -/
def sortItems (l : List Item) : List Item := l.foldr insertItem []

/-- Whether an item is a memory access or a semaphore operation with an access cycle (R208). -/
def ItemKind.isAccess : ItemKind → Bool
  | .load _ _ _ _ _ | .store _ _ _ | .spill _ _ _ _ _ | .credit _ _ _ _ | .arm _ _ _ | .fmtC _ _ => true
  | _ => false

/-- An overflow access under way is due only when it is done (R213). -/
def ItemKind.isOut : ItemKind → Bool
  | .spillOut _ _ _ _ _ _ _ _ => true
  | _ => false

/-! ### One landing -/

/-- The lanes of a mask of a latch take a result; of another segment nothing (R178). -/
def Bun.latchLanes (b : Bun) (seg slot : Nat) (mask : Mask) (data : Lanes) (wide : W64) : Bun :=
  if seg ≠ b.seg then b
  else
    let old : Latch := match tabGet? b.latch slot with
      | some l => if l.seg = b.seg then l else { seg := b.seg, lanes := Lanes.zero, wide := 0 }
      | none => { seg := b.seg, lanes := Lanes.zero, wide := 0 }
    { b with latch := tabPut b.latch slot { seg := b.seg, lanes := laneMerge mask data old.lanes, wide := wide } }

/-- A vector result enters its register (R175, R180). -/
def Bun.putVec (b : Bun) (tgt : Target) (mask : Mask) (data : Lanes) : Bun :=
  match tgt with
  | .v n => { b with v := tabPut b.v n (laneMerge mask data (b.vreg n)) }
  | .o n => { b with o := tabPut b.o n (laneMerge mask data (b.oreg n)) }
  | _ => b

/-- A write of a predicate; p0 stays true (R177). -/
def Bun.putPred (b : Bun) (n : Nat) (mask bits : Mask) : Bun :=
  if n = 0 then b else { b with p := tabPut b.p n ((b.pred n &&& ~~~mask) ||| (bits &&& mask)) }

/-- A write of an s register; s0 stays zero (R177). -/
def Bun.putS (b : Bun) (n : Nat) (v : W64) : Bun := if n = 0 then b else { b with s := tabPut b.s n v }

/-- A write of a flag; k0 stays true (R177). -/
def Bun.putK (b : Bun) (n : Nat) (v : Bool) : Bun :=
  if n = 0 then b else { b with k := if v then b.k ||| (1#8 <<< n) else b.k &&& ~~~(1#8 <<< n) }

/-- A result whose elements are free values (R305, R319, R320). -/
def AccData.open (d : AccData) (code free : Nat) : AccData :=
  let word (u i : Nat) : W32 := Config.accWord ((free * 32 + u) * 4096 + i)
  { d with
    units := (accUnits code).map fun u => (List.range 4096).map (word u)
    side := d.side.map fun _ =>
      { bytes := (List.range 4096).map fun i => (word 31 i).setWidth 8 &&& 0x1F,
        loss := (word 30 0).getLsbD 0,
        ovf := (word 30 1).getLsbD 0 } }

/-- Whether two items are of one instruction in flight. -/
def Item.sameOp (a b : Item) : Bool :=
  decide (a.ctx = b.ctx) && decide (a.run = b.run) && decide (a.issued = b.issued) && decide (a.slot = b.slot)

/-- The elements of the mma that item i belongs to become free values: its result is still to land (R305). -/
def State.openResult (s : State) (t : Nat) (i : Item) : State :=
  let free := s.free
  s.bumpFree.modEngine t fun e => { e with items := e.items.map fun j => match j.kind with
    | .accPending a d => if j.sameOp i then { j with kind := .accPending a (d.open a free) } else j
    | _ => j }

/-- The results of the operation that item i belongs to will not land: its destination stays unwritten (R3). -/
def State.dropResult (s : State) (t : Nat) (i : Item) : State :=
  s.modEngine t fun e => { e with items := e.items.filter fun j => !j.sameOp i || match j.kind with
    | .busy _ _ | .window _ _ _ _ => true
    | _ => false }

/-- What item i does to the bundle context at its landing. -/
def Bun.land (b : Bun) (i : Item) : Bun :=
  match i.kind with
  | .vec tgt mask data lat _ =>
    let b := b.putVec tgt mask data
    if lat then b.latchLanes i.seg i.slot mask data 0 else b
  | .pred n mask bits _ => b.putPred n mask bits
  | .scalar tgt val lat =>
    let b := match tgt with
      | .s n => b.putS n val
      | _ => b
    if lat then b.latchLanes i.seg i.slot Mask.full (lanesOf fun _ => val.setWidth 32) val else b
  | .flag n val => b.putK n val
  | .addr n val => { b with a := tabPut b.a n val }
  | .fmtSet ent val => { b with fmt := tabPut b.fmt ent val }
  | .fmtBits ent lo n val => { b with fmt := tabPut b.fmt ent (setBits (b.fmtEnt ent) lo n val.toNat) }
  | .mzero acc => b.mzero acc
  | .accPending acc res => b.putAcc acc res
  | _ => b

/-- The flags an item sets at its landing. -/
def ItemKind.flags : ItemKind → BitVec 5
  | .vec _ _ _ _ f | .pred _ _ _ f | .drain _ _ f => f
  | _ => 0

/-- The target of R182 an item writes at its landing: s0 and a latch alone are none. -/
def ItemKind.target? : ItemKind → Option Target
  | .vec t _ _ _ _ | .scalar t _ _ => if t = .latchOnly ∨ t = .s 0 then none else some t
  | .pred n _ _ _ => some (.p n)
  | .flag n _ => some (.k n)
  | .addr n _ => some (.a n)
  | _ => none

/-- The control word an item's run executes under (R67). -/
def Ctx.fpcwOf (x : Ctx) (run : Nat) : W32 :=
  match x.runs.find? fun e => decide (e.ord = run) with
  | some e => e.fpcw
  | none => x.hart.fpcw

/-- Whether an item's effect stands at its landing: not of an mma that a later one into the same units follows (R307). -/
def State.landsNow (s : State) (t : Nat) (i : Item) : Bool := match i.kind with
  | .accPending a _ => !(s.engine t).items.any fun j => match j.kind with
      | .accPending b _ => decide (j.ctx = i.ctx) && decide (i.due < j.due) && accOverlap a b
      | _ => false
  | _ => true

/-- A late stop of the item's bundle (R343). -/
def State.lateRec (s : State) (t : Nat) (i : Item) (code reason : Nat) (addr : W64) : Stop :=
  { s.stopRec t i.ctx code with
    addr := addr, word := i.word, baddr := i.baddr, slot := i.slot, done := 0xFF, reason := reason, late := true }

/-- A late stop of the item's context, to be taken at its boundary (R343). -/
def State.stopLate (s : State) (t : Nat) (i : Item) (code reason : Nat) (addr : W64) : State :=
  s.modCtx t i.ctx fun x => { x with lateStop := x.lateStop ++ [s.lateRec t i code reason addr] }

/-- One item lands: its writes, its flags (R180, R230); a drain writes its bytes (R311); a window that a write has met frees
the result (R305). An uncorrectable error of the bytes it reads leaves its destination unwritten and stops the context with
CDATA, late (R3; DESIGN CHOICE, assumption 93). -/
def State.land (s : State) (t : Nat) (i : Item) : State :=
  let s := match i.kind with
    | .window _ _ reads tainted =>
      (match reads.find? fun (r : Nat × Nat) => s.localBad t r.1 r.2 with
      | some r => (s.dropResult t i).stopLate t i 0x13 0 (BitVec.ofNat 64 r.1)
      | none => if tainted && !reads.isEmpty then s.openResult t i else s)
    | _ => s
  let stands := s.landsNow t i
  let s := s.modCtx t i.ctx fun x =>
    { x with bun := if stands then x.bun.land i else x.bun, hart := { x.hart with fflags := x.hart.fflags ||| i.kind.flags } }
  match i.kind with
  | .drain a l _ => s.writeLocal t a l none
  | _ => s

/-- The items of one context that land together with the same target, from different bundles: the later one of each such
pair (R183). -/
def lateCollisions : List Item → List Item
  | [] => []
  | i :: l =>
    (l.filter fun j => decide (j.ctx = i.ctx) && decide (j.issued ≠ i.issued) && decide (i.kind.target? ≠ none)
      && decide (j.kind.target? = i.kind.target?)) ++ lateCollisions l

/-- The items due at this issue that are no accesses, in order. -/
def Engine.dueLandings (e : Engine) : List Item :=
  sortItems (e.items.filter fun i => decide (i.due ≤ e.ic) && !i.kind.isAccess && !i.kind.isOut)

/-- The writes of every landing due; the items leave (R180). -/
def State.landDue (s : State) (t : Nat) : State :=
  let due := (s.engine t).dueLandings
  let s := s.modEngine t fun e => { e with items := e.items.filter fun i =>
    !(decide (i.due ≤ e.ic) && !i.kind.isAccess && !i.kind.isOut) }
  due.foldl (fun u i => u.land t i) s

/-- The late stops of the landings due, per context: FPTRAP of the earliest, then WCOL (R183, R231). -/
def State.landStops (s : State) (t : Nat) (due : List Item) : State :=
  let trapping := due.filter fun i => traps ((s.ctx t i.ctx).fpcwOf i.run) i.kind.flags
  let s := (s.tile t).ctxs.foldl (fun u e =>
    match trapping.find? fun i => decide (i.ctx = e.1) with
    | some i => u.stopLate t i 0x0A 0 0
    | none => u) s
  (lateCollisions due).foldl (fun u i =>
    let u := u.modBun t i.ctx fun b => { b with wcols := true }
    let x := u.ctx t i.ctx
    if wcolt (x.fpcwOf i.run) && !(x.lateStop.any fun r => decide (r.code = 2)) then
      u.stopLate t i 2 0 0
    else u) s

/-- The context whose bundle issues takes its loop steps and increments; its run's first bundle is timed (R281, R368). -/
def State.beginBundle (s : State) (t : Nat) : State :=
  match (s.engine t).cur with
  | none => s
  | some (c, _) =>
    let clk := (s.tile t).clk
    let d : Rec64 := match (s.ctx t c).curRun? with
      | some e => e.desc
      | none => 0
    s.modBun t c fun b =>
      let b := b.applyLoop d
      { b with loop := { b.loop with firstClk := some ((b.loop.firstClk).getD clk) } }

/-- LANDING: every result, landing and occupancy due at the issue that is made, and the loop step of the bundle that
issues. -/
def execLanding (s : State) : Out :=
  let t := s.focus.tile
  let due := (s.engine t).dueLandings
  .next (((s.landDue t).landStops t due).beginBundle t)

/-! ### Access cycles (R208, R213, R214) -/

/-- The 64-byte lines an access reaches that R214 counts. -/
def ItemKind.lines : ItemKind → List Nat
  | .load _ _ l _ _ => (l.map fun e => lineOf e.2).eraseDups
  | .store _ l _ => (l.map fun e => lineOf e.1).eraseDups
  | .fmtC _ a => [lineOf a]
  | _ => []

/-- The distinct lines of bank b, 0 to 31 over all groups, among the accesses of one cycle. -/
def bankLines (l : List Item) (b : Nat) : List Nat :=
  ((l.flatMap fun i => i.kind.lines).filter fun n => decide (8 * groupOf (64 * n) + bankOf (64 * n) = b)).eraseDups

/-- The longest queue of lines at a bank, and the context of the earliest-issued access in such a bank. -/
def bankLoad (l : List Item) : Nat × Option Item :=
  let loads := (List.range 32).map fun b => (b, (bankLines l b).length)
  let m := loads.foldl (fun a e => max a e.2) 0
  let worst := (loads.filter fun e => decide (e.2 = m)).map Prod.fst
  (m, l.find? fun i => i.kind.lines.any fun n => worst.contains (8 * groupOf (64 * n) + bankOf (64 * n)))

/-- The lanes a load reads in its access cycle. -/
def State.readLanes (s : State) (t : Nat) (l : List (Nat × Nat)) : Lanes :=
  let ws := l.map fun e => (e.1, wordOf 32 (s.localBytes t e.2 4))
  lanesOf fun i => match ws.find? fun e => decide (e.1 = i) with
    | some e => e.2
    | none => 0

/-- The bytes an access reads, as address and length. -/
def ItemKind.readsOf : ItemKind → List (Nat × Nat)
  | .load _ _ l wide _ => l.map fun e => (e.2, if wide then 8 else 4)
  | .fmtC _ a => [(a, 64)]
  | _ => []

/-- One access in its access cycle: a load's data becomes a landing, a store is written, a semaphore operation is made;
an overflow access is left for the spill freeze (R208, R217, R218, R302). A read that meets an uncorrectable error has no
landing, and stops the context with CDATA, late (R3; DESIGN CHOICE, assumption 93). -/
def State.access (s : State) (t : Nat) (i : Item) : State :=
  let ic := (s.engine t).ic
  let put (s : State) (i : Item) : State := s.modEngine t fun e => { e with items := e.items ++ [i] }
  match i.kind.readsOf.find? fun r => s.localBad t r.1 r.2 with
  | some r => s.stopLate t i 0x13 0 (BitVec.ofNat 64 r.1)
  | none => match i.kind with
  | .load tgt mask l wide lat =>
    if wide then
      match l with
      | (_, a) :: _ => put s { i with due := ic + lat, kind := .scalar tgt (wordOf 64 (s.localBytes t a 8)) true }
      | [] => s
    else put s { i with due := ic + lat, kind := .vec tgt mask (s.readLanes t l) true 0 }
  | .store _ cells size => cells.foldl (fun u e => u.writeLocal t e.1 (bytesOf e.2 size) none) s
  | .fmtC ent a => put s { i with due := ic + 1, kind := .fmtBits ent 74 512 (wordOf 512 (s.localBytes t a 64)) }
  | .credit u g n _ =>
    if u = t then s.modEngine t fun e => { e with credits := e.credits ++ [(g, n)] }
    else (s.send (s.dieOf t) (.tile u) (.credit u g n) [] none).1
  | .arm g target zero => s.armSem t g target zero
  | .spill _ _ _ _ _ => put s i
  | _ => s

/-- The accesses due at this issue, in the order of R114. -/
def Engine.dueAccesses (e : Engine) : List Item := sortItems (e.items.filter fun i => decide (i.due ≤ e.ic) && i.kind.isAccess)

/-- The first overflow access whose access cycle lies before an issue cycle. -/
def Engine.spillDue (e : Engine) (ic : Nat) : Option Item :=
  (sortItems (e.items.filter fun i => decide (i.due < ic))).find? fun i => match i.kind with
    | .spill _ _ _ _ _ => true
    | _ => false

def Engine.without (e : Engine) (i : Item) : Engine := { e with items := e.items.filter fun j => decide (j ≠ i) }

/-- The virtual address of an overflow access, from its slot's word (R212). -/
def State.spillVa (s : State) (t : Nat) (i : Item) : Nat :=
  let r := s.recOf t i.ctx
  let va (n : Nat) : Nat := recOvfVa r + (s.ctx t i.ctx).task * recOvfSlots r * 512 + (n - recSpill r) * 512
  match decodeSlot (Place.ofSlot i.slot) i.word with
  | .spill g | .fill g => va g.slot.toNat
  | _ => 0

/-- A late stop of an overflow access, at byte j of its slot. -/
def State.spillStop (s : State) (t : Nat) (i : Item) (code reason j : Nat) : State :=
  s.stopLate t i code reason (BitVec.ofNat 64 (s.spillVa t i + j))

/-- An overflow access begins: its address is translated by the context's copy engine, a spill's bytes leave, a fill's
request leaves; a fault ends the context late (R213). A page of host memory is accessed there like one of HBM: the spec
names HBM only and no fault for another home (DESIGN CHOICE, assumption 80). -/
def State.startSpill (s : State) (t : Nat) (i : Item) : State :=
  match i.kind with
  | .spill va mask data tgt isFill =>
    let s := s.modEngine t fun e => e.without i
    match s.translate t (s.asidOf t i.ctx) (BitVec.ofNat 64 va) ⟨isFill, !isFill, false⟩ with
    | (s, .error f) => s.spillStop t i f.code f.reason 0
    | (s, .ok d) =>
      let h := s.destHome d
      let bytes : List (Option Byte) :=
        (List.range 512).map fun j => if mask.getLsbD (j / 4) then some (byteOf (laneAt data (j / 4)) (j % 4)) else none
      let r :=
        if isFill then s.sendQuiet (s.dieOf t) h.1 (.fetch h.2.1 512 h.2.2) [] (some (t, i.ctx))
        else s.send (s.dieOf t) h.1 (.write h.2.1 bytes h.2.2 none) [] (some (t, i.ctx))
      r.1.modEngine t fun e =>
        { e with items := e.items ++ [{ i with kind := .spillOut r.2 h.2.1 h.2.2 (decide (h.1 = .host)) mask tgt isFill none }] }
  | _ => s

/-- Start the overflow accesses of the access cycles before issue cycle ic until one is under way; the freeze ends when none
is left. -/
def State.nextSpill : Nat → State → Nat → Nat → State
  | 0, s, _, _ => s
  | n + 1, s, t, ic =>
    if (s.engine t).items.any fun i => i.kind.isOut then s
    else match (s.engine t).spillDue ic with
      | some i => State.nextSpill n (s.startSpill t i) t ic
      | none => s.modEngine t fun e => { e with freezes := e.freezes.filter fun f => decide (f.cause ≠ .spillfrz) }

/-- ACCESS_CYCLE: every access due at the issue that is made, in order; then the bank rule (R214) and the overflow accesses
(R213). -/
def execAccessCycle (s : State) : Out :=
  let t := s.focus.tile
  let due := (s.engine t).dueAccesses
  let s := s.modEngine t fun e =>
    { e with items := e.items.filter (fun i => !(decide (i.due ≤ e.ic) && i.kind.isAccess)),
             touched := (e.ic, due.flatMap fun i => i.accessGroups.map fun g => (i.ctx, g)) }
  let s := due.foldl (fun u i => u.access t i) s
  let now := (s.engine t).ic + 1
  let s := match (s.engine t).spillDue now with
    | some i =>
      let s := s.modEngine t fun e =>
        { e with freezes := e.freezes ++ [{ cause := .spillfrz, left := none, owner := i.ctx, pc := i.baddr }] }
      State.nextSpill 17 s t now
    | none => s
  let l := bankLoad due
  match l.2 with
  | some i =>
    if 1 < l.1 then
      .next ((s.modEngine t fun e => { e with bankDue := some (l.1 - 1, i.ctx, i.baddr) }).push [rowAt .bankFreeze t i.ctx])
    else .next s
  | none => .next s

/-- BANK_FREEZE: the freeze the access cycle calls for begins (R214). -/
def execBankFreeze (s : State) : Out :=
  let t := s.focus.tile
  match (s.engine t).bankDue with
  | none => .fault .notDue
  | some (n, c, b) => .next (s.modEngine t fun e =>
      { e with bankDue := none, freezes := e.freezes ++ [{ cause := .bankfrz, left := some n, owner := c, pc := b }] })

/-! ### Overflow accesses end (R213) -/

/-- The overflow access under way ends: a fill's data lands at issue + 6, four after its access cycle, and its clock is merged;
a fault that its home met as it applied the access, of the key slot or of the data, ends the context late (R136); the next
overflow access begins, or the freeze ends. None: no access, or a fill without its answer. -/
def State.endSpill (s : State) (t : Nat) : Option State :=
  match (s.engine t).items.find? fun i => i.kind.isOut with
  | none => none
  | some i =>
    let s := s.modEngine t fun e => e.without i
    let more (s : State) : Option State := some (State.nextSpill 17 s t (s.engine t).prevented)
    match i.kind with
    | .spillOut _ _ _ _ mask tgt isFill got => match got with
      | none => if isFill then none else more s
      | some x =>
        let s := (s.mergeDie (s.dieOf t) x.clock).keepLeft t i.ctx x.clock
        match x.fault with
        | some (code, reason, off) => more (s.spillStop t i code reason off)
        | none =>
          if isFill then
            let data := lanesOf fun j => wordOf 32 ((x.bytes.drop (4 * j)).take 4)
            more (s.modEngine t fun e => { e with items := e.items ++ [{ i with due := i.due + 4, kind := .vec tgt mask data true 0 }] })
          else more s
    | _ => none

/-- SPILL_ACCESS_DONE: the access under way has been performed (R213). -/
def execSpillAccessDone (s : State) : Out := match s.endSpill s.focus.tile with
  | some s => .next s
  | none => .fault .notDue

/-! ### Late stops (R343), collisions at decode (R182) -/

/-- LATE_STOP: the first pending late stop of the context is taken at its bundle boundary. -/
def execLateStop (s : State) : Out :=
  let t := s.focus.tile
  let c := s.focus.ctx
  match (s.ctx t c).lateStop with
  | [] => .fault .notDue
  | r :: l =>
    let s := s.modCtx t c fun x => { x with lateStop := l }
    .next (s.takeStop t c { r with tick := s.now })

/-- WCOL at decode: no slot of the bundle issues, the cycle is no issue; the stop names the higher slot of the pair (R182,
R184, R363; assumption 21). -/
def execWcol (s : State) : Out :=
  let t := s.focus.tile
  let c := s.focus.ctx
  s.withCtx t c fun x =>
    match x.curRun? with
    | none => .fault .notDue
    | some e =>
      let b := x.bun.loop.addr e.desc
      let r : Stop := { s.stopRec t c 2 with word := s.slotWord t b s.focus.slot, baddr := b, slot := s.focus.slot, done := 0 }
      .next ((s.charge t bundleSlots .fault x.num b).takeStop t c r)

/-! ### The other freezes (R216, R283) -/

/-- FETCH_FREEZE: the transfer to the context's next bundle costs a freeze of 2 clock cycles (R283). -/
def execFetchFreeze (s : State) : Out :=
  let t := s.focus.tile
  let c := s.focus.ctx
  s.withCtx t c fun x =>
    match x.curRun? with
    | none => .fault .notDue
    | some e =>
      let a := x.bun.loop.addr e.desc
      .next (s.modEngine t fun g =>
        { g with fetched := some (c, a), freezes := g.freezes ++ [{ cause := .fetch, left := some 2, owner := c, pc := a }] })

/-- SWAIT_RELEASE: the test of a held bundle passes; the passing wait is an acquire (R216). -/
def execSwaitRelease (s : State) : Out :=
  let t := s.focus.tile
  if (s.engine t).freezes.any fun f => decide (f.cause = .semwait) then
    .next (s.modEngine t fun e => { e with freezes := e.freezes.filter fun f => decide (f.cause ≠ .semwait) })
  else .fault .notDue

end Sys2Proof.Machine
end

