-- ==== Sys2Proof/Machine/Engine.lean ====
section
/-! DEFINITION. The bundle engine (R216, R272 to R285, R333 to R336): which context issues in a clock cycle, what an issue does,
freezes, drain issues, and what each bundle slot is charged (R359, R361, R363). -/

namespace Sys2Proof.Machine

/-! ### Charges (R359, R362) -/

/-- Charge every bundle slot alike. -/
def State.chargeAll (s : State) (t : Nat) (cause : Cause) (owner pc : Nat) : State := s.charge t bundleSlots cause owner pc

/-! ### The run a context issues next -/

/-- The first entry whose bundles have not all issued (R284). -/
def Ctx.nextRun? (x : Ctx) : Option RunEntry := x.runs.find? fun e => !e.issued

/-- The address of the bundle a context would issue next. -/
def Ctx.nextAddr? (x : Ctx) : Option Nat :=
  match x.nextRun? with
  | some e => some (if e.started then x.bun.loop.addr e.desc else rdStart e.desc)
  | none => none

def Ctx.nextAddr (x : Ctx) : Nat := x.nextAddr?.getD 0

/-- Change the entries of a run number. -/
def Ctx.modRun (x : Ctx) (ord : Nat) (f : RunEntry → RunEntry) : Ctx :=
  { x with runs := x.runs.map fun e => if e.ord = ord then f e else e }

/-- The next run of a context is ready: it has started or has passed its WEN wait (R280, R333). -/
def Ctx.runReady (x : Ctx) : Bool :=
  match x.nextRun? with
  | some e => e.started || e.passed
  | none => false

/-- The context is there to issue: resident, neither halted nor faulted (R333). -/
def Ctx.mayIssue (x : Ctx) : Bool := decide (x.st = .resident) && !x.dbg.eh

/-- The WEN test of a run that has not passed it; passing is an acquire (R120, R280). -/
def State.passWen (s : State) (t c : Nat) : State :=
  let x := s.ctx t c
  match x.nextRun? with
  | some e =>
    if e.started || e.passed || decide (x.st ≠ .resident) then s
    else if !rdWen e.desc then s.modCtx t c fun x => x.modRun e.ord fun e => { e with passed := true }
    else if (s.sem t (rdWg e.desc)).reached (rdWgen e.desc) then
      (s.acquireSem t c (rdWg e.desc)).modCtx t c fun x => x.modRun e.ord fun e => { e with passed := true }
    else s
  | none => s

/-! ### Engine operations in replay buffers (R319, R345) -/

def ItemKind.isEngine : ItemKind → Bool
  | .busy _ _ | .window _ _ _ _ => true
  | _ => false

/-- Whether items of other contexts occupy an engine or hold a window open. -/
def Engine.occupiedFor (e : Engine) (c : Nat) : Bool := e.items.any fun i => decide (i.ctx ≠ c) && i.kind.isEngine

/-- The context's replay buffer re-enters the engine, each item at its offset from the present issue cycle (R345). -/
def State.reinject (s : State) (t c : Nat) : State :=
  let x := s.ctx t c
  if x.replay.isEmpty then s
  else
    let n := (s.engine t).ic
    let s := s.modEngine t fun e => { e with items := e.items ++ x.replay.map fun i => { i with due := i.due + n } }
    s.modCtx t c fun x => { x with replay := [] }

/-- A replay buffer that holds engine operations waits while another context occupies the engine (assumption 22). -/
def State.replayWaits (s : State) (t c : Nat) : Bool :=
  (s.ctx t c).replay.any (fun i => i.kind.isEngine) && (s.engine t).occupiedFor c

/-- A context without a bundle to issue takes its replay buffer back at once (assumption 22). -/
def State.reinjectIdle (s : State) (t c : Nat) : State :=
  let x := s.ctx t c
  if x.mayIssue && !x.runReady && !s.replayWaits t c then s.reinject t c else s

/-! ### A bundle that counts as none (R307) -/

/-- What the setup of a run changes in its context (R280). -/
def Ctx.setup (x : Ctx) (e : RunEntry) : Ctx :=
  let l := Loop.start e.desc
  { x.modRun e.ord (fun e => { e with started := true, passed := true, issued := decide (l.phase = .done) }) with
    reissue := none,
    bun := { x.bun with loop := l, seg := x.bun.seg + 1, p := if rdRot e.desc then clearPreds x.bun.p else x.bun.p } }

/-- The state as the context's next bundle would see it at its issue, n issue cycles on: its replay buffer has come back,
what is due has landed (R345). -/
def State.preview (s : State) (t c n : Nat) : State :=
  let x := s.ctx t c
  let s := match x.nextRun? with
    | some e => if e.started then s else s.modCtx t c fun x => x.setup e
    | none => s
  let s := (s.modEngine t fun e => { e with ic := e.ic + n, cur := some (c, x.nextAddr) }).reinject t c
  (s.landDue t).beginBundle t

/-- The slots of the next bundle that have issued already (R342). -/
def Ctx.doneSlots (x : Ctx) : Byte := match x.reissue with
  | some r => r.2
  | none => 0

/-- The empty issues still to come before the context's next bundle (R272). -/
def State.issuesAhead (s : State) (t c : Nat) : Nat :=
  let e := s.engine t
  let setup := match (s.ctx t c).nextRun? with
    | some r => if r.started then 0 else 1
    | none => 0
  if e.turn = some c then
    match e.turnStep with
    | .switch k => k + setup
    | _ => setup
  else (if e.last = some c then 0 else 2) + setup

/-- The access cycle and the lane addresses of a memory access or mset.c that a slot would make. -/
def State.slotAccess (s : State) (v : Env) (i : Instr) : Option (Nat × List (Nat × Int)) :=
  if v.bad i || v.off (useOf i) then none
  else match i with
    | .vld g => some (2, laneAddrs v g.pr (offAddr v g))
    | .vldB g => some (2, laneAddrs v g.pr (wordAddr v g))
    | .vldS g => some (2, laneAddrs v g.pr (strideAddr v g))
    | .vldx g => some (3, laneAddrs v g.pr (indexAddr v g (v.vec g.vi)))
    | .vst g => some (2, laneAddrs v g.pr (offAddr v g))
    | .vstS g => some (2, laneAddrs v g.pr (strideAddr v g))
    | .vstx g => some (3, laneAddrs v g.pr (indexAddr v g (v.vec g.vi)))
    | .sld g | .sst g => some (2, [(0, scalarAddr v g)])
    | .spill g | .fill g =>
      match s.spillPlace v g.slot.toNat with
      | .carve a => some (2, laneAddrs v g.pr fun i => Int.ofNat (a + 4 * i))
      | _ => none
    | .msetC _ a => some (2, [(0, Int.ofNat (v.a a).toNat)])
    | _ => none

/-- The groups of windows that other contexts hold open in access cycle ac. -/
def Engine.othersGroups (e : Engine) (c ac : Nat) : List Nat :=
  e.items.flatMap fun i => match i.kind with
    | .window gs _ _ _ => if i.ctx ≠ c ∧ ac < i.due then gs else []
    | _ => []

/-- Whether slot n of the next bundle meets another context's occupancy of engine e as it stands; s is the state as the
bundle would see it at its issue. -/
def State.slotBlocked (s : State) (e : Engine) (t c n : Nat) : Bool :=
  let v := s.env t c n
  let other (rs : Bool) : Bool := e.items.any fun i => match i.kind with
    | .busy r _ => decide (i.ctx ≠ c) && decide (r = rs) && decide (e.ic < i.due)
    | _ => false
  let i := decodeSlot (Place.ofSlot n) v.word
  match i with
  | .mma _ | .mmaAcc _ | .mdrain _ => other false
  | .rstat _ => other true
  | _ =>
    match s.slotAccess v i with
    | some (ac, l) => l.any fun a => decide (0 ≤ a.2) && decide (a.2 < 0x400000) && (e.othersGroups c (e.ic + ac)).contains (groupOf a.2.toNat)
    | none => false

/-- Whether the context's next bundle counts as no bundle to issue (R307). -/
def State.blocked (s : State) (t c : Nat) : Bool :=
  let e := s.engine t
  if !e.occupiedFor c then false
  else if s.replayWaits t c then true
  else
    let u := s.preview t c (s.issuesAhead t c)
    let done := (s.ctx t c).doneSlots
    [5, 6, 7].any fun n => !done.getLsbD n && u.slotBlocked e t c n

/-- A context that may be selected (R333). -/
def State.eligible (s : State) (t c : Nat) : Bool :=
  let x := s.ctx t c
  x.mayIssue && x.runReady && !s.preempting t c && !s.blocked t c

def State.eligibles (s : State) (t : Nat) : List Nat := (s.residents t).filter fun c => s.eligible t c

/-- The engine notes which contexts are eligible in this clock cycle, before it issues (R336). -/
def State.noteEligible (s : State) (t : Nat) : State :=
  let l := s.eligibles t
  s.modEngine t fun e => { e with eligible := l }

/-! ### Selection (R334 to R336) -/

/-- The effective priority of a context (R336). -/
def State.effOf (s : State) (t c : Nat) : Nat := min 3 (s.prioOf t c + (s.ctx t c).waitClk / 8192)

/-- The place of context c in the order after the last issuer, the last issuer itself last. -/
def orderAfter (last : Option Nat) (c : Nat) : Nat := match last with
  | some l => (c + 7 - l) % 8
  | none => c

/-- The context that select() of R334 takes. -/
def State.selected (s : State) (t : Nat) : Option Nat :=
  let l := s.eligibles t
  let top := l.foldl (fun m c => max m (s.effOf t c)) 0
  leastBy (orderAfter (s.engine t).last) (l.filter fun c => decide (s.effOf t c = top))

/-- What the turn of context c does first when no switch stands before it. -/
def Ctx.firstStep (x : Ctx) : TurnStep := match x.nextRun? with
  | some e => if e.started then .ready else .loopset
  | none => .ready

/-- CONTEXT_SELECT: the engine turns to a context; a context other than the last issuer costs two SWITCH issues (R334). -/
def execContextSelect (s : State) : Out :=
  let t := s.focus.tile
  match s.selected t with
  | none => .fault .notDue
  | some c =>
    let x := s.ctx t c
    let bad := match x.nextRun? with
      | some e => !e.started && (s.runCheck t c e).isSome
      | none => false
    let s := s.modCtx t c fun x => { x with waitClk := 0 }
    .next (s.modEngine t fun e =>
      { e with turn := some c, turnClk := 0,
               turnStep := if bad then .loopset else if e.last = some c then x.firstStep else .switch 2 })

/-- A forced switch of context c: its turn ends, what it has in flight goes into its replay buffer (R335). -/
def State.forceSwitch (s : State) (t c : Nat) : State :=
  (s.drainItems t c).modEngine t fun e =>
    { e with turn := none, turnStep := .idle, freezes := e.freezes.filter fun f => decide (f.cause ≠ .semwait) }

/-- SEGMENT_BUDGET_SWITCH: the turn ends by a forced switch (R335). -/
def execSegmentBudgetSwitch (s : State) : Out :=
  let t := s.focus.tile
  match (s.engine t).turn with
  | none => .fault .notDue
  | some c => .next (s.forceSwitch t c)

/-- Whether the segment budget is spent and another context may take the engine (R335). -/
def State.budgetSpent (s : State) (t c : Nat) : Bool :=
  decide (4096 ≤ (s.engine t).turnClk)
    && (s.residents t).any fun d => decide (d ≠ c) && decide (s.prioOf t c ≤ s.effOf t d) && s.eligible t d

/-! ### Runs start and end (R280, R284) -/

/-- The loop buffer is aimed at the context's current run (R283). -/
def Engine.aim (e : Engine) (c : Nat) (x : Ctx) : Engine :=
  match x.nextRun? with
  | none => { e with loopBuf := none, held := [] }
  | some r =>
    let d := r.desc
    let range : Option (Nat × Nat) :=
      if rdPlen d + rdKlen d ≤ 64 then some (rdStart d, rdPlen d + rdKlen d)
      else if rdKlen d ≤ 64 then some (rdStart d + rdPlen d, rdKlen d)
      else none
    { e with loopBuf := range.map fun q => (c, r.ord, q.1, q.2), held := [] }

/-- RUN_START: the run is checked; one that fails stops the context in a cycle that is no issue; one that passes takes the
run-setup issue and loads the loop state (R279, R280, R363). -/
def execRunStart (s : State) : Out :=
  let t := s.focus.tile
  match (s.engine t).turn with
  | none => .fault .notDue
  | some c =>
    let x := s.ctx t c
    match x.nextRun? with
    | none => .fault .notDue
    | some e =>
      let a := rdStart e.desc
      match s.runCheck t c e with
      | some f =>
        let s := s.chargeAll t .fault x.num a
        .next (s.takeStop t c { s.stopRec t c f.1 with baddr := a, reason := f.2 })
      | none =>
        let s := s.chargeAll t .loopset x.num a
        let l := Loop.start e.desc
        let s := s.modCtx t c fun x => x.setup e
        .next (s.modEngine t fun g =>
          let g := { g.aim c (s.ctx t c) with fetched := some (c, a), turnStep := .ready }
          if l.phase = .done then { g with turn := none, turnStep := .idle } else g)

/-- Whether the front run of a context is complete: its last bundle has issued, nothing of it is due (R284). -/
def State.runDone (s : State) (t c : Nat) : Bool :=
  let x := s.ctx t c
  match x.runs with
  | [] => false
  | e :: _ => e.issued && decide (x.st = .resident)
      && !((s.engine t).items.any fun i => decide (i.ctx = c) && decide (i.run = e.ord))
      && !(x.replay.any fun i => decide (i.run = e.ord))

/-- The front run of a context leaves: its timeline advances by 1, its completion credit is posted (R284). -/
def State.leaveRun (s : State) (t c : Nat) : State :=
  match (s.ctx t c).runs with
  | [] => s
  | e :: l =>
    let s := s.modCtx t c fun x => { x.setCount 4 ((x.count 4).leave 1) with runs := l }
    let d := e.desc
    if !rdPen d then s
    else if rdPtile d = t then s.modEngine t fun g => { g with credits := g.credits ++ [(rdPg d, rdPcnt d)] }
    else (s.send (s.dieOf t) (.tile (rdPtile d)) (.credit (rdPtile d) (rdPg d) (rdPcnt d)) [] none).1

/-- RUN_COMPLETE: the entry leaves (R284). -/
def execRunComplete (s : State) : Out :=
  let t := s.focus.tile
  let c := s.focus.ctx
  if !s.runDone t c then .fault .notDue
  else
    let s := s.leaveRun t c
    .next (if s.runDone t c then s.push [rowAt .runComplete t c] else s)

/-! ### Freezes and drain issues (R272, R273) -/

/-- The causes of a freeze in the order of R273. -/
def freezeOrder : List Cause := [.replay, .semwait, .bankfrz, .spillfrz, .fetch, .throttle]

/-- The freeze that a frozen cycle is charged to. -/
def Engine.chargedFreeze (e : Engine) : Option Freeze :=
  freezeOrder.findSome? fun k => e.freezes.find? fun f => decide (f.cause = k)

/-- The contexts whose resources a tile holds: resident, faulted, in a dump (R63, R333). -/
def State.present (s : State) (t : Nat) : List Nat := ((s.tile t).ctxs.filter fun e => decide (e.1 < 8)).map Prod.fst

/-- No issue, not frozen, nothing pending: STARVE to the highest-priority resident context, or IDLE (R359). -/
def State.starve (s : State) (t : Nat) : State :=
  match greatestBy (fun c => s.prioOf t c) (s.present t) with
  | some c => s.chargeAll t .starve c (s.ctx t c).nextAddr
  | none => s.chargeAll t .idle 8 0

/-- The engine has work: a context is eligible, or something of any context is pending (R273). -/
def State.hasWork (s : State) (t : Nat) : Bool := !(s.engine t).items.isEmpty || !(s.eligibles t).isEmpty

/-- One frozen clock cycle: it is charged, counted to the turn, and the lengths run down; without work it is no freeze
(R273). -/
def State.freezeCycle (s : State) (t : Nat) : State :=
  match (s.engine t).chargedFreeze with
  | none => s
  | some f =>
    let work := s.hasWork t
    let s := if work then s.chargeAll t f.cause f.owner f.pc else s.starve t
    s.modEngine t fun e =>
      { e with
        turnClk := if work ∧ e.turn = some f.owner then e.turnClk + 1 else e.turnClk,
        freezes := (e.freezes.map fun g => { g with left := g.left.map fun n => n - 1 }).filter fun g => decide (g.left ≠ some 0) }

/-- The earliest-issued pending item (R272). -/
def Engine.earliest (e : Engine) : Option Item := (sortItems e.items).head?

/-- DRAIN_ISSUE: an empty issue for what is pending (R272). -/
def execDrainIssue (s : State) : Out :=
  let t := s.focus.tile
  match (s.engine t).earliest with
  | none => .fault .notDue
  | some i => .next (s.chargeAll t .drain i.ctx i.baddr)

/-- A clock cycle without an issue while the tile is throttled (R273, R359). -/
def State.throttleCycle (s : State) (t : Nat) : State :=
  let e := s.engine t
  match e.turn with
  | some c => (s.chargeAll t .throttle c (s.ctx t c).nextAddr).modEngine t fun e => { e with turnClk := e.turnClk + 1 }
  | none =>
    match s.selected t with
    | some c => s.chargeAll t .throttle c (s.ctx t c).nextAddr
    | none => match e.earliest with
      | some i => s.chargeAll t .throttle i.ctx i.baddr
      | none => s.starve t

/-! ### The turn of the engine in one clock cycle -/

/-- The rows of an empty issue. -/
def emptyIssue (t c : Nat) : List Work := [rowAt .landing t c, rowAt .accessCycle t c, .endBundle t c]

/-- The held test of the bundle that would issue: true when its swait holds it (R216). -/
def State.holds (s : State) (t c : Nat) : Bool :=
  let u := s.preview t c 0
  let v := u.env t c 7
  match decodeSlot .mb v.word with
  | .swait g r => !(s.ctx t c).doneSlots.getLsbD 7 && !v.bad (.swait g r) && !(u.sem t g.toNat).reached ((v.s r).setWidth 16)
  | _ => false

/-- Whether the bundle that issues has a swait to make: it is made before the other slots, with no access of the issue cycle
between it and its test (R216). -/
def State.swaitFirst (s : State) (t c : Nat) : Bool :=
  let x := s.ctx t c
  let v := (s.preview t c 0).env t c 7
  (match decodeSlot .mb v.word with
    | .swait g r => !x.doneSlots.getLsbD 7 && !v.bad (.swait g r)
    | _ => false) && !(x.dbg.attached && !x.dbg.skip && x.dbg.bps.any fun p => decide (p.2 = (v.baddr, 7)))

/-- The decoded slots of the bundle that issues, below its first IENC: slot, instruction. -/
def State.slotsBelow (s : State) (t c : Nat) (done : Byte) : List Nat → List (Nat × Instr)
  | [] => []
  | n :: l =>
    if done.getLsbD n then s.slotsBelow t c done l
    else
      let v := s.env t c n
      let i := decodeSlot (Place.ofSlot n) v.word
      if v.word ≠ 0 ∧ v.bad i then [] else (n, i) :: s.slotsBelow t c done l

/-- The higher slot of the first pair of slots that write one target in one landing cycle (R182). -/
def collision (v : Env) : List (Nat × Instr) → List (Target × Nat) → Option Nat
  | [], _ => none
  | (n, i) :: l, seen =>
    match v.landsOn (useOf i) with
    | some w => if seen.contains w then some n else collision v l (w :: seen)
    | none => collision v l seen

/-- The slot that a WCOL at decode of the next bundle names (R182, R184). -/
def State.collides (s : State) (t c : Nat) : Option Nat :=
  let u := s.preview t c 0
  collision (u.env t c 0) (u.slotsBelow t c (s.ctx t c).doneSlots bundleSlots) []

/-- The bundle of context c issues: its slots are executed in order behind what is due. -/
def State.issueBundle (s : State) (t c : Nat) : State :=
  let x := s.ctx t c
  let first := s.swaitFirst t c
  let s := s.modEngine t fun e =>
    { e with cur := some (c, x.nextAddr), stopAt := none, last := some c, doneMask := x.doneSlots }
  let s := s.modCtx t c fun x => { x with reissue := none }
  let slots (l : List Nat) : List Work := l.map (Work.slot t c)
  s.push (if first then
      [rowAt .landing t c] ++ slots [7] ++ [rowAt .accessCycle t c] ++ slots [0, 1, 2, 3, 4, 5, 6] ++ [.endBundle t c]
    else [rowAt .landing t c, rowAt .accessCycle t c] ++ slots bundleSlots ++ [.endBundle t c])

/-- Whether the next bundle is fetched or held in the loop buffer (R283). -/
def Engine.hasBundle (e : Engine) (c ord a : Nat) : Bool :=
  decide (e.fetched = some (c, a))
    || (match e.loopBuf with
        | some (d, o, _, _) => decide (d = c) && decide (o = ord) && e.held.contains a
        | none => false)

/-- The turn of context c when nothing stands before its bundle. -/
def State.bundleTurn (s : State) (t c : Nat) : State :=
  let s := s.reinject t c
  let x := s.ctx t c
  let ord := match x.nextRun? with
    | some r => r.ord
    | none => 0
  if s.budgetSpent t c then s.push [rowAt .segmentBudgetSwitch t c, .engine t]
  else if !(s.engine t).hasBundle c ord x.nextAddr then s.push [rowAt .fetchFreeze t c, .engine t]
  else match s.collides t c with
    | some n => s.push [.row .wcol { tile := t, ctx := c, slot := n, len := 4, fn := 0 }]
    | none =>
      if s.holds t c then
        (s.modEngine t fun e =>
          { e with freezes := e.freezes ++ [{ cause := .semwait, left := none, owner := c, pc := x.nextAddr }] }).freezeCycle t
      else if (s.tile t).throttled then s.throttleCycle t
      else s.issueBundle t c

/-- A row that context c, x, takes before anything issues if it stands at a bundle boundary: a late stop, a halt (R343, R374). A
late stop is saved with a context that is being pre-empted (R243, R356), and its pre-emption is taken before a commanded halt
(R377). -/
def State.boundaryOf (s : State) (t c : Nat) (x : Ctx) : Option Work :=
  let e := s.engine t
  let still := e.freezes.any fun f => decide (f.cause ≠ .semwait)
  let atBoundary := !(still && decide (e.turn = some c)) && !s.spilling t c
  if decide (x.st ≠ .resident) || x.dbg.eh || !atBoundary then none
  else if !x.lateStop.isEmpty && !s.preempting t c then some (rowAt .lateStop t c)
  else if x.dbg.haltReq && !(s.preempting t c && x.dbg.pend.isNone) then some (rowAt .haltTakesEffect t c)
  else none

/-- The first such row of the tile. -/
def State.boundaryRow (s : State) (t : Nat) : Option Work := (s.tile t).ctxs.findSome? fun p => s.boundaryOf t p.1 p.2

/-- The overflow access under way has been performed: its message is gone. -/
def State.spillDone (s : State) (t : Nat) : Bool :=
  (s.engine t).items.any fun i => match i.kind with
    | .spillOut id _ _ _ _ _ _ _ => (s.msg? id).isNone
    | _ => false

/-- The engine's turn when no freeze but a hold is under way. -/
def State.turnOf (s : State) (t : Nat) : State :=
  let e := s.engine t
  match e.freezes.find? fun f => decide (f.cause = .semwait) with
  | some f =>
    if !s.eligible t f.owner then
      (s.modEngine t fun e => { e with turn := none, turnStep := .idle,
                                       freezes := e.freezes.filter fun f => decide (f.cause ≠ .semwait) }).push [.engine t]
    else if !s.holds t f.owner then s.push [rowAt .swaitRelease t f.owner, .engine t]
    else if s.budgetSpent t f.owner then s.push [rowAt .segmentBudgetSwitch t f.owner, .engine t]
    else s.freezeCycle t
  | none =>
    match e.turn with
    | some c =>
      if !s.eligible t c then (s.modEngine t fun e => { e with turn := none, turnStep := .idle }).push [.engine t]
      else match e.turnStep with
        | .switch _ =>
          if (s.tile t).throttled then s.throttleCycle t
          else (s.chargeAll t .switch c (s.ctx t c).nextAddr).push (emptyIssue t c)
        | .loopset =>
          match (s.ctx t c).nextRun? with
          | some r =>
            if (s.runCheck t c r).isSome then s.push [rowAt .runStart t c]
            else if (s.tile t).throttled then s.throttleCycle t
            else s.push [rowAt .landing t c, rowAt .accessCycle t c, rowAt .runStart t c, .endBundle t c]
          | none => s
        | _ =>
          match (s.ctx t c).firstStep with
          | .loopset => (s.modEngine t fun e => { e with turnStep := .loopset }).push [.engine t]
          | _ => s.bundleTurn t c
    | none =>
      if (s.tile t).throttled then s.throttleCycle t
      else if (s.selected t).isSome then s.push [rowAt .contextSelect t 0, .engine t]
      else match e.earliest with
        | some i => s.push (rowAt .drainIssue t i.ctx :: emptyIssue t i.ctx)
        | none => s.starve t

/-- The runs of tile t that are complete. -/
def State.completeRuns (s : State) (t : Nat) : List Work :=
  ((s.residents t).filter fun c => s.runDone t c).map fun c => rowAt .runComplete t c

/-- What the bundle engine of tile t does in this clock cycle; rows it pushes bring it back where more is to be decided. -/
def State.engineTurn (s : State) (t : Nat) : State :=
  let stands := (s.engine t).freezes.any fun f => decide (f.cause = .spillfrz)
  if s.spillDone t then s.push [rowAt .spillAccessDone t 0, .engine t]
  else if !(s.completeRuns t).isEmpty then s.push (s.completeRuns t ++ [.engine t])
  else if stands && !((s.engine t).items.any fun i => i.kind.isOut) then
    (State.nextSpill 17 s t (s.engine t).prevented).push [.engine t]
  else
    let s := ((s.residents t).foldl (fun u c => (u.passWen t c).reinjectIdle t c) s).noteEligible t
    match s.boundaryRow t with
    | some w => s.push [w, .engine t]
    | none =>
      if (s.engine t).freezes.any fun f => decide (f.cause ≠ .semwait) then s.freezeCycle t else s.turnOf t

/-! ### The slots of a bundle (R170, R182, R184, R342, R375) -/

/-- What slot n of the bundle that issues executes, in which slot's name, with its charge; none: nothing. -/
def State.slotWork (s : State) (t c n : Nat) : State × Option (Instr × Nat) :=
  let e := s.engine t
  if e.stopAt.isSome ∨ (e.cur.map Prod.fst) ≠ some c then (s, none)
  else
    let x := s.ctx t c
    let b := e.baddrOf c
    if e.doneMask.getLsbD n then (s.charge t [n] .nop x.num b, none)
    else
      let v := s.env t c n
      if x.dbg.attached && !x.dbg.skip && x.dbg.bps.any (fun p => decide (p.2 = (b, n))) then (s.stopSlot v 0x0B 0 0, none)
      else if v.word = 0 then (s.charge t [n] .nop x.num b, some (.noOperation, n))
      else
        let i := decodeSlot (Place.ofSlot n) v.word
        let cause := if !v.bad i && v.off (useOf i) then Cause.predoff else Cause.exec
        (s.charge t [n] cause x.num b, some (i, n))

/-! ### The end of an issue -/

/-- The slots a stopped bundle suppressed are charged HALT or FAULT (R363). -/
def State.chargeStop (s : State) (t c j b : Nat) : State :=
  let x := s.ctx t c
  let code := match x.stop with
    | some r => r.code
    | none => 0
  s.charge t ((List.range 8).filter fun n => decide (j ≤ n)) (if code = 0x0B ∨ code = 0x0C then .halt else .fault) x.num b

/-- The bundle of context c at address b has issued whole: counters, loop buffer, position, yield, the end of the run. -/
def State.bundleIssued (s : State) (t c b : Nat) : State :=
  let x := s.ctx t c
  match x.curRun? with
  | none => s
  | some e =>
    let l := (x.bun.loop).advance e.desc
    let ended := decide (l.phase = .done)
    let yielded := x.bun.loop.yielded
    let s := s.modSite (s.siteOf t) fun k => { k with b := k.b + 1, cb := k.cb + 1 }
    let s := s.modCtx t c fun x =>
      { x.modRun e.ord (fun e => { e with issued := ended }) with
        waitClk := 0, dbg := { x.dbg with skip := false },
        bun := { x.bun with icount := x.bun.icount + 1, armed := min (x.bun.armed - 1) 1024,
                            seg := if yielded && !ended then x.bun.seg + 1 else x.bun.seg,
                            loop := { l with yielded := false } } }
    s.modEngine t fun g =>
      let g := { g with fetched := some (c, b + 1), turnClk := g.turnClk + 1,
                        held := match g.loopBuf with
                          | some (_, _, first, n) => if first ≤ b ∧ b < first + n then insNat b g.held else g.held
                          | none => g.held }
      if yielded || ended then { g with turn := none, turnStep := .idle } else g

/-- The end of an empty issue: the turn goes on (R272, R283). -/
def State.emptyIssued (s : State) (t : Nat) : State :=
  let e := s.engine t
  match e.turn with
  | none => s
  | some c =>
    let x := s.ctx t c
    s.modEngine t fun g =>
      match g.turnStep with
      | .switch 2 => { g with turnStep := .switch 1, turnClk := g.turnClk + 1 }
      | .switch _ =>
        { g.aim c x with turnStep := x.firstStep, turnClk := g.turnClk + 1, fetched := some (c, x.nextAddr) }
      | _ => { g with turnClk := g.turnClk + 1 }

/-- The end of the issue made in this clock cycle: the issue cycle advances by one, the bundle's effects on the run are
made, runs that are complete leave (R272, R284); a debugger's single bundle halts again (R373). -/
def State.endIssue (s : State) (t : Nat) : State :=
  let e := s.engine t
  let s' := match e.cur with
    | none => s.emptyIssued t
    | some (c, b) =>
      match e.stopAt with
      | some j => (s.chargeStop t c j b).modEngine t fun g => { g with fetched := some (c, b) }
      | none =>
        let u := s.bundleIssued t c b
        if (u.ctx t c).dbg.stepping = some false then u.haltNow t c 0 0 false else u
  let s' := s'.modEngine t fun g => { g with ic := g.ic + 1, cur := none, stopAt := none, doneMask := 0 }
  s'.push (s'.completeRuns t)

end Sys2Proof.Machine
end

