-- ==== Sys2Proof/Machine/Hart.lean ====
section
/-! DEFINITION. The control core's base instructions (R18 to R25, R60 to R67): the register operations, loads, stores and
atomics of the scratchpad, the CSRs, and the transfers of control. -/

namespace Sys2Proof.Machine

/-! ### Shapes -/

/-- The meaning of a control-core instruction for the focus: an illegal instruction if its operand codes are reserved
(R68); else f. -/
def State.hartDo (s : State) (i : Instr) (f : Nat → Nat → State → State) : Out :=
  let t := s.focus.tile
  let c := s.focus.ctx
  s.withCtx t c fun _ => .next (if wellFormed i then f t c s else s.illegal t c)

/-- The pc passes to the next instruction. -/
def State.advance (s : State) (t c : Nat) : State :=
  s.modHart t c fun h => { h with pc := h.pc + BitVec.ofNat 64 s.focus.len }

/-- A result for rd, usable lat clock cycles on (R62). -/
def State.setRd (s : State) (t c : Nat) (rd : BitVec 5) (v : W64) (lat : Nat) : State :=
  let k := (s.tile t).clk
  if rd = 0 then s
  else s.modHart t c fun h => { h with x := tabPut h.x rd.toNat v, regAt := tabPut h.regAt rd.toNat (k + lat) }

/-- An instruction that writes rd and goes on. -/
def State.result (s : State) (t c : Nat) (rd : BitVec 5) (v : W64) (lat : Nat) : State := (s.setRd t c rd v lat).advance t c

/-- The exception of a transfer of control to an address: odd, or beyond the instruction memory (R61). -/
def jumpCause (a : W64) : Option Nat := if a.getLsbD 0 then some 0 else if 0x10000 ≤ a.toNat then some 1 else none

/-- A transfer of control to an address, which delays the next issue by 2 (R61, R62); rd takes the link. An exception is
raised at the jump, before any effect (R343; assumption 34). -/
def State.jump (s : State) (t c : Nat) (rd : BitVec 5) (link a : W64) : State :=
  match jumpCause a with
  | some cause => s.raise t c cause a
  | none =>
    let k := (s.tile t).clk
    (s.setRd t c rd link 1).modHart t c fun h => { h with pc := a, nextAt := k + 2 }

/-! ### Register operations (R60) -/

def low32 (v : W64) : W32 := v.setWidth 32
def sx32 (v : W32) : W64 := v.signExtend 64
def flag64 (b : Bool) : W64 := if b then 1 else 0

/-- Signed division with RISC-V's corners: by zero all ones. -/
def sdivR {w : Nat} (a b : BitVec w) : BitVec w := if b = 0 then BitVec.allOnes w else a.sdiv b
def udivR {w : Nat} (a b : BitVec w) : BitVec w := if b = 0 then BitVec.allOnes w else a / b
def sremR {w : Nat} (a b : BitVec w) : BitVec w := if b = 0 then a else a.srem b
def uremR {w : Nat} (a b : BitVec w) : BitVec w := if b = 0 then a else a % b

/-- Low 5 bits of a shift count. -/
def cntW (b : W64) : Nat := (b.extractLsb' 0 5).toNat

def aluEval (op : AluOp) (a b : W64) : W64 := match op with
  | .add => a + b
  | .sub => a - b
  | .sll => a <<< cnt6 b
  | .slt => flag64 (a.slt b)
  | .sltu => flag64 (a.ult b)
  | .xor => a ^^^ b
  | .srl => a >>> cnt6 b
  | .sra => a.sshiftRight (cnt6 b)
  | .or => a ||| b
  | .and => a &&& b
  | .addw => sx32 (low32 a + low32 b)
  | .subw => sx32 (low32 a - low32 b)
  | .sllw => sx32 (low32 a <<< cntW b)
  | .srlw => sx32 (low32 a >>> cntW b)
  | .sraw => sx32 ((low32 a).sshiftRight (cntW b))
  | .mul => a * b
  | .mulh => mulHigh a b
  | .mulhsu => (a.signExtend 128 * b.setWidth 128).extractLsb' 64 64
  | .mulhu => mulHighN a b
  | .div => sdivR a b
  | .divu => udivR a b
  | .rem => sremR a b
  | .remu => uremR a b
  | .mulw => sx32 (low32 a * low32 b)
  | .divw => sx32 (sdivR (low32 a) (low32 b))
  | .divuw => sx32 (udivR (low32 a) (low32 b))
  | .remw => sx32 (sremR (low32 a) (low32 b))
  | .remuw => sx32 (uremR (low32 a) (low32 b))
  | .sh1add => (a <<< 1) + b
  | .sh2add => (a <<< 2) + b
  | .sh3add => (a <<< 3) + b
  | .addUw => (low32 a).setWidth 64 + b
  | .sh1addUw => ((low32 a).setWidth 64 <<< 1) + b
  | .sh2addUw => ((low32 a).setWidth 64 <<< 2) + b
  | .sh3addUw => ((low32 a).setWidth 64 <<< 3) + b
  | .andn => a &&& ~~~b
  | .orn => a ||| ~~~b
  | .xnor => ~~~(a ^^^ b)
  | .max => if a.slt b then b else a
  | .maxu => if a.ult b then b else a
  | .min => if b.slt a then b else a
  | .minu => if b.ult a then b else a
  | .rol => a.rotateLeft (cnt6 b)
  | .ror => a.rotateRight (cnt6 b)
  | .rolw => sx32 ((low32 a).rotateLeft (cntW b))
  | .rorw => sx32 ((low32 a).rotateRight (cntW b))
  | .czeroEqz => if b = 0 then 0 else a
  | .czeroNez => if b = 0 then a else 0

/-- Clock cycles after which a result may be used (R62). -/
def aluLatency : AluOp → Nat
  | .mul | .mulh | .mulhsu | .mulhu | .mulw => 3
  | .div | .divu | .rem | .remu => 35
  | .divw | .divuw | .remw | .remuw => 19
  | _ => 1

def aluImmEval (op : AluImmOp) (a b : W64) : W64 := match op with
  | .addi => a + b
  | .slti => flag64 (a.slt b)
  | .sltiu => flag64 (a.ult b)
  | .xori => a ^^^ b
  | .ori => a ||| b
  | .andi => a &&& b
  | .addiw => sx32 (low32 a + low32 b)

def shiftEval (op : ShiftImmOp) (a : W64) (n : Nat) : W64 := match op with
  | .slli => a <<< n
  | .srli => a >>> n
  | .srai => a.sshiftRight n
  | .rori => a.rotateRight n
  | .slliUw => (low32 a).setWidth 64 <<< n

def shiftWEval (op : ShiftImmWOp) (a : W32) (n : Nat) : W64 := match op with
  | .slliw => sx32 (a <<< n)
  | .srliw => sx32 (a >>> n)
  | .sraiw => sx32 (a.sshiftRight n)
  | .roriw => sx32 (a.rotateRight n)

/-- The bytes of a word in the opposite order. -/
def revBytes (a : W64) : W64 := wordOf 64 ((bytesOf a 8).reverse)

def unaryEval (op : UnaryOp) (a : W64) : W64 := match op with
  | .clz => BitVec.ofNat 64 (leadZeros a 64)
  | .ctz => BitVec.ofNat 64 (trailZeros a 0 64)
  | .cpop => BitVec.ofNat 64 (countOnes a 64)
  | .clzw => BitVec.ofNat 64 (leadZeros (low32 a) 32)
  | .ctzw => BitVec.ofNat 64 (trailZeros (low32 a) 0 32)
  | .cpopw => BitVec.ofNat 64 (countOnes (low32 a) 32)
  | .sextB => (a.extractLsb' 0 8).signExtend 64
  | .sextH => (a.extractLsb' 0 16).signExtend 64
  | .zextH => (a.extractLsb' 0 16).setWidth 64
  | .orcB => wordOf 64 ((bytesOf a 8).map fun b => if b = 0 then 0 else 0xFF)
  | .rev8 => revBytes a

def branchTest (op : BranchOp) (a b : W64) : Bool := match op with
  | .beq => decide (a = b)
  | .bne => decide (a ≠ b)
  | .blt => a.slt b
  | .bge => !a.slt b
  | .bltu => a.ult b
  | .bgeu => !a.ult b

/-- CONTROL_COMPUTE: register operations and transfers of control (R60 to R62). -/
def execControlCompute (op : ComputeOp) (s : State) : Out :=
  s.hartDo (.controlCompute op) fun t c s =>
    let x (r : BitVec 5) := s.getX t c r
    let pc := (s.hart t c).pc
    let link := pc + BitVec.ofNat 64 s.focus.len
    match op with
    | .alu o rd a b => s.result t c rd (aluEval o (x a) (x b)) (aluLatency o)
    | .aluImm o rd a imm => s.result t c rd (aluImmEval o (x a) (imm.signExtend 64)) 1
    | .shiftImm o rd a n => s.result t c rd (shiftEval o (x a) n.toNat) 1
    | .shiftImmW o rd a n => s.result t c rd (shiftWEval o (low32 (x a)) n.toNat) 1
    | .unary o rd a => s.result t c rd (unaryEval o (x a)) 1
    | .lui rd imm => s.result t c rd ((imm ++ (0 : BitVec 12) : W32).signExtend 64) 1
    | .auipc rd imm => s.result t c rd (pc + (imm ++ (0 : BitVec 12) : W32).signExtend 64) 1
    | .jal rd off => s.jump t c rd link (pc + (off ++ (0 : BitVec 1) : BitVec 21).signExtend 64)
    | .jalr rd a imm => s.jump t c rd link ((x a + imm.signExtend 64) &&& ~~~1#64)
    | .branch o a b off =>
      if branchTest o (x a) (x b) then s.jump t c 0 link (pc + (off ++ (0 : BitVec 1) : BitVec 13).signExtend 64) else s.advance t c

/-! ### The scratchpad (R22 to R25, R61) -/

/-- Whether an access of n bytes at address a lies where the control core may reach: a carve of the launch on the tile, or
the semaphore block (R22, R61). -/
def State.hartReaches (s : State) (t c : Nat) (a : W64) (n : Nat) : Bool :=
  decide (a.toNat + n ≤ 0x400000) && (decide (semBase ≤ a.toNat) || s.inLaunchCarves (s.ctx t c).launch t a.toNat n)

/-- The exception of an access of the control core, misalignment first: cause 4 or 6, then 5 or 7 (R22, R61). -/
def State.accessCause (s : State) (t c : Nat) (a : W64) (n mis : Nat) : Option Nat :=
  if a.toNat % n ≠ 0 then some mis
  else if !s.hartReaches t c a n then some (mis + 1)
  else none

/-- A watched access of the control core (R376): the stop with SRC 1. -/
def State.watchStop (s : State) (t c : Nat) (a : W64) : State :=
  let x := s.ctx t c
  let r := { s.stopRec t c 0x0C with addr := a, word := s.pcWord t c, pc := x.hart.pc, src := 1 }
  (s.charge t [8] .halt x.num x.hart.pc.toNat).takeStop t c r

/-- An access of the hart to its tile that reads bytes with an uncorrectable error: nothing is written, rd keeps its value, the
CDATA record is written and the hart goes on; without a fault queue it is a stop (R3; DESIGN CHOICE, assumption 93: R72's
outcome for k.lda). -/
def State.dataFault (s : State) (t c : Nat) (a : W64) (wr : Bool) : State :=
  let x := s.ctx t c
  if recFqVa (s.recOf t c) = 0 then
    (s.charge t [8] (if x.dbg.catches 0x13 then .halt else .fault) x.num x.hart.pc.toNat).cdata t c 0 4 0 a wr
  else (s.cdata t c 0 4 0 a wr).advance t c

/-- An access that passes its checks does f; one that does not raises its exception (R61), or WATCH (R376); one that reads an
uncorrectable error is reported (R3). -/
def State.hartAccess (s : State) (t c : Nat) (a : W64) (n mis : Nat) (reads writes : Bool) (f : State → State) : State :=
  match s.accessCause t c a n mis with
  | some cause => s.raise t c cause a
  | none =>
    let x := s.ctx t c
    if (reads && x.watched false a.toNat n) || (writes && x.watched true a.toNat n) then s.watchStop t c a
    else if reads && s.localBad t a.toNat n then s.dataFault t c a writes
    else f s

/-- A credit of the hart to a semaphore of its own tile: it is applied in the next clock cycle (R358). -/
def State.localCredit (s : State) (t c g v : Nat) (after : List Nat) : State :=
  let r := s.sendQuiet (s.dieOf t) (.tile t) (.credit t g v) after (some (t, c))
  r.1.modHart t c fun h => { h with outst := h.outst ++ [r.2] }

/-- A store of the control core to semaphore entry g at offset o: TARGET, the bits cleared by a one, the post word (R23,
R24). -/
def State.semStore (s : State) (t c g o : Nat) (l : List Byte) : State :=
  let byteAt (i : Nat) : Option Byte := if o ≤ i ∧ i < o + l.length then some (l.getD (i - o) 0) else none
  if o < 4 then
    s.modSem t g fun x =>
      x.store (wordOf 32 ((List.range 4).map fun i => (byteAt i).getD (byteOf x.target i)))
  else
    let clear := (byteAt 10).getD 0
    let s := if 8 ≤ o ∧ o < 16 then
        s.modSem t g fun x => { x with err := x.err && !clear.getLsbD 0, overshot := x.overshot && !clear.getLsbD 1 }
      else s
    if o < 20 ∧ 16 < o + l.length then
      if o = 16 ∧ l.length = 4 then
        if natOfBytes l = 0 then s else s.localCredit t c g (natOfBytes l) []
      else s.modSem t g fun x => { x with err := true }
    else s

/-- A store of the control core to the local scratchpad. -/
def State.hartStore (s : State) (t c a : Nat) (l : List Byte) : State :=
  if semBase ≤ a then s.semStore t c ((a - semBase) / 64) ((a - semBase) % 64) l else s.writeLocal t a l (some c)

/-- The bytes a store of size code sz keeps. -/
def loadSize : LoadOp → Nat
  | .lb | .lbu => 1
  | .lh | .lhu => 2
  | .lw | .lwu => 4
  | .ld => 8

def loadExtend (op : LoadOp) (l : List Byte) : W64 := match op with
  | .lb => (wordOf 8 l).signExtend 64
  | .lh => (wordOf 16 l).signExtend 64
  | .lw => (wordOf 32 l).signExtend 64
  | _ => wordOf 64 l

/-- CONTROL_LOAD (R22, R61). -/
def execControlLoad (op : LoadOp) (rd rs1 : BitVec 5) (imm : BitVec 12) (s : State) : Out :=
  s.hartDo (.controlLoad op rd rs1 imm) fun t c s =>
    let a := s.getX t c rs1 + imm.signExtend 64
    s.hartAccess t c a (loadSize op) 4 true false fun s => s.result t c rd (loadExtend op (s.localBytes t a.toNat (loadSize op))) 3

/-- CONTROL_STORE (R22, R23, R61). -/
def execControlStore (sz : BitVec 2) (rs1 rs2 : BitVec 5) (imm : BitVec 12) (s : State) : Out :=
  s.hartDo (.controlStore sz rs1 rs2 imm) fun t c s =>
    let a := s.getX t c rs1 + imm.signExtend 64
    s.hartAccess t c a (sizeOf sz) 6 false true fun s =>
      (s.hartStore t c a.toNat (bytesOf (s.getX t c rs2) (sizeOf sz))).advance t c

def atomicSize (dbl : Bool) : Nat := if dbl then 8 else 4

/-- A value of n bytes, sign-extended. -/
def signOf (n : Nat) (l : List Byte) : W64 :=
  if n = 8 then wordOf 64 l
  else if n = 4 then (wordOf 32 l).signExtend 64
  else if n = 2 then (wordOf 16 l).signExtend 64
  else (wordOf 8 l).signExtend 64

/-- LR: the reservation covers the 64-byte line (R61). -/
def execLr (dbl aq rl : Bool) (rd rs1 : BitVec 5) (s : State) : Out :=
  s.hartDo (.lr dbl aq rl rd rs1) fun t c s =>
    let a := s.getX t c rs1
    let n := atomicSize dbl
    s.hartAccess t c a n 4 true false fun s =>
      (s.modHart t c fun h => { h with reservation := some (lineOf a.toNat) }).result t c rd (signOf n (s.localBytes t a.toNat n)) 3

/-- SC: stores if the reservation holds; rd 0 on success, 1 on failure (R61). -/
def execSc (dbl aq rl : Bool) (rd rs1 rs2 : BitVec 5) (s : State) : Out :=
  s.hartDo (.sc dbl aq rl rd rs1 rs2) fun t c s =>
    let a := s.getX t c rs1
    let n := atomicSize dbl
    let v := s.getX t c rs2
    s.hartAccess t c a n 6 false true fun s =>
      let held := decide ((s.hart t c).reservation = some (lineOf a.toNat))
      let s := s.modHart t c fun h => { h with reservation := none }
      if held then (s.hartStore t c a.toNat (bytesOf v n)).result t c rd 0 3 else s.result t c rd 1 3

/-- The value an AMO stores (R61). -/
def amoEval {w : Nat} (op : AmoOp) (old b : BitVec w) : BitVec w := match op with
  | .swap => b
  | .add => old + b
  | .xor => old ^^^ b
  | .and => old &&& b
  | .or => old ||| b
  | .min => if b.slt old then b else old
  | .max => if old.slt b then b else old
  | .minu => if b.ult old then b else old
  | .maxu => if old.ult b then b else old

/-- CONTROL_AMO: indivisible against every agent that writes the scratchpad (R61). -/
def execControlAmo (op : AmoOp) (dbl aq rl : Bool) (rd rs1 rs2 : BitVec 5) (s : State) : Out :=
  s.hartDo (.controlAmo op dbl aq rl rd rs1 rs2) fun t c s =>
    let a := s.getX t c rs1
    let n := atomicSize dbl
    let b := s.getX t c rs2
    s.hartAccess t c a n 6 true true fun s =>
      let old := s.localBytes t a.toNat n
      let new : List Byte :=
        if dbl then bytesOf (amoEval op (wordOf 64 old) b) 8 else bytesOf (amoEval op (wordOf 32 old) (low32 b)) 4
      (s.hartStore t c a.toNat new).result t c rd (signOf n old) 3

/-- FENCE and FENCE.TSO have no effect among local accesses (R61). -/
def execFence (imm : BitVec 12) (rs1 rd : BitVec 5) (s : State) : Out :=
  s.hartDo (.fence imm rs1 rd) fun t c s => s.advance t c

/-- FENCE.I has no effect (R61). -/
def execFenceI (imm : BitVec 12) (rs1 rd : BitVec 5) (s : State) : Out :=
  s.hartDo (.fenceI imm rs1 rd) fun t c s => s.advance t c

/-! ### CSRs (R18, R66, R67) -/

/-- What a CSR reads; none: no such CSR. -/
def State.csrRead (s : State) (t c : Nat) (csr : BitVec 12) : Option W64 :=
  let x := s.ctx t c
  let h := x.hart
  match csr.toNat with
  | 0xCC0 => some (BitVec.ofNat 64 t)
  | 0xCC1 => some (s.didWord t)
  | 0xCC2 => some (s.rateWord t)
  | 0xCC3 => some s.ktime
  | 0xCC4 => some (BitVec.ofNat 64 x.num)
  | 0xCC5 => some (BitVec.ofNat 64 x.task)
  | 0xCC6 => some (BitVec.ofNat 64 ((s.launch x.launch).tiles.length * recNctx (s.recOf t c)))
  | 0x800 => some h.fhandler
  | 0x801 => some h.fepc
  | 0x802 => some h.faddr
  | 0x803 => some (flag64 h.fin)
  | 0x810 => some (h.fpcw.setWidth 64)
  | 0x811 => some (h.fflags.setWidth 64)
  | _ => none

/-- A CSR of R66 that can be written. -/
def csrWritable (csr : BitVec 12) : Bool :=
  [0x800, 0x801, 0x802, 0x803, 0x810, 0x811].contains csr.toNat

/-- A write sets the bits its row of R66 defines. -/
def Hart.csrSet (h : Hart) (csr : BitVec 12) (v : W64) : Hart :=
  match csr.toNat with
  | 0x800 => { h with fhandler := v &&& 0xFFFE }
  | 0x801 => { h with fepc := v &&& 0xFFFE }
  | 0x802 => { h with faddr := v }
  | 0x803 => { h with fin := v.getLsbD 0 }
  | 0x810 => { h with fpcw := fpcwBits (low32 v) }
  | 0x811 => { h with fflags := v.extractLsb' 0 5 }
  | _ => h

/-- The value a Zicsr form writes, none where it writes nothing: the set and clear forms with register or immediate 0. -/
def csrNew (op : CsrOp) (old src : W64) (rs : BitVec 5) : Option W64 :=
  match op with
  | .rw | .rwi => some src
  | .rs | .rsi => if rs = 0 then none else some (old ||| src)
  | .rc | .rci => if rs = 0 then none else some (old &&& ~~~src)

/-- The operand of a Zicsr form: a register, or 5 bits. -/
def State.csrSrc (s : State) (t c : Nat) (op : CsrOp) (rs : BitVec 5) : W64 :=
  match op with
  | .rw | .rs | .rc => s.getX t c rs
  | _ => rs.setWidth 64

/-- A Zicsr instruction (R18, R66): an unknown CSR and a write of a read-only one are illegal, with no effect. -/
def State.csrOp (s : State) (t c : Nat) (op : CsrOp) (csr : BitVec 12) (rd rs : BitVec 5) : State :=
  match s.csrRead t c csr with
  | none => s.illegal t c
  | some old =>
    match csrNew op old (s.csrSrc t c op rs) rs with
    | none => s.result t c rd old 1
    | some v =>
      if csrWritable csr then (s.modHart t c fun h => h.csrSet csr v).result t c rd old 1 else s.illegal t c

/-- CSRR: csrrs with rs1 = x0 (R18). -/
def execCsrr (csr : BitVec 12) (rd : BitVec 5) (s : State) : Out :=
  s.hartDo (.csrr csr rd) fun t c s => s.csrOp t c .rs csr rd 0

/-- CSR_WRITE: the other Zicsr forms (R18, R66). -/
def execCsrWrite (op : CsrOp) (csr : BitVec 12) (rd rs : BitVec 5) (s : State) : Out :=
  s.hartDo (.csrWrite op csr rd rs) fun t c s => s.csrOp t c op csr rd rs

/-! ### Exceptions and retirement (R56, R57, R61, R68) -/

/-- The task retires with an exit code; its hart issues nothing more (R56). -/
def State.retire (s : State) (t c : Nat) : State :=
  let code : W32 := low32 (s.getX t c 10)
  (s.modCtx t c fun x => { x with exit := some code }).modHart t c fun h => { h with draining := true, wait := none }

/-- ECALL: a7 = 0 retires the task; any other value takes cause 8 (R56, R57). -/
def execEcall (s : State) : Out :=
  s.hartDo .ecall fun t c s => if s.getX t c 17 = 0 then s.retire t c else s.raise t c 8 0

/-- EBREAK: breakpoint, cause 3; it halts the context if a debugger is attached (R61). -/
def execEbreak (s : State) : Out :=
  s.hartDo .ebreak fun t c s => s.raise t c 3 (s.hart t c).pc

/-- WFI is illegal (R61). -/
def execWfi (s : State) : Out := s.hartDo .wfi fun t c s => s.illegal t c

/-- A word that no map lists: cause 2, all state else unchanged (R68). -/
def execIllegalInstruction (w : W32) (s : State) : Out :=
  s.hartDo (.illegalInstruction w) fun t c s => s.illegal t c

end Sys2Proof.Machine
end

