-- ==== Sys2Proof/Machine/Xkgl.lean ====
section
/-! DEFINITION. The Xkgl instructions for memory order, semaphores, futures, engine commands and accounts (R68 to R91, R96 to
R99): one meaning per instruction. An instruction that blocks waits in Hart.wait; its row is executed again when what it
waits for has come. -/

namespace Sys2Proof.Machine

/-! ### Blocking (R63, R79, R99) -/

/-- The deadline of a blocking instruction that issues now: the saved one when it was abandoned, else now plus the timeout. -/
def Hart.newDeadline (h : Hart) (now timeout : Nat) : Option Nat :=
  if h.abandoned ∧ h.savedDeadline ≠ none then h.savedDeadline else if timeout = 0 then none else some (now + timeout)

/-- The hart blocks in instruction i; a wait under way goes on. -/
def State.block (s : State) (t c : Nat) (what : WaitFor) (i : Instr) (timeout : Nat) : State :=
  s.modHart t c fun h =>
    match h.wait with
    | some _ => h
    | none =>
      { h with
        wait := some { what := what, instr := i, len := s.focus.len, deadline := h.newDeadline s.now timeout, since := s.now,
                       reported := 0 },
        abandoned := false, savedDeadline := none }

/-- The wait is over. -/
def State.unblock (s : State) (t c : Nat) : State :=
  s.modHart t c fun h => { h with wait := none, abandoned := false, savedDeadline := none }

/-- A blocking instruction that ends with a result for rd: the hart of a wait that ends is ready in the same clock cycle
(R358); one that has not waited has latency 1 (assumption 35). -/
def State.endWait (s : State) (t c : Nat) (rd : BitVec 5) (v : W64) : State :=
  (s.unblock t c).result t c rd v (if (s.hart t c).wait.isSome then 0 else 1)

/-! ### Accesses not yet performed (R73, R75, R111) -/

/-- Whether access id of the hart is parked. -/
def Ctx.isParked (x : Ctx) (id : Nat) : Bool := x.parkedHart.any fun p => decide (p.id = id)

/-- The writes of others that the hart has acquired and that have not been performed at a scope (R73, R111). -/
def State.unperformedAcquired (s : State) (t c sc : Nat) : List Nat :=
  (s.net.filter fun m => m.coveredBy (s.hart t c).acq && s.inScope sc t m.home && !(s.hart t c).outst.contains m.id).map Msg.id

/-- The hart's accesses, and the writes it has acquired, that have not been performed at a scope (R73, R75, R111). -/
def State.unperformed (s : State) (t c sc : Nat) : List Nat :=
  let x := s.ctx t c
  (x.hart.outst.filter fun id =>
    match s.msg? id with
    | some m => !m.after.isEmpty || s.inScope sc t m.home
    | none => x.isParked id) ++ s.unperformedAcquired t c sc

/-- The hart's accesses that have not been applied at all (R56). -/
def State.outstanding (s : State) (t c : Nat) : List Nat :=
  let x := s.ctx t c
  x.hart.outst.filter fun id => (s.msg? id).isSome || x.isParked id

/-- The hart issues a message; it is outstanding until it is gone. -/
def State.hartSend (s : State) (t c : Nat) (home : Home) (body : Body) (after : List Nat) (va : W64 := 0) :
    State :=
  let r := s.send (s.dieOf t) home body after (some (t, c)) va
  r.1.modHart t c fun h => { h with outst := s.outstanding t c ++ [r.2] }

/-- A read request, which carries the die's clock without a tick (R117). -/
def State.hartAsk (s : State) (t c : Nat) (home : Home) (body : Body) (va : W64) : State :=
  let r := s.sendQuiet (s.dieOf t) home body [] (some (t, c)) va
  r.1.modHart t c fun h => { h with outst := s.outstanding t c ++ [r.2] }

/-- A parking fault of a hart's access of a number: its record, and the access kept until the driver's reply (R72, R73,
R139). -/
def State.parkAs (s : State) (t c id : Nat) (f : TFault) (va : W64) (wr : Bool) (body : Body) : State × Bool :=
  let r : FaultRec := { arg := 0, lbmask := 0, sector := 0, va := va, wr := wr, queue := 4, reason := f.reason, code := f.code }
  match s.park t c r 1 with
  | (s, none) => (s, false)
  | (s, some q) =>
    let p : ParkedAccess := { id := id, seq := q, msg := body, va := va, write := wr, code := f.code, reason := f.reason }
    (s.modCtx t c fun x =>
      { x with parkedHart := x.parkedHart ++ [p],
               hart := { x.hart with outst := x.hart.outst.filter (fun n => decide (n ≠ id)) ++ [id] } }, true)

/-- A parking fault of a hart's access at its issue. -/
def State.parkHart (s : State) (t c : Nat) (f : TFault) (va : W64) (wr : Bool) (body : Body) : State × Bool :=
  { s with nextId := s.nextId + 1 }.parkAs t c s.nextId f va wr body

/-- The body of an access, at an address under a key. -/
def Body.atAddr (b : Body) (addr key : Nat) : Body :=
  match b with
  | .write _ data _ r => .write addr data key r
  | .atomic op size _ v k _ dest => .atomic op size addr v k key dest
  | .read _ size _ dest => .read addr size key dest
  | b => b

/-- Send an access of the hart to its home; a read tick-free. -/
def State.hartAccessTo (s : State) (t c : Nat) (home : Home) (b : Body) (after : List Nat) (va : W64) : State :=
  match b with
  | .read _ _ _ _ => s.hartAsk t c home b va
  | _ => s.hartSend t c home b after va

/-- An Xkgl access of n bytes at the address in a register: alignment (cause mis), then the reference (cause refCause) or
the translation, which may park the access (R71 to R74). go on says what the hart does once the access has left, or is
parked. -/
def State.xAccess (s : State) (t c : Nat) (spad : Bool) (a : W64) (n mis refCause : Nat) (need : Need) (sc : Nat)
    (body : Body) (go : State → State) : State :=
  if a.toNat % n ≠ 0 then s.raise t c mis a
  else if spad then
    if !s.refOk t c a n then s.raise t c refCause a
    else
      let u := refOn t a
      go (s.hartAccessTo t c (.tile u) (body.atAddr (sliceAddr u (refAddr a)) 0) (s.unperformed t c sc) a)
  else
    match s.translate t (s.asidOf t c) a need with
    | (s, .error f) =>
      match s.parkHart t c f a need.w body with
      | (s, true) => go s
      | (s, false) => s
    | (s, .ok d) =>
      let h := s.destHome d
      go (s.hartAccessTo t c h.1 (body.atAddr h.2.1 h.2.2) (s.unperformed t c sc) a)

/-! ### Acquire, release, atomics, fences (R72 to R75) -/

/-- K_LDA: the read leaves; the hart waits for its response. -/
def execKLda (sz : BitVec 2) (scope : BitVec 3) (spad : Bool) (rd rs1 : BitVec 5) (s : State) : Out :=
  let i : Instr := .kLda sz scope spad rd rs1
  s.hartDo i fun t c s =>
    if (s.hart t c).wait.isSome then s
    else
      s.xAccess t c spad (s.getX t c rs1) (sizeOf sz) 4 5 ⟨true, false, false⟩ 0
        (.read 0 (sizeOf sz) 0 { tile := t, ctx := c, rd := rd, size := sizeOf sz }) fun s => s.block t c .load i 0

/-- K_STL: a posted release store. -/
def execKStl (sz : BitVec 2) (scope : BitVec 3) (spad : Bool) (rs1 rs2 : BitVec 5) (s : State) : Out :=
  s.hartDo (.kStl sz scope spad rs1 rs2) fun t c s =>
    s.xAccess t c spad (s.getX t c rs1) (sizeOf sz) 6 7 ⟨false, true, false⟩ scope.toNat
      (.write 0 ((bytesOf (s.getX t c rs2) (sizeOf sz)).map some) 0 none) fun s => s.advance t c

/-- A k.amo of n bytes: posted with rd = x0, else the hart waits for the old value (R74). -/
def State.kAmo (s : State) (i : Instr) (n : Nat) (op : KAmoOp) (scope : BitVec 3) (spad : Bool) (rd rs1 rs2 : BitVec 5) : Out :=
  s.hartDo i fun t c s =>
    if (s.hart t c).wait.isSome then s
    else
      let dest : Option Reply := if rd = 0 then none else some { tile := t, ctx := c, rd := rd, size := n }
      s.xAccess t c spad (s.getX t c rs1) n 6 7 ⟨false, true, true⟩ scope.toNat
        (.atomic op n 0 (s.getX t c rs2) (s.getX t c rd) 0 dest)
        fun s => if rd = 0 then s.advance t c else s.block t c .load i 0

def execKAmoW (op : KAmoOp) (scope : BitVec 3) (spad : Bool) (rd rs1 rs2 : BitVec 5) (s : State) : Out :=
  s.kAmo (.kAmoW op scope spad rd rs1 rs2) 4 op scope spad rd rs1 rs2

def execKAmoD (op : KAmoOp) (scope : BitVec 3) (spad : Bool) (rd rs1 rs2 : BitVec 5) (s : State) : Out :=
  s.kAmo (.kAmoD op scope spad rd rs1 rs2) 8 op scope spad rd rs1 rs2

/-- K_FENCE: waits until every earlier access is performed at the scope (R75). -/
def execKFence (scope : BitVec 3) (s : State) : Out :=
  s.hartDo (.kFence scope) fun t c s =>
    if (s.unperformed t c scope.toNat).isEmpty then (s.unblock t c).advance t c else s.block t c .fence (.kFence scope) 0

/-! ### Semaphores (R77 to R80) -/

/-- A reference that must name a semaphore of the issuing tile (R71). -/
def State.localSemRef (s : State) (t c : Nat) (w : W64) : Bool := s.semRefOk t c w && refLocal t w

/-- k.sarm and k.sarm.z (R77). -/
def State.kArm (s : State) (i : Instr) (rs1 rs2 : BitVec 5) (zero : Bool) : Out :=
  s.hartDo i fun t c s =>
    let w := s.getX t c rs1
    if !s.localSemRef t c w then s.raise t c 7 w
    else (s.armSem t (refAddr w) (low32 (s.getX t c rs2)) zero).advance t c

def execKSarm (rs1 rs2 : BitVec 5) (s : State) : Out := s.kArm (.kSarm rs1 rs2) rs1 rs2 false

def execKSarmZ (rs1 rs2 : BitVec 5) (s : State) : Out := s.kArm (.kSarmZ rs1 rs2) rs1 rs2 true

/-- K_SPOST: a posted credit, a release at its scope; a zero count has no effect (R78). -/
def execKSpost (scope : BitVec 3) (rs1 rs2 : BitVec 5) (s : State) : Out :=
  s.hartDo (.kSpost scope rs1 rs2) fun t c s =>
    let w := s.getX t c rs1
    let n := (low32 (s.getX t c rs2)).toNat
    if !s.semRefOk t c w then s.raise t c 7 w
    else if n = 0 then s.advance t c
    else if refLocal t w then (s.localCredit t c (refAddr w) n (s.unperformed t c scope.toNat)).advance t c
    else
      (s.hartSend t c (.tile (refTile w)) (.credit (refTile w) (refAddr w) n) (s.unperformed t c scope.toNat)).advance t c

/-- The generation a k.swait awaits and its timeout in ticks. -/
def swaitWant (v : W64) : W16 := v.extractLsb' 0 16
def swaitTimeout (v : W64) : Nat := fieldNat v 63 16

/-- The acquire of a semaphore by a hart: of every credit applied to it (R120). -/
def State.acquireHart (s : State) (t c g : Nat) : State := s.acquire t c (s.sem t g).clock

/-- K_SWAIT (R79). -/
def execKSwait (rd rs1 rs2 : BitVec 5) (s : State) : Out :=
  s.hartDo (.kSwait rd rs1 rs2) fun t c s =>
    let w := s.getX t c rs1
    let v := s.getX t c rs2
    if !s.localSemRef t c w then s.raise t c 5 w
    else if (s.sem t (refAddr w)).reached (swaitWant v) then
      (s.acquireHart t c (refAddr w)).endWait t c rd (swaitResult (s.sem t (refAddr w)) false)
    else s.block t c (.sem (refAddr w) (swaitWant v)) (.kSwait rd rs1 rs2) (swaitTimeout v)

/-- Whether the hart's wait has a deadline that has come. -/
def State.timedOut (s : State) (t c : Nat) : Option Wait :=
  match (s.hart t c).wait with
  | some w => match w.deadline with
    | some d => if d ≤ s.now then some w else none
    | none => none
  | none => none

/-- K_SWAIT_TIMEOUT: the wait ends without an acquire (R79). -/
def execKSwaitTimeout (s : State) : Out :=
  let t := s.focus.tile
  let c := s.focus.ctx
  match s.timedOut t c with
  | some w => match w.what, w.instr with
    | .sem g _, .kSwait rd _ _ => .next (s.endWait t c rd (swaitResult (s.sem t g) true))
    | _, _ => .fault .notDue
  | none => .fault .notDue

/-- K_SREAD: an acquire of the credits of the generation read (R80). -/
def execKSread (rd rs1 : BitVec 5) (s : State) : Out :=
  s.hartDo (.kSread rd rs1) fun t c s =>
    let w := s.getX t c rs1
    if !s.localSemRef t c w then s.raise t c 5 w
    else (s.acquireHart t c (refAddr w)).result t c rd (sreadResult (s.sem t (refAddr w))) 1

/-! ### Futures (R81 to R85) -/

/-- Whether the cell at local address a is full. -/
def State.cellFull (s : State) (t a : Nat) : Bool := (s.localByte t (a + 12)).getLsbD 0

/-- The acquire of a put by a hart: of the clock kept with the cell (R120). -/
def State.acquireCell (s : State) (t c a : Nat) : State := s.acquire t c (tabGet Clock.zero (s.tile t).cells a)

/-- A cell that k.fget, k.ftry or k.hyield names: aligned, local, in a carve of the launch; the cause else (R71, R81). -/
def State.cellCause (s : State) (t c : Nat) (w : W64) : Option Nat :=
  if w.toNat % 16 ≠ 0 then some 4
  else if !(s.refOk t c w 16 && refLocal t w) then some 5
  else none

/-- K_FPUT: a posted put, a release at its scope (R82). -/
def execKFput (scope : BitVec 3) (rs1 rs2 : BitVec 5) (s : State) : Out :=
  s.hartDo (.kFput scope rs1 rs2) fun t c s =>
    let w := s.getX t c rs1
    if w.toNat % 16 ≠ 0 then s.raise t c 6 w
    else if !s.refOk t c w 16 then s.raise t c 7 w
    else
      let u := refOn t w
      (s.hartSend t c (.tile u) (.put (sliceAddr u (refAddr w)) (s.getX t c rs2) t (s.ctx t c).num)
        (s.unperformed t c scope.toNat)).advance t c

/-- A blocking instruction that reads bytes with an uncorrectable error ends as State.dataFault says (R3). -/
def State.waitFault (s : State) (t c : Nat) (a : W64) : State := (s.unblock t c).dataFault t c a false

/-- K_FGET: takes the value of a full cell; an empty one traps FEMPTY or blocks (R83, R84). -/
def execKFget (rd rs1 : BitVec 5) (s : State) : Out :=
  s.hartDo (.kFget rd rs1) fun t c s =>
    let w := s.getX t c rs1
    let a := refAddr w
    let h := s.hart t c
    match s.cellCause t c w with
    | some cause => s.raise t c cause w
    | none =>
      if s.localBad t a 16 then s.waitFault t c w
      else if s.cellFull t a then
        let v := wordOf 64 (s.localBytes t a 8)
        let s := s.acquireCell t c a
        (s.writeLocal t (a + 12) [s.localByte t (a + 12) &&& 0xFE] (some c)).endWait t c rd v
      else if h.fhandler ≠ 0 ∧ !h.fin then
        let k := (s.tile t).clk
        ((s.unblock t c).takeFempty t c w).modHart t c fun h => { h with nextAt := k + 2 }
      else s.block t c .cell (.kFget rd rs1) 0

/-- K_FTRY: TCTX and TTILE, OVR, FULL (R83). -/
def execKFtry (rd rs1 : BitVec 5) (s : State) : Out :=
  s.hartDo (.kFtry rd rs1) fun t c s =>
    let w := s.getX t c rs1
    let a := refAddr w
    match s.cellCause t c w with
    | some cause => s.raise t c cause w
    | none =>
      if s.localBad t a 16 then s.dataFault t c w false
      else
      let b := (wordOf 128 (s.localBytes t a 16))
      let v : W64 := (0 : BitVec 20) ++ b.extractLsb' 64 12 ++ (0 : BitVec 30) ++ b.extractLsb' 96 2
      (if s.cellFull t a then s.acquireCell t c a else s).result t c rd v 1

/-- K_FRET: returns from the handler; illegal with IN = 0 (R84). -/
def execKFret (s : State) : Out :=
  s.hartDo .kFret fun t c s =>
    if (s.hart t c).fin then
      let k := (s.tile t).clk
      (s.returnFempty t c).modHart t c fun h => { h with nextAt := k + 2 }
    else s.illegal t c

/-- K_HYIELD: waits until the cell is full, and consumes nothing (R85). -/
def execKHyield (rs1 : BitVec 5) (s : State) : Out :=
  s.hartDo (.kHyield rs1) fun t c s =>
    let w := s.getX t c rs1
    match s.cellCause t c w with
    | some cause => s.raise t c cause w
    | none =>
      if s.localBad t (refAddr w) 16 then s.waitFault t c w
      else if s.cellFull t (refAddr w) then (s.unblock t c).advance t c else s.block t c .cell (.kHyield rs1) 0

/-! ### Engine commands (R86 to R91) -/

/-- An address that must be 64-byte aligned and in the task's own carve for n bytes; the cause else (R87). -/
def State.ownCause (s : State) (t c : Nat) (a : W64) (n : Nat) : Option Nat :=
  if a.toNat % 64 ≠ 0 then some 4
  else if !s.inOwnCarve t c a.toNat n then some 5
  else none

/-- Enter queue q with timeline increment inc; rd takes TLSUM after the entry. -/
def State.enterQueue (s : State) (t c q : Nat) (rd : BitVec 5) (inc : W64) (f : Nat → Ctx → Ctx) : State :=
  let ord := ((s.ctx t c).count q).issued.toNat
  let s := s.modCtx t c fun x => (f ord x).setCount q ((x.count q).enter inc)
  s.endWait t c rd ((s.ctx t c).count q).tlsum

/-- The descriptor of a command: what it copied at issue if it waits, else d (R86 to R89). -/
def State.copied (s : State) (t c : Nat) (d : Rec64) : Rec64 := match (s.hart t c).wait with
  | some w => match w.what with
    | .queue _ e => e
    | _ => d
  | none => d

/-- The command's descriptor at address a is read at issue, unless it waits already; one with an uncorrectable error is
reported and enters nothing (R3, R87). -/
def State.descriptor (s : State) (t c : Nat) (a : W64) (f : Rec64 → State) : State :=
  if (s.hart t c).wait.isNone && s.localBad t a.toNat 64 then s.dataFault t c a false
  else f (s.copied t c (wordOf 512 (s.localBytes t a.toNat 64)))

/-- A command for queue q: it waits while the queue is full (R86). -/
def State.command (s : State) (t c q : Nat) (i : Instr) (rd : BitVec 5) (inc : W64) (d : Rec64) (f : Nat → Ctx → Ctx) : State :=
  if queueSize q ≤ (s.ctx t c).occ q then s.block t c (.queue q d) i 0 else s.enterQueue t c q rd inc f

/-- A run-queue entry (R67, R87). -/
def runEntry (d : Rec64) (bad : Bool) (fpcw : W32) (ord : Nat) : RunEntry :=
  { desc := d, malformed := bad, fpcw := fpcw, ord := ord, passed := false, started := false, issued := false }

/-- An entry of a copy channel or of the stack queue. -/
def queueEntry (d : Rec64) (bad : Bool) (ord : Nat) (idx : List Nat := []) : Entry :=
  { packet := d, malformed := bad, idx := idx, changed := [], wrote := [], ord := ord, checked := false, next := 0, landed := [], doneBelow := 0, parked := none,
    parkSeq := none, ready := none, finished := false }

def Ctx.addRun (x : Ctx) (d : Rec64) (bad : Bool) (ord : Nat) : Ctx :=
  { x with runs := x.runs ++ [runEntry d bad x.hart.fpcw ord] }

def Ctx.addEntry (x : Ctx) (q : Nat) (d : Rec64) (bad : Bool) (ord : Nat) (idx : List Nat := []) : Ctx :=
  x.setChan q (x.chan q ++ [queueEntry d bad ord idx])

/-- K_RUN (R87). -/
def execKRun (rd rs1 : BitVec 5) (s : State) : Out :=
  s.hartDo (.kRun rd rs1) fun t c s =>
    let a := s.getX t c rs1
    match s.ownCause t c a 64 with
    | some cause => s.raise t c cause a
    | none => s.descriptor t c a fun d =>
      s.command t c 4 (.kRun rd rs1) rd 1 d fun ord x => x.addRun d false ord

/-- The descriptor k.runi builds; whether other bits of its operands are set (R87). -/
def runiDesc (a b : W64) : Rec64 × Bool :=
  (BitVec.ofNat 512 (fieldNat a 12 0 + 2 ^ 16 * fieldNat a 29 16 + 2 ^ 128 * fieldNat b 31 0),
   !zeroFields a [(63, 30), (15, 13)] || !zeroFields b [(63, 32)])

/-- K_RUNI (R87). -/
def execKRuni (rd rs1 rs2 : BitVec 5) (s : State) : Out :=
  s.hartDo (.kRuni rd rs1 rs2) fun t c s =>
    let d := runiDesc (s.getX t c rs1) (s.getX t c rs2)
    s.command t c 4 (.kRuni rd rs1 rs2) rd 1 d.1 fun ord x => x.addRun d.1 d.2 ord

/-- TLINC of a packet (R127). -/
def pkTlinc (d : Rec64) : W64 := BitVec.ofNat 64 (fieldNat d 63 48)

/-- K_COPY (R88). -/
def execKCopy (ch : BitVec 2) (rd rs1 : BitVec 5) (s : State) : Out :=
  s.hartDo (.kCopy ch rd rs1) fun t c s =>
    let a := s.getX t c rs1
    match s.ownCause t c a 64 with
    | some cause => s.raise t c cause a
    | none => s.descriptor t c a fun d =>
      s.command t c ch.toNat (.kCopy ch rd rs1) rd (pkTlinc d) d fun ord x =>
        x.addEntry ch.toNat d false ord (s.indexWords t d)

/-- The packet k.copyi builds; whether other bits of rs2 are set (R88). -/
def copyiPacket (out : Bool) (a b : W64) : Rec64 × Bool :=
  let va := a.toNat
  let loc := fieldNat b 21 0
  (BitVec.ofNat 512 (1 + (if out then 2 ^ 8 else 2 ^ 10) + 2 ^ 48
      + 2 ^ 64 * (if out then loc else va) + 2 ^ 128 * (if out then va else loc) + 2 ^ 192 * fieldNat b 54 32),
   !zeroFields b [(63, 55), (31, 22)])

/-- k.copyi in either direction (R88). -/
def State.kCopyi (s : State) (i : Instr) (ch : BitVec 2) (out : Bool) (rd rs1 rs2 : BitVec 5) : Out :=
  s.hartDo i fun t c s =>
    let d := copyiPacket out (s.getX t c rs1) (s.getX t c rs2)
    s.command t c ch.toNat i rd 1 d.1 fun ord x => x.addEntry ch.toNat d.1 d.2 ord

def execKCopyiIn (ch : BitVec 2) (rd rs1 rs2 : BitVec 5) (s : State) : Out :=
  s.kCopyi (.kCopyiIn ch rd rs1 rs2) ch false rd rs1 rs2

def execKCopyiOut (ch : BitVec 2) (rd rs1 rs2 : BitVec 5) (s : State) : Out :=
  s.kCopyi (.kCopyiOut ch rd rs1 rs2) ch true rd rs1 rs2

/-- K_STK (R89). -/
def execKStk (rd rs1 : BitVec 5) (s : State) : Out :=
  s.hartDo (.kStk rd rs1) fun t c s =>
    let a := s.getX t c rs1
    match s.ownCause t c a 64 with
    | some cause => s.raise t c cause a
    | none => s.descriptor t c a fun d =>
      s.command t c 5 (.kStk rd rs1) rd 1 d fun ord x => x.addEntry 5 d false ord

/-- The queues a mask of k.mfence names: run, ch0 to ch3, stk (R90). -/
def fenceQueues (m : BitVec 6) : List Nat :=
  ((List.range 6).filter fun b => m.getLsbD b).map fun b => if b = 0 then 4 else if b = 5 then 5 else b - 1

/-- K_MFENCE: FENCE takes ISSUED (R90). -/
def execKMfence (mask : BitVec 6) (s : State) : Out :=
  s.hartDo (.kMfence mask) fun t c s =>
    (s.modCtx t c fun x =>
      (fenceQueues mask).foldl (fun x q => x.setCount q { x.count q with fence := (x.count q).issued }) x).advance t c

/-- Whether every queue has retired what its fence names (R90). -/
def Ctx.joined (x : Ctx) : Bool := (List.range 6).all fun q => (x.count q).fence.ule (x.count q).retired

/-- The acquire of what has left the context's queues (R113, R120). -/
def State.acquireLeft (s : State) (t c : Nat) : State := s.acquire t c (s.ctx t c).left

/-- K_JOIN: an acquire of the entries it waits for (R90, R120). -/
def execKJoin (s : State) : Out :=
  s.hartDo .kJoin fun t c s =>
    if (s.ctx t c).joined then ((s.acquireLeft t c).unblock t c).advance t c else s.block t c .join .kJoin 0

/-- K_TLWAIT: 0 when the value is reached, an acquire of the entries that reached it (R91, R120). -/
def execKTlwait (q : BitVec 3) (rd rs1 rs2 : BitVec 5) (s : State) : Out :=
  s.hartDo (.kTlwait q rd rs1 rs2) fun t c s =>
    if (s.getX t c rs1).ule ((s.ctx t c).count q.toNat).timeline then (s.acquireLeft t c).endWait t c rd 0
    else s.block t c (.timeline q.toNat) (.kTlwait q rd rs1 rs2) (s.getX t c rs2).toNat

/-- K_TLWAIT_TIMEOUT: 1 on timeout (R91). -/
def execKTlwaitTimeout (s : State) : Out :=
  let t := s.focus.tile
  let c := s.focus.ctx
  match s.timedOut t c with
  | some w => match w.instr with
    | .kTlwait _ rd _ _ => .next (s.endWait t c rd 1)
    | _ => .fault .notDue
  | none => .fault .notDue

/-- K_TLREAD (R91). -/
def execKTlread (q : BitVec 3) (rd : BitVec 5) (s : State) : Out :=
  s.hartDo (.kTlread q rd) fun t c s => s.result t c rd ((s.ctx t c).count q.toNat).timeline 1

/-- Whether an entry of queue q is parked on a fault. -/
def Ctx.parkedIn (x : Ctx) (q : Nat) : Bool := decide (q ≠ 4) && (x.chan q).any fun e => e.parked.isSome

/-- The state word of a queue (R91). -/
def Ctx.qstat (x : Ctx) (q : Nat) : W64 :=
  (x.count q).retired.extractLsb' 0 32 ++ (0 : BitVec 15) ++ bit (x.parkedIn q)
    ++ BitVec.ofNat 8 (queueSize q - x.occ q) ++ BitVec.ofNat 8 (x.occ q)

/-- K_QSTAT (R91). -/
def execKQstat (q : BitVec 3) (rd : BitVec 5) (s : State) : Out :=
  s.hartDo (.kQstat q rd) fun t c s => s.result t c rd ((s.ctx t c).qstat q.toNat) 1

/-! ### Exit, pause, accounts (R96 to R98) -/

/-- K_EXIT retires the task (R96). -/
def execKExit (s : State) : Out := s.hartDo .kExit fun t c s => s.retire t c

/-- K_PAUSE: the window runs from the next clock cycle; this cycle's end takes one off (R97). -/
def execKPause (n : BitVec 12) (s : State) : Out :=
  s.hartDo (.kPause n) fun t c s => (s.modHart t c fun h => { h with pause := n.toNat + 1 }).advance t c

/-- PAUSE_END: the last clock cycle of the window ends (R97). -/
def execPauseEnd (s : State) : Out :=
  let t := s.focus.tile
  let c := s.focus.ctx
  if (s.hart t c).pause = 1 then .next (s.modHart t c fun h => { h with pause := 0 }) else .fault .notDue

/-- The function whose ring takes a context's records, and whether it collects stamps and traces (R364). -/
def State.ringFn (s : State) (t c : Nat) : Nat := s.asidFn (s.asidOf t c)
def State.collects (s : State) (t c : Nat) : Bool := (s.page (s.ringFn t c)).trcfg.getLsbD 2

/-- A stamp or trace record of a hart (R98, R366). -/
def State.hartRecord (s : State) (t c kind : Nat) (id : BitVec 12) (data0 : W64) : State :=
  if s.collects t c then
    s.ring (s.ringFn t c) t
      { kind := kind, id := id.toNat, slot := 8, pc := (s.hart t c).pc.toNat, cause := 31, ctx := (s.ctx t c).num,
        data0 := data0, data1 := 0 }
  else s

/-- Write the freeze record of a run of freeze cycles that has ended (R366, R369). -/
def State.flushFreeze (s : State) (t : Nat) : State :=
  match (s.engine t).frzRun with
  | none => s
  | some (cause, c, n, pc) =>
    let s := s.modEngine t fun e => { e with frzRun := none }
    let f := s.ringFn t c
    if (s.page f).trcfg.getLsbD 3 then
      s.ring f t { kind := 5, id := 0, slot := 15, pc := pc, cause := cause.code, ctx := (s.ctx t c).num,
                   data0 := BitVec.ofNat 64 n, data1 := BitVec.ofNat 64 (min (s.bun t c).armed 1024) }
    else s

/-- A context leaves the tile or its key: the record of a run of freeze cycles charged to it is written first (R369). -/
def State.flushFreezeOf (s : State) (t c : Nat) : State :=
  match (s.engine t).frzRun with
  | some (_, o, _, _) => if o = c then s.flushFreeze t else s
  | none => s

/-- K_STAMP (R98). -/
def execKStamp (id : BitVec 12) (rd : BitVec 5) (s : State) : Out :=
  s.hartDo (.kStamp id rd) fun t c s => (s.hartRecord t c 2 id 0).result t c rd s.ktime 1

/-- K_TRACE (R98). -/
def execKTrace (id : BitVec 12) (rs1 : BitVec 5) (s : State) : Out :=
  s.hartDo (.kTrace id rs1) fun t c s => (s.hartRecord t c 3 id (s.getX t c rs1)).advance t c

/-- The key of an account counter: slot, owner, cause (R362). -/
def acctKey (slot owner cause : Nat) : Nat := (slot * 9 + owner) * 18 + cause

/-- A counter of a tile by selector; none for a selector no counter has (R98, R362). -/
def State.counter (s : State) (t : Nat) (sel : W64) : Option (BitVec 48) :=
  let cause := fieldNat sel 4 0
  let slot := fieldNat sel 11 8
  let owner := fieldNat sel 19 16
  if !zeroFields sel [(63, 20), (15, 12), (7, 5)] then none
  else if cause = 31 then some (s.tile t).elapsed
  else if 18 ≤ cause ∨ 9 ≤ slot ∨ 9 ≤ owner then none
  else some (tabGet 0 (s.tile t).acct (acctKey slot owner cause))

/-- K_ACCT: all ones for a counter of another owner (R98). -/
def execKAcct (rd rs1 : BitVec 5) (s : State) : Out :=
  s.hartDo (.kAcct rd rs1) fun t c s =>
    let sel := s.getX t c rs1
    let mine := decide (fieldNat sel 4 0 = 31) || decide (fieldNat sel 19 16 = (s.ctx t c).num)
    match s.counter t sel with
    | some v => s.result t c rd (if mine then v.setWidth 64 else BitVec.allOnes 64) 1
    | none => s.result t c rd (BitVec.allOnes 64) 1

/-- K_RAISE: an event record with the code (R98). -/
def execKRaise (rs1 : BitVec 5) (s : State) : Out :=
  s.hartDo (.kRaise rs1) fun t c s => (s.event t c 0 0 ((low32 (s.getX t c rs1)).setWidth 64)).advance t c

/-- K_RAISE_F: a fatal fault carrying the code (R98, R340). -/
def execKRaiseF (rs1 : BitVec 5) (s : State) : Out :=
  s.hartDo (.kRaiseF rs1) fun t c s =>
    let x := s.ctx t c
    let r := { s.stopRec t c 0x30 with
      arg := (low32 (s.getX t c rs1)).setWidth 64, word := s.pcWord t c, pc := x.hart.pc, src := 1 }
    (s.charge t [8] (if x.dbg.catches 0x30 then .halt else .fault) x.num x.hart.pc.toNat).takeStop t c r

end Sys2Proof.Machine
end

