-- ==== Sys2Proof/Machine/Messages.lean ====
section
/-! DEFINITION. Messages between tiles, homes and dies (R110, R117 to R125): when one may be applied, and what applying it
does: writes, atomics, puts, reads and their responses, credits, frontier messages, acknowledgements of the pod. -/

namespace Sys2Proof.Machine

/-! ### Homes as numbers -/

/-- A home's number in a row: stacks 0 to 23, die nodes 24 to 33, the host 34, the pod 35, tiles from 64. -/
def homeCode : Home → Nat
  | .stack h => h
  | .node d => 24 + d
  | .host => 34
  | .pod => 35
  | .tile t => 64 + t

def homeOfCode (n : Nat) : Home :=
  if n < 24 then .stack n else if n < 34 then .node (n - 24) else if n = 34 then .host else if n = 35 then .pod
  else .tile (n - 64)

/-! ### When a message is applied (R40, R73, R118, R119) -/

/-- Whether some context holds a parked access of this number. -/
def State.isParked (s : State) (id : Nat) : Bool := s.tiles.any fun e => e.2.ctxs.any fun x => x.2.isParked id

/-- Whether every access a message waits for is performed, and its die's lead allows its tick (R73, R117). -/
def State.released (s : State) (m : Msg) : Bool :=
  (s.tooFar m.src).isEmpty && m.after.all fun id => (s.msg? id).isNone && !s.isParked id

/-- What a message says of the moment it leaves: a barrier arrival carries its tick and the weight of its tile (R294,
R296). -/
def State.stampBody (s : State) : Body → Body
  | .arrival a => .arrival { a with weight := s.weight a.tile, tick := s.now }
  | b => b

/-- A message whose accesses are performed leaves its tile: it takes its tick and its place in the order now (R73, R117). -/
def State.leaveTile (s : State) (m : Msg) : State :=
  let s := if m.isLocal then s else s.tickDie m.src
  { s with net := (s.net.filter fun n => decide (n.id ≠ m.id)) ++
      [{ m with after := [], clock := s.dieClock m.src, sent := s.now, body := s.stampBody m.body }] }

/-- Every message that may leave its tile does, one after another. -/
def State.leaveTiles (s : State) : State :=
  (s.net.filter fun m => !m.after.isEmpty).foldl (fun u m => if u.released m then u.leaveTile m else u) s

/-- Reads, which no later message waits for: the frontier they wait for may travel behind them (R118, R119). -/
def Msg.isRead (m : Msg) : Bool := match m.body with
  | .read _ _ _ _ | .fetch _ _ _ => true
  | _ => false

/-- Whether 512 earlier reads of host memory are outstanding: the device has no more (R153). -/
def State.hostFull (s : State) (m : Msg) : Bool :=
  decide (m.home = .host) && m.isRead
    && decide (512 ≤ ((s.net.takeWhile fun n => decide (n.id ≠ m.id)).filter fun n => decide (n.home = .host) && n.isRead && n.after.isEmpty).length)

/-- Whether an earlier message of the same source to the same home is still in flight (R28, R118). -/
def earlierInFlight (m : Msg) : List Msg → Bool
  | [] => false
  | n :: l =>
    if n.id = m.id then false
    else (decide (n.src = m.src) && decide (n.home = m.home) && n.after.isEmpty && !n.unordered
      && !n.isRead) || earlierInFlight m l

/-- Whether the home's frontier covers what the message carries: a read all of it, a frontier message nothing, a write
every component but its source's (R118, R119). -/
def State.covered (s : State) (m : Msg) : Bool :=
  match m.body with
  | .read _ _ _ _ | .fetch _ _ _ => (s.frontier m.home).covers m.clock
  | .frontier _ | .arrival _ | .retired _ => true
  | _ => (s.frontier m.home).coversBut m.clock m.src

/-- Whether a message may be applied. What is addressed to a tile that moves is held where it enters the mesh, which a hart's
credit to its own tile does not (R22, R40). -/
def State.applicable (s : State) (m : Msg) : Bool :=
  let held := match m.home with
    | .tile t => s.holding.contains t && !m.isLocal
    | _ => false
  m.after.isEmpty && !held && !s.hostFull m && (m.unordered || (!earlierInFlight m s.net && s.covered m))

/-- The frontier of a home once a message of its source has been applied (R118). -/
def State.applied (s : State) (m : Msg) : State :=
  let s := s.dropMsg m.id
  if m.unordered then s
  else match m.body with
    | .read _ _ _ _ | .fetch _ _ _ => s
    | _ => s.setFrontier m.home ((s.frontier m.home).setAt m.src (laterComp ((s.frontier m.home).at m.src) (m.clock.at m.src)))

/-! ### Bytes at a home -/

/-- The bytes that a write brings, by canonical address. -/
def State.cellsTo (s : State) (addr : Nat) (data : List (Option Byte)) : List (Nat × Byte) :=
  ((List.range data.length).zip data).filterMap fun e => e.2.map fun b => (s.canon (addr + e.1), b)

/-- The bytes of a write that its home cannot make: under a key, a unit written in part is read first, and one with an
uncorrectable error stays unwritten (R3, R149). -/
def State.unwritten (s : State) (home : Home) (addr key : Nat) (data : List (Option Byte)) : List Nat :=
  match home with
  | .stack _ =>
    if key = 0 then []
    else
      let as := (s.cellsTo addr data).map Prod.fst
      as.filter fun a => s.eccBad a && !((List.range 64).all fun i => as.contains (a / 64 * 64 + i))
  | _ => []

/-- Write the enabled bytes of a message at its home, but those that it cannot make; the lines keep its clock (R110, R119, R123); fn: the function a write
of host memory goes out under (R124). -/
def State.writeAt (s : State) (home : Home) (addr key : Nat) (data : List (Option Byte)) (clock : Clock) (fn : Nat := 0) : State :=
  let cells := ((List.range data.length).zip data).filterMap fun e => e.2.map fun b => (addr + e.1, b)
  match home with
  | .stack _ =>
    let no := s.unwritten home addr key data
    let as := (s.cellsTo addr data).filter fun e => !no.contains e.1
    let s := (s.hbmSets key as).clearEcc (as.map Prod.fst)
    ((as.map fun e => lineOf e.1).eraseDups).foldl (fun u n => u.setLine home n clock) s
  | .tile t =>
    let base := sliceAddr t 0
    let s := cells.foldl (fun u e => u.writeLocal t (e.1 - base) [e.2] none) s
    ((cells.map fun e => lineOf e.1).eraseDups).foldl (fun u n => u.setLine home n clock) s
  | .host => s.hostSend fn addr data
  | _ => s

/-- n bytes at a home as a read sees them; none when one lies in a unit with an uncorrectable error, of HBM or of a
scratchpad slice (R3, R150). -/
def State.readAt (s : State) (home : Home) (addr key n : Nat) : Option (List Byte) :=
  match home with
  | .stack _ =>
    let as := (List.range n).map fun i => s.canon (addr + i)
    if as.any s.eccBad then none else some (s.hbmRead key as)
  | .tile t =>
    if ((List.range n).map fun i => addr + i).any s.eccBad then none else some (s.localBytes t (addr - sliceAddr t 0) n)
  | .host => some (s.hostRead addr n)
  | _ => some (List.replicate n 0)

/-- A read of n bytes at a home that meets an uncorrectable error is counted (R3, R386). -/
def State.noteRead (s : State) (home : Home) (addr n : Nat) : State :=
  match home with
  | .stack _ => s.noteEcc ((List.range n).map fun i => s.canon (addr + i))
  | _ => s

/-- The lines that bytes addr to addr + n - 1 of a home lie in. -/
def State.linesOf (s : State) (addr n : Nat) : List Nat :=
  (List.range ((addr % 64 + n + 63) / 64)).map fun i => lineOf (s.canon (addr / 64 * 64 + 64 * i))

/-- The clock a response carries: that of every line it returns bytes of, else the frontier; a tile's home port adds its
die's clock (R119). -/
def State.readClock (s : State) (home : Home) (addr n : Nat) : Clock :=
  let line := (s.linesOf addr n).foldl (fun k l => k.merge ((s.lineClock? home l).getD (s.frontier home))) Clock.zero
  match home with
  | .tile t => line.merge (s.dieClock (s.dieOf t))
  | .host => Clock.zero
  | _ => line

/-- The message of a row, if it may be applied. -/
def State.dueMsg (s : State) (id : Nat) : Option Msg :=
  match s.msg? id with
  | some m => if s.applicable m then some m else none
  | none => none

/-! ### The rows -/

/-- A message of a sector has been applied; the sector has landed with the last one (R132). -/
def State.sectorApplied (s : State) (sec msg : Nat) : State :=
  let upd (x : Sector) : Sector := if x.id = sec then { x with out := x.out.filter fun n => decide (n ≠ msg) } else x
  let s : State := { s with tiles := s.tiles.map fun (e : Nat × Tile) => (e.1, { e.2 with sectors := e.2.sectors.map upd }) }
  if s.tiles.any fun e => e.2.sectors.any fun x => decide (x.id = sec) && x.out.isEmpty then
    s.later [.row (.sectorLanded sec) Focus.reset]
  else s

/-- The formats of stack engines (R142). -/
def stackFmt (code : Nat) : LFmt := match code with
  | 0 => .f fp32
  | 1 => .f bf16
  | 2 => .f fp16
  | 3 => .f e5m2
  | 4 => .f e4m3
  | 5 => .f e3m4
  | 6 => .i true 8
  | 7 => .i false 8
  | 8 => .i true 16
  | _ => .i true 32

def stackSize (code : Nat) : Nat := (stackFmt code).width / 8

/-- cvt(x, f, m) of R143, as the bytes of an element. -/
def stackCvt (x : Val) (f m : Nat) : List Byte := bytesOf ((stackFmt f).round (modeOf m) x).1 (stackSize f)

/-- The number an element stands for. -/
def stackVal (f : Nat) (l : List Byte) : Val := (stackFmt f).decode (natOfBytes l)

/-- One byte at a home, by address and key slot. -/
def State.byteAt (s : State) (home : Home) (a key : Nat) : Byte :=
  match home with
  | .stack _ => s.hbmGet key a
  | .tile t => s.localByte t (a - sliceAddr t 0)
  | .host => cellRead s.hostMem a
  | _ => 0

/-- The runs of consecutive addresses of bytes, as the port sends them. -/
def hostRuns : List (Nat × Nat) → List Byte → List (Nat × List Byte)
  | a :: as, b :: bs => match hostRuns as bs with
    | (c, l) :: r => if c = a.1 + 1 then (a.1, b :: l) :: r else (a.1, [b]) :: (c, l) :: r
    | [] => [(a.1, [b])]
  | _, _ => []

/-- Destination bytes of a sector at a home; an added element takes cvt(val(e) + val(x)) (R132, R144). -/
def State.applyItem (s : State) (home : Home) (clock : Clock) (x : SecItem) (fn : Nat := 0) : State :=
  let data := match x.acc with
    | none => x.data
    | some (sf, df, m) =>
      let old := x.addrs.map fun a => s.byteAt home a.1 a.2
      stackCvt ((stackVal df old).add (decide (m = 3)) (stackVal sf x.data)) df m
  ((hostRuns x.addrs data).foldl (fun (u : State) e => match home with
    | .host => u.hostSend fn e.1 (e.2.map some)
    | _ => u) s)
  |> (x.addrs.zip data).foldl (fun (u : State) e => match home with
    | .stack _ => u.hbmSet e.1.2 e.1.1 e.2
    | .tile t => u.writeLocal t (e.1.1 - sliceAddr t 0) [e.2] none
    | _ => u)
  |> fun u => match home with
    | .stack _ => u.clearEcc (x.addrs.map Prod.fst)
    | _ => u
  |> fun u => match home with
    | .stack _ | .tile _ => ((x.addrs.map fun a => lineOf a.1).eraseDups).foldl (fun u n => u.setLine home n clock) u
    | _ => u

/-- The new value of an atomic (R74). -/
def kAmoValue (op : KAmoOp) (n : Nat) (old b cmp : W64) : W64 :=
  let narrow (v : W64) : Int := if n = 8 then v.toInt else (low32 v).toInt
  let same (v w : W64) : Bool := if n = 8 then decide (v = w) else decide (low32 v = low32 w)
  match op with
  | .add => old + b
  | .swap => b
  | .and => old &&& b
  | .or => old ||| b
  | .xor => old ^^^ b
  | .min => if narrow old ≤ narrow b then old else b
  | .max => if narrow b ≤ narrow old then old else b
  | .cas => if same old cmp then b else old

/-- The answer to a read or an atomic leaves its home. -/
def State.respond (s : State) (m : Msg) (val : Option W64) (dest : Reply) (clock : Clock) : State :=
  (s.post { id := 0, src := s.homeDie m.home, home := .tile dest.tile, clock := clock, sent := s.now, after := [], own := m.own,
            va := m.va, fn := m.fn, body := .response val dest }).1

/-- Whether a context's access finds its page's key slot loaded for its address space when the unit is applied (R136). -/
def State.keyFits (s : State) (m : Msg) (key : Nat) : Bool :=
  match m.home, m.own with
  | .stack _, some (t, c) => (s.ctx? t c).isNone || s.keyOk key (s.asidOf t c)
  | _, _ => true

/-- Whether a message is an access of its context's hart. -/
def State.isHarts (s : State) (m : Msg) : Bool := match m.own with
  | some (t, c) => (s.hart t c).outst.contains m.id
  | none => false

/-- Whether the home refuses a hart's access for its key slot (R136). -/
def State.keyRefused (s : State) (m : Msg) (key : Nat) : Bool := !s.keyFits m key && s.isHarts m

/-- A hart's access that its home refuses for its key slot parks under its number (R73, R136, R139). -/
def State.refuseKey (s : State) (m : Msg) : State :=
  match m.own with
  | some (t, c) => ((s.applied m).parkAs t c m.id ⟨0x12, 1⟩ m.va (!m.isRead) m.body).1
  | none => s.applied m

/-- REMOTE_ATOMIC: an indivisible read-modify-write at the home (R74); a block counter's write-back likewise (R370). -/
def execRemoteAtomic (id : Nat) (s : State) : Out :=
  match s.dueMsg id with
  | some m => match m.body with
    | .atomic op size addr v cmp key dest =>
      if s.keyRefused m key then .next (s.refuseKey m)
      else match s.readAt m.home addr key size with
      | none =>
        let s := (s.applied m).noteRead m.home addr size
        match dest, m.own with
        | some r, _ => .next (s.respond m none r Clock.zero)
        | none, some (t, c) => .next (s.cdata t c 0 4 0 m.va true)
        | none, none => .next s
      | some l =>
        let old := signOf size l
        let new := kAmoValue op size old v cmp
        let clock := s.readClock m.home addr size
        let s := (s.writeAt m.home addr key ((bytesOf new size).map some) m.clock).applied m
        match dest with
        | some r => .next (s.respond m (some old) r (clock.merge m.clock))
        | none => .next s
    | .count addr delta key n _ _ _ =>
      if !s.keyFits m key then .next (match m.own with
        | some (t, c) => (s.applied m).event t c 0 2 (BitVec.ofNat 64 n)
        | none => s.applied m)
      else match s.readAt m.home addr key 8, m.own with
      | none, some (t, c) => .next (((s.applied m).noteRead m.home addr 8).event t c 0 2 (BitVec.ofNat 64 n))
      | none, none => .next ((s.applied m).noteRead m.home addr 8)
      | some l, _ => .next ((s.writeAt m.home addr key ((bytesOf (wordOf 64 l + delta) 8).map some) m.clock m.fn).applied m)
    | _ => .fault .notDue
  | none => .fault .notDue

/-- FUTURE_PUT_APPLY: a put at the cell's home (R82). -/
def execFuturePutApply (id : Nat) (s : State) : Out :=
  match s.dueMsg id with
  | some m => match m.home, m.body with
    | .tile u, .put addr v t c =>
      let a := addr - sliceAddr u 0
      let b := s.localByte u (a + 12)
      let s :=
        if s.cellFull u a then (s.writeLocal u (a + 12) [b ||| 2] none).setLine m.home (lineOf addr) m.clock
        else
          let tag : BitVec 32 := (0 : BitVec 20) ++ BitVec.ofNat 3 c ++ BitVec.ofNat 9 t
          let s := s.writeLocal u a (bytesOf v 8 ++ bytesOf tag 4 ++ [b ||| 1]) none
          (s.setLine m.home (lineOf addr) m.clock).modTile u fun x => { x with cells := tabPut x.cells a m.clock }
      .next (s.applied m)
    | _, _ => .fault .notDue
  | none => .fault .notDue

/-- What the home of an overflow access answers is kept with the access, whichever tile's it is (R119, R213). -/
def State.answerFill (s : State) (id : Nat) (x : FillData) : State :=
  let got (i : Item) : Item := match i.kind with
    | .spillOut n a k h mask tgt fill _ => if n = id then { i with kind := .spillOut n a k h mask tgt fill (some x) } else i
    | _ => i
  { s with tiles := s.tiles.map fun (e : Nat × Tile) => (e.1, { e.2 with engine := { e.2.engine with items := e.2.engine.items.map got } }) }

/-- READ_SERVE: a read served at its home; the response carries a clock that covers the writes it returns (R119). -/
def execReadServe (id : Nat) (s : State) : Out :=
  match s.dueMsg id with
  | some m => match m.body with
    | .read addr size key dest =>
      if s.keyRefused m key then .next (s.refuseKey m)
      else
      let val := (s.readAt m.home addr key size).map (signOf size)
      let clock := s.readClock m.home addr size
      .next (((s.applied m).noteRead m.home addr size).respond m val dest clock)
    | .fetch addr size key =>
      let got := s.readAt m.home addr key size
      let fault : Option (Nat × Nat × Nat) :=
        if !s.keyFits m key then some (0x12, 1, 0)
        else if got.isNone then some (0x13, 0, 64 * (((List.range 8).find? fun j => s.eccBad (addr + 64 * j)).getD 0))
        else none
      let u := if s.keyFits m key then (s.applied m).noteRead m.home addr size else s.applied m
      .next (u.answerFill id { bytes := got.getD [], clock := s.readClock m.home addr size, fault := fault })
    | _ => .fault .notDue
  | none => .fault .notDue

/-- READ_RESPONSE: the hart acquires the response's clock, rd takes the value, the hart goes on; an uncorrectable error leaves
rd unchanged (R72, R119, R120). -/
def execReadResponse (id : Nat) (s : State) : Out :=
  match s.dueMsg id with
  | some m => match m.body with
    | .response val dest =>
      let t := dest.tile
      let c := dest.ctx
      match (s.hart t c).wait with
      | none => .next ((s.mergeDie (s.dieOf t) m.clock).dropMsg m.id)
      | some w =>
        let s := (s.acquire t c m.clock).dropMsg m.id
        let k := (s.tile t).clk
        match val with
        | some v =>
          let s := (s.unblock t c).setX t c dest.rd v
          .next (s.modHart t c fun h => { h with pc := h.pc + BitVec.ofNat 64 w.len, regAt := tabPut h.regAt dest.rd.toNat k })
        | none =>
          -- without a fault queue it is a stop, before any effect of the instruction (R341, R343)
          let stops := decide (recFqVa (s.recOf t c) = 0)
          let s := s.cdata t c 0 4 0 m.va false
          .next (if stops then s
            else (s.unblock t c).modHart t c fun h => { h with pc := h.pc + BitVec.ofNat 64 w.len })
    | _ => .fault .notDue
  | none => .fault .notDue

/-- SEMAPHORE_CREDIT: a credit applied in one indivisible step (R24, R120). DESIGN CHOICE, assumption 104: the completion credit
of a launch whose CTILE has been fenced since its allocation (R39, R58) is applied to the semaphore kept under that number. -/
def execSemaphoreCredit (id : Nat) (s : State) : Out :=
  match s.dueMsg id with
  | some m => match m.body with
    | .credit t g v => .next ((s.creditSem t g v m.clock).applied m)
    | .semErr t g => .next ((s.modSem t g fun x => { x with err := true }).applied m)
    | _ => .fault .notDue
  | none => .fault .notDue

/-- FRONTIER_MESSAGE: a source sends a home its current component (R118). -/
def execFrontierMessage (src home : Nat) (s : State) : Out :=
  .next (s.sendQuiet src (homeOfCode home) (.frontier ((s.dieClock src).at src)) [] none).1

/-- FRONTIER_REQUEST: a home asks a source; the source answers with a frontier message (R118). -/
def execFrontierRequest (home src : Nat) (s : State) : Out :=
  .next (s.later [.row (.frontierMessage src home) Focus.reset])

/-- FRONTIER_UPDATE: a frontier message behind all of its source's earlier messages (R118). -/
def execFrontierUpdate (id : Nat) (s : State) : Out :=
  match s.dueMsg id with
  | some m => match m.body with
    | .frontier v => .next ((s.dropMsg m.id).setFrontier m.home ((s.frontier m.home).setAt m.src v))
    | _ => .fault .notDue
  | none => .fault .notDue

end Sys2Proof.Machine
end

