-- ==== Sys2Proof/Machine/Parcels.lean ====
section
/-! DEFINITION. The parcel distributor (R92, R290 to R293) and the barriers (R93, R94, R294 to R296). -/

namespace Sys2Proof.Machine

/-! ### The distributor (R290 to R293) -/

def allOnes64 : W64 := BitVec.allOnes 64

/-- The largest weight among the tiles of a launch. -/
def Parcels.maxWeight (p : Parcels) : Nat := p.weight.foldl (fun m e => max m e.2) 0

/-- d(t) = ceil(8 w(t) / w_max) (R290). -/
def Parcels.depth (p : Parcels) (t : Nat) : Nat :=
  let m := p.maxWeight
  if m = 0 then 8 else (8 * tabGet 0 p.weight t + m - 1) / m

def Parcels.queue (p : Parcels) (t : Nat) : List Nat := tabGet [] p.q t

/-- The flag hungry(t) after a change of q(t) or of d(t) (R291, R293). -/
def Parcels.settle (p : Parcels) (t : Nat) : Parcels :=
  let n := (p.queue t).length
  let d := p.depth t
  if n * 2 < d then { p with hungry := insNat t p.hungry }
  else if d ≤ n then { p with hungry := p.hungry.filter fun u => decide (u ≠ t) }
  else p

def Parcels.setQueue (p : Parcels) (t : Nat) (l : List Nat) : Parcels := { p with q := tabPut p.q t l }

/-- The distributor's state at launch start: every queue empty, every tile hungry (R290). -/
def Parcels.start (total : Nat) (weights : Tab Nat) : Parcels :=
  { total := total, next := 0, drawn := 0, q := [], drawnAt := [], hungry := tabKeys weights, weight := weights }

/-- Of two tiles the one with the lesser size(q) / d, ties by lower number (R291). -/
def Parcels.emptier (p : Parcels) (a b : Nat) : Nat :=
  let x := (p.queue a).length * p.depth b
  let y := (p.queue b).length * p.depth a
  if x < y then a else if y < x then b else min a b

/-- The tile that the next parcel is dealt to (R291). -/
def Parcels.dealTo (p : Parcels) : Option Nat :=
  match p.hungry with
  | [] => none
  | t :: l => some (l.foldl p.emptier t)

/-- One deal step for a launch (R291). -/
def Parcels.deal (p : Parcels) : Parcels :=
  if p.total ≤ p.next then p
  else match p.dealTo with
    | none => p
    | some t => ({ p with next := p.next + 1 }.setQueue t (p.queue t ++ [p.next])).settle t

/-- A draw at q(t): the parcel, none when the queue is empty (R292). -/
def Parcels.draw (p : Parcels) (t : Nat) : Parcels × Option Nat :=
  match p.queue t with
  | [] => (p, none)
  | n :: l =>
    (({ p with drawn := p.drawn + 1, drawnAt := tabPut p.drawnAt t (tabGet 0 p.drawnAt t + 1) }.setQueue t l).settle t, some n)

/-- Of two tiles the one with the greater size(q) / w, ties by lower number (R292). -/
def Parcels.fuller (p : Parcels) (a b : Nat) : Nat :=
  let x := (p.queue a).length * tabGet 0 p.weight b
  let y := (p.queue b).length * tabGet 0 p.weight a
  if y < x then a else if x < y then b else min a b

/-- The tile that reclaim(t) takes from (R292). -/
def Parcels.reclaimFrom (p : Parcels) (t : Nat) : Option Nat :=
  match (tabKeys p.q).filter fun u => decide (u ≠ t) && !(p.queue u).isEmpty with
  | [] => none
  | u :: l => some (l.foldl p.fuller u)

/-- reclaim(t) of R292. -/
def Parcels.reclaim (p : Parcels) (t : Nat) : Parcels :=
  match p.reclaimFrom t with
  | none => p
  | some u =>
    let l := p.queue u
    match l.getLast? with
    | none => p
    | some n => (((p.setQueue u l.dropLast).settle u).setQueue t (p.queue t ++ [n])).settle t

def State.parcelsOf (s : State) (l : Nat) : Option Parcels := tabGet? s.parcels l
def State.setParcels (s : State) (l : Nat) (p : Parcels) : State := { s with parcels := tabPut s.parcels l p }

/-- Launches with a hungry tile, in the order they started (R291). -/
def State.hungryLaunches (s : State) : List Nat := (s.parcels.filter fun e => !e.2.hungry.isEmpty).map Prod.fst

/-- The launch that the next deal step goes to (R291). -/
def State.dealLaunch (s : State) : Option Nat :=
  let l := s.hungryLaunches
  match l.find? fun n => decide (s.rotation ≤ n) with
  | some n => some n
  | none => l.head?

/-- DEAL_STEP (R291). -/
def execDealStep (s : State) : Out :=
  match s.dealLaunch with
  | none => .next s
  | some l =>
    match s.parcelsOf l with
    | none => .next s
    | some p => .next ({ s with rotation := l + 1 }.setParcels l p.deal)

/-- The weight of a logical number for the distributor: a fenced tile has none, so a number without a tile has none (R42). -/
def State.dealWeight (s : State) (t : Nat) : Nat :=
  if s.enabled t && (s.tile t).moveWait.isNone then s.weight t else 0

/-- DISTRIBUTOR_WEIGHT_UPDATE: the weight of a tile's logical number reaches the distributor: every d(t) and hungry(t) of
the launches concerned is computed again (R293). -/
def execDistributorWeightUpdate (s : State) : Out :=
  let t := s.focus.tile
  .next { s with parcels := s.parcels.map fun e =>
    if (tabGet? e.2.weight t).isSome then
      let p := { e.2 with weight := tabPut e.2.weight t (s.dealWeight t) }
      (e.1, (tabKeys p.weight).foldl Parcels.settle p)
    else e }

/-! ### Waiting harts and reclaims (R292) -/

/-- The tick at which a context's hart began to wait in k.parcel. -/
def Ctx.parcelSince (x : Ctx) : Option Nat :=
  match x.hart.wait with
  | some w => if w.what = .parcel ∧ x.st = .resident then some w.since else none
  | none => none

/-- The harts of launch l that wait for a parcel at its distributor, as tick, tile, context number; what is addressed to a number
that moves is held (R40, R293). -/
def State.parcelWaiters (s : State) (l : Nat) : List (Nat × Nat × Nat) :=
  ((s.launch l).tiles.filter fun t => !s.holding.contains t).flatMap fun t =>
    ((s.tile t).ctxs.filterMap fun e => if e.2.launch = l then e.2.parcelSince.map fun k => (k, t, e.2.num) else none)

/-- The waiter whose reclaim is served first: by the tick it began to wait, then tile, then context (R292). -/
def State.firstWaiter (s : State) (l : Nat) : Option (Nat × Nat × Nat) :=
  leastBy (fun w => (w.1 * 512 + w.2.1) * 8 + w.2.2) ((s.parcelWaiters l).filter fun w =>
    match s.parcelsOf l with
    | some p => (p.queue w.2.1).isEmpty
    | none => false)

/-- Whether a waiting hart of the launch has a parcel in its queue: a reclaim was served and its draw comes first (R292). -/
def State.drawStands (s : State) (l : Nat) : Bool :=
  (s.parcelWaiters l).any fun w => match s.parcelsOf l with
    | some p => !(p.queue w.2.1).isEmpty
    | none => false

/-- The launches whose distributor has a reclaim to make, with the tile it serves; draws and reclaims addressed to a number
that moves are held (R40, R293). -/
def State.reclaimsDue (s : State) : List (Nat × Nat) :=
  s.parcels.filterMap fun e =>
    if e.2.next = e.2.total ∧ e.2.drawn < e.2.total ∧ !s.drawStands e.1 then
      match s.firstWaiter e.1 with
      | some w => match e.2.reclaimFrom w.2.1 with
        | some u => if s.holding.contains u then none else some (e.1, w.2.1)
        | none => none
      | none => none
    else none

/-- RECLAIM for the tile of the focus, the first in turn of its launch (R292). -/
def execReclaim (s : State) : Out :=
  let t := s.focus.tile
  match s.reclaimsDue.find? fun e => decide (e.2 = t) with
  | none => .fault .notDue
  | some (l, _) =>
    match s.parcelsOf l with
    | none => .fault .notDue
    | some p => .next (s.setParcels l (p.reclaim t))

/-- K_PARCEL (R92, R292); the draw of a number that moves is held (R40, R293). -/
def execKParcel (rd : BitVec 5) (s : State) : Out :=
  s.hartDo (.kParcel rd) fun t c s =>
    let l := (s.ctx t c).launch
    match s.parcelsOf l with
    | none => s.endWait t c rd allOnes64
    | some p =>
      if s.holding.contains t then s.block t c .parcel (.kParcel rd) 0
      else match p.draw t with
      | (p, some n) => (s.setParcels l p).endWait t c rd (BitVec.ofNat 64 n)
      | (_, none) => if p.drawn = p.total then s.endWait t c rd allOnes64 else s.block t c .parcel (.kParcel rd) 0

/-- The parcels of a record's parcel space (R48, R92). -/
def recParcels (r : LaunchRec) : Nat := recPdim r 0 * recPdim r 1 * recPdim r 2

/-- The value of k.pinfo by selector (R92). -/
def State.pinfo (s : State) (t c sel p : Nat) : W64 :=
  let r := s.recOf t c
  let d (n : Nat) := recPdim r n
  let total := recParcels r
  if sel < 3 then
    if total ≤ p then allOnes64
    else BitVec.ofNat 64 (if sel = 0 then p % d 0 else if sel = 1 then p / d 0 % d 1 else p / (d 0 * d 1))
  else if sel < 6 then BitVec.ofNat 64 (d (sel - 3))
  else if sel = 6 then BitVec.ofNat 64 total
  else match s.parcelsOf (s.ctx t c).launch with
    | some q => BitVec.ofNat 64 (tabGet 0 q.drawnAt t)
    | none => 0

/-- K_PINFO (R92). -/
def execKPinfo (sel : BitVec 3) (rd rs1 : BitVec 5) (s : State) : Out :=
  s.hartDo (.kPinfo sel rd rs1) fun t c s => s.result t c rd (s.pinfo t c sel.toNat (s.getX t c rs1).toNat) 1

/-! ### Barriers (R93, R94, R294 to R296) -/

/-- The group of members at scope sc of the tile: tile, quad, die or package (R93); the group number at .pod. -/
def State.memberGroup (s : State) (sc t pod : Nat) : Nat :=
  let d := s.dealtOf t
  if sc = 1 then t else if sc = 2 then d.1 * 10 + d.2.1 else if sc = 3 then d.1 else if sc = 4 then 0 else pod

/-- Whether this package holds pod number 0 (R167, R294). -/
def State.isPodNode (s : State) : Bool := decide (s.podid = 0x100#9)

/-- The node of a scope for a tile (R294). -/
def State.nodeOf (s : State) (sc t : Nat) : Home :=
  if sc = 1 then .tile t
  else if sc ≤ 3 then .node (s.dealtOf t).1
  else if sc = 4 then .node 8
  else if s.isPodNode then .node 8 else .pod

/-- The arrival of a context's task at scope sc. -/
def State.arrivalOf (s : State) (t c sc count : Nat) (retired : Bool) : Arrival :=
  let x := s.ctx t c
  { launch := x.launch, scope := sc, group := s.memberGroup sc t x.groupOf,
    pkg := fieldNat s.podid 7 0, tile := t, ctx := x.num, task := x.task, weight := s.weight t, tick := s.now,
    count := count, retired := retired }

/-- Episodes a task has arrived at, and those whose completion has reached it, at a scope. -/
def Ctx.arrivedAt (x : Ctx) (sc : Nat) : Nat := tabGet 0 x.arrived sc
def Ctx.completedAt (x : Ctx) (sc : Nat) : Nat := tabGet 0 x.completed sc

/-- K_BAR: a posted release arrival at the task's next episode (R93, R94). At .pod the spec gives the groups 1 to 255; the
model takes 0 as a group like any other (DESIGN CHOICE, assumption 81). -/
def execKBar (scope : BitVec 3) (rd rs1 rs2 : BitVec 5) (s : State) : Out :=
  s.hartDo (.kBar scope rd rs1 rs2) fun t c s =>
    let sc := scope.toNat
    let x := s.ctx t c
    if x.completedAt sc < x.arrivedAt sc then s.block t c .bar (.kBar scope rd rs1 rs2) 0
    else
      let n := x.arrivedAt sc + 1
      let s := s.modCtx t c fun x =>
        { x with arrived := tabPut x.arrived sc n,
                 groupOf := if sc = 5 then ((s.getX t c rs1).extractLsb' 0 8).toNat else x.groupOf }
      let a := s.arrivalOf t c sc (low32 (s.getX t c rs2)).toNat false
      (s.hartSend t c (s.nodeOf sc t) (.arrival a) (s.unperformed t c sc)).endWait t c rd (BitVec.ofNat 64 n)

/-- K_BARW: waits until an episode has completed (R94). -/
def execKBarw (scope : BitVec 3) (rd rs1 rs2 : BitVec 5) (s : State) : Out :=
  s.hartDo (.kBarw scope rd rs1 rs2) fun t c s =>
    if (s.getX t c rs1).toNat ≤ (s.ctx t c).completedAt scope.toNat then s.endWait t c rd 0
    else s.block t c .bar (.kBarw scope rd rs1 rs2) (s.getX t c rs2).toNat

/-- K_BARW_TIMEOUT: 1 on timeout (R94). -/
def execKBarwTimeout (s : State) : Out :=
  let t := s.focus.tile
  let c := s.focus.ctx
  match s.timedOut t c with
  | some w => match w.instr with
    | .kBarw _ rd _ _ => .next (s.endWait t c rd 1)
    | _ => .fault .notDue
  | none => .fault .notDue

/-- K_CLOSURE: the report of the latest episode whose completion has reached the tile (R94, R295). -/
def execKClosure (scope : BitVec 3) (rd rs1 : BitVec 5) (s : State) : Out :=
  s.hartDo (.kClosure scope rd rs1) fun t c s =>
    let a := s.getX t c rs1
    let n := (s.ctx t c).completedAt scope.toNat
    if a.toNat % 32 ≠ 0 then s.raise t c 6 a
    else if !s.inOwnCarve t c a.toNat 32 then s.raise t c 7 a
    else if n = 0 then s.result t c rd 0 1
    else
      let bits := tabGet 0 (s.ctx t c).closure scope.toNat
      (s.writeLocal t a.toNat (bytesOf bits 32) (some c)).result t c rd (BitVec.ofNat 64 n) 1

/-! ### Nodes (R294 to R296) -/

/-- Whether an episode or report of launch l, scope sc and group g is of the arrival's member group; at .pod the launches
may differ (R93). -/
def Arrival.inGroup (a : Arrival) (l sc g : Nat) : Bool :=
  decide (sc = a.scope) && decide (g = a.group) && (decide (sc = 5) || decide (l = a.launch))

def Arrival.sameTask (a b : Arrival) : Bool :=
  decide (a.pkg = b.pkg) && decide (a.launch = b.launch) && decide (a.tile = b.tile) && decide (a.task = b.task)

/-- The open episode of an arrival's group. -/
def State.openEpisode? (s : State) (a : Arrival) : Option Episode :=
  s.episodes.find? fun e => a.inGroup e.launch e.scope e.group

/-- Episodes of a group that its node has completed. -/
def State.episodesDone (s : State) (a : Arrival) : Nat :=
  match s.reports.find? fun r => a.inGroup r.launch r.scope r.group with
  | some r => r.number
  | none => 0

/-- Retired tasks that count as arrived: those of the group without a live arrival of their own (R295). -/
def State.retiredIn (s : State) (e : Episode) (a : Arrival) : List (Arrival × Clock) :=
  s.retiredTasks.filter fun r => a.inGroup r.1.launch r.1.scope r.1.group && !(e.arrivals.any fun b => b.sameTask r.1)

/-- The order of arrivals: by tick, a retired task before the live ones, then package (.pod), tile, context (R294,
R295). -/
def Arrival.key (a : Arrival) : Nat :=
  (((a.tick * 2 + (if a.retired then 0 else 1)) * 256 + (if a.scope = 5 then a.pkg else 0)) * 512 + a.tile) * 8 + a.ctx

def insArrival (a : Arrival) : List Arrival → List Arrival
  | [] => [a]
  | b :: l => if a.key < b.key then a :: b :: l else b :: insArrival a l

def sortArrivals (l : List Arrival) : List Arrival := l.foldl (fun m a => insArrival a m) []

/-- Arrivals an episode needs: every task of the launch in the group; at .pod the count of the first arrival (R93, R295). -/
def State.needed (s : State) (e : Episode) : Nat :=
  if e.scope = 5 then ((sortArrivals e.arrivals).head?.map Arrival.count).getD 0
  else
    let l := s.launch e.launch
    (l.tiles.filter fun t => decide (s.memberGroup e.scope t 0 = e.group)).length * recNctx l.record

/-- An arrival entry of the closure report (R296). -/
def arrivalEntry (first : Nat) : Option Arrival → BitVec 40
  | none => 0x1FF
  | some a =>
    let w := if a.retired then 0 else if a.scope = 5 then 0x700 + a.pkg else a.weight - 1024
    BitVec.ofNat 20 (min 0xFFFFF (a.tick - first)) ++ BitVec.ofNat 11 w ++ BitVec.ofNat 9 a.tile

/-- The closure report of an episode that completes at tick now, from its arrivals in order (R296). -/
def closureReport (now : Nat) (pod : Bool) (l : List Arrival) : BitVec 256 :=
  let first := (l.head?.map Arrival.tick).getD now
  let count := (l.head?.map Arrival.count).getD 0
  let live := l.filter fun a => !a.retired
  let cmis := if pod then (live.filter fun a => decide (a.count ≠ ((live.head?.map Arrival.count).getD count))).length else 0
  let r := l.reverse
  arrivalEntry first r[3]? ++ arrivalEntry first r[2]? ++ arrivalEntry first r[1]? ++ arrivalEntry first r[0]?
    ++ BitVec.ofNat 8 (min 255 cmis) ++ BitVec.ofNat 24 (min 0xFFFFFF (now - first)) ++ BitVec.ofNat 64 now

/-- The node completes the episode: its report is kept and completion goes to every member (R295). -/
def State.completeEpisode (s : State) (a : Arrival) (e : Episode) (ret : List (Arrival × Clock)) : State :=
  let first := ((sortArrivals e.arrivals).head?.map Arrival.tick).getD s.now
  let all := sortArrivals (e.arrivals ++ ret.map fun r => { r.1 with tick := first, retired := true })
  let bits := closureReport s.now (decide (e.scope = 5)) all
  let clock := ret.foldl (fun k r => k.merge r.2) e.clock
  let s := { s with
    episodes := s.episodes.filter fun f => !a.inGroup f.launch f.scope f.group,
    reports := (s.reports.filter fun r => !a.inGroup r.launch r.scope r.group)
      ++ [{ launch := e.launch, scope := e.scope, group := e.group, number := e.number, bits := bits }] }
  let own := fieldNat s.podid 7 0
  e.arrivals.foldl (fun (u : State) (a : Arrival) =>
    let home : Home := if a.scope = 5 ∧ a.pkg ≠ own then .pod else .tile a.tile
    let src := u.homeDie (if e.scope = 1 then .tile a.tile else .node (if e.scope ≤ 3 then (u.dealtOf a.tile).1 else 8))
    (u.post { id := 0, src := src, home := home, clock := clock, sent := u.now, after := [], own := none, va := 0, fn := 0,
              body := .completion a.launch a.scope a.tile a.task bits }).1) s

/-- The node tests the open episode of a group (R295). -/
def State.testEpisode (s : State) (a : Arrival) : State :=
  match s.openEpisode? a with
  | none => s
  | some e =>
    let ret := s.retiredIn e a
    if s.needed e ≤ e.arrivals.length + ret.length then s.completeEpisode a e ret else s

/-- An episode with one more arrival, if it is open for the arrival's group. -/
def Arrival.joinEpisode (a : Arrival) (clock : Clock) (e : Episode) : Episode :=
  if a.inGroup e.launch e.scope e.group then { e with arrivals := e.arrivals ++ [a], clock := e.clock.merge clock } else e

/-- The node counts an arrival (R294, R295). -/
def State.countArrival (s : State) (a : Arrival) (clock : Clock) : State :=
  let s : State := match s.openEpisode? a with
    | none => { s with episodes := s.episodes ++
        [{ launch := a.launch, scope := a.scope, group := a.group, number := s.episodesDone a + 1, arrivals := [a], clock := clock }] }
    | some _ => { s with episodes := s.episodes.map (a.joinEpisode clock) }
  s.testEpisode a

/-- BARRIER_ARRIVAL: at .pod its tick is that of reaching the node (R294). -/
def execBarrierArrival (id : Nat) (s : State) : Out :=
  match s.dueMsg id with
  | some m => match m.body with
    | .arrival a =>
      .next ((s.applied m).countArrival (if a.scope = 5 then { a with tick := s.now } else a) m.clock)
    | _ => .fault .notDue
  | none => .fault .notDue

/-- The node counts a task retired (R295). -/
def State.countRetired (s : State) (a : Arrival) (clock : Clock) : State :=
  { s with retiredTasks := s.retiredTasks ++ [(a, clock)] }.testEpisode a

/-- RETIREMENT_MESSAGE (R295). -/
def execRetirementMessage (id : Nat) (s : State) : Out :=
  match s.dueMsg id with
  | some m => match m.body with
    | .retired a => .next ((s.applied m).countRetired a m.clock)
    | _ => .fault .notDue
  | none => .fault .notDue

/-- A task counted retired tells the node of every scope that holds it; at .tile at once; at .pod for the group it last
arrived with (R295). -/
def State.tellNodes (s : State) (t c : Nat) : State :=
  let d := s.dieOf t
  let s := s.countRetired (s.arrivalOf t c 1 0 true) (s.dieClock d)
  let scopes := if (s.ctx t c).arrivedAt 5 = 0 then [2, 3, 4] else [2, 3, 4, 5]
  scopes.foldl (fun u sc => (u.send d (u.nodeOf sc t) (.retired (u.arrivalOf t c sc 0 true)) [] none).1) s

/-- BARRIER_COMPLETION: the completion reaches the member's tile, an acquire of every arrival (R94, R295). -/
def execBarrierCompletion (id : Nat) (s : State) : Out :=
  match s.dueMsg id with
  | some m => match m.body with
    | .completion l sc t task bits =>
      let s := (s.mergeDie (s.dieOf t) m.clock).applied m
      .next (s.modTile t fun x => { x with ctxs := x.ctxs.map fun e =>
        if e.2.launch = l ∧ e.2.task = task then
          (e.1, { e.2 with hart := { e.2.hart with acq := e.2.hart.acq.merge m.clock }, completed := tabPut e.2.completed sc (e.2.arrivedAt sc), closure := tabPut e.2.closure sc bits })
        else e })
    | _ => .fault .notDue
  | none => .fault .notDue

end Sys2Proof.Machine
end

