-- ==== Sys2Proof/Machine/Launch.lean ====
section
/-! DEFINITION. Launches (R8, R44 to R59, R95, R157 to R159, R329 to R331): records entering a queue, validation, placement,
the start state of a task, retirement and completion. -/

namespace Sys2Proof.Machine

/-! ### Validation (R48) -/

def recTiles (r : LaunchRec) : List Nat := (List.range 320).filter fun t => r.getLsbD (1152 + t)
def recTsel (r : LaunchRec) : Bool := fieldBit r 15
def recTcount (r : LaunchRec) : Nat := fieldNat r 1096 1088
def recCmode (r : LaunchRec) : Nat := fieldNat r 1025 1024
def recCinc (r : LaunchRec) : Nat := fieldNat r 1087 1072
def recCtile (r : LaunchRec) : Nat := fieldNat r 1064 1056
def recCg (r : LaunchRec) : Nat := fieldNat r 1045 1040
def recCq (r : LaunchRec) : Nat := fieldNat r 1034 1032

/-- The reserved fields of a launch record, of its FPCW and of its placement specifications (R44, R55, R229). -/
def recReserved : List (Nat × Nat) :=
  [(7, 4), (14, 12), (31, 24), (39, 35), (47, 45), (63, 49), (159, 145), (175, 174), (191, 189), (223, 208), (327, 323),
   (335, 333), (367, 362), (383, 378), (415, 402), (447, 428), (575, 544), (895, 864), (927, 918), (959, 950), (991, 982),
   (1023, 1014), (1031, 1026), (1039, 1035), (1055, 1046), (1071, 1065), (1103, 1097), (1151, 1120)]

/-- Whether every field is in its range and every address aligned: code 3 (R44, R48). -/
def recFieldsOk (r : LaunchRec) : Bool :=
  decide (recPower r ≠ 3) && decide (1 ≤ recNctx r ∧ recNctx r ≤ 8) && decide (recProfile r ≤ 4)
    && decide (4 ≤ recClen r ∧ recClen r ≤ 65536 ∧ recClen r % 2 = 0) && decide (recBlen r ≤ 8192) && decide (recMcount r ≤ 4096)
    && decide (1 ≤ recWin r ∧ recWin r ≤ 6) && decide (recAcc r ≤ 20) && decide (1 ≤ fieldNat r 377 368 ∧ fieldNat r 377 368 ≤ 1023)
    && decide (recCmode r ≠ 3) && (if recCmode r = 0 then decide (recCinc r = 0) else decide (1 ≤ recCinc r))
    && (if recTsel r then decide (1 ≤ recTcount r ∧ recTcount r ≤ 320) else decide (recTcount r = 0))
    && decide (recImageVa r % 4096 = 0) && decide (recInitVa r % 64 = 0) && decide (recOvfVa r % 512 = 0)
    && decide (recFqVa r % 4096 = 0) && decide (recBbcVa r % 8 = 0) && decide (recHotVa r % 4096 = 0)
    && (decide (recInitVa r ≠ 0) || decide (recInitLen r = 0))
    && (if recPdim r 0 = 0 then decide (recPdim r 1 = 0 ∧ recPdim r 2 = 0)
        else decide (recPdim r 1 ≠ 0 ∧ recPdim r 2 ≠ 0 ∧ recParcels r ≤ 2 ^ 32))

/-- A logical number that a record may name: enabled, and not fenced while it waits for a free tile (R39, R330). -/
def State.usable (s : State) (t : Nat) : Bool := s.enabled t && (s.tile t).moveWait.isNone

/-- Whether the record's tiles exist: code 4 (R48). -/
def State.recTilesOk (s : State) (r : LaunchRec) : Bool :=
  (if recTsel r then decide (recTcount r ≤ (s.enabledTiles.filter s.usable).length)
    else !(recTiles r).isEmpty && (recTiles r).all s.usable)
    && (decide (recCmode r ≠ 1) || s.usable (recCtile r))

/-- Whether the layout keeps R46 and R52: code 5. -/
def recLayoutOk (r : LaunchRec) : Bool :=
  let size := recCarveSize r
  decide (recCarveBase r + recNctx r * size ≤ semBase) && decide (recSpill r * 512 ≤ size)
    && (decide (recFutCount r = 0) || (decide (recFutOff r + recFutCount r * 16 ≤ size)
      && decide (recSpill r * 512 ≤ recFutOff r) && decide (recInitLen r ≤ recFutOff r)))
    && decide (recInitLen r ≤ size)

/-- The first failing code of a record, but for its image; asid: whether its address space may be used (R48, R158). -/
def State.recCode (s : State) (r : LaunchRec) (asid : Bool) : Nat :=
  if fieldNat r 3 0 ≠ 1 then 1
  else if !zeroFields r recReserved then 2
  else if !(recFieldsOk r && asid) then 3
  else if !s.recTilesOk r then 4
  else if !recLayoutOk r then 5
  else if 32 < recNctx r * recWin r ∨ 20 < recNctx r * recAcc r then 6
  else 0

/-- The code of a queued record; a host record's ASID must belong to the owner of the queue (R158). -/
def State.qrecCode (s : State) (q : Nat) (x : QRec) : Nat :=
  let a := recAsid x.record
  s.recCode x.record (!x.fromHost || (s.asidValid a && decide (s.asidFn a = (s.queue q).qown.toNat)))

/-! ### Status entries and the k.launch status word (R95, R159) -/

def statusEntry (low nzx m state code : Nat) : BitVec 128 :=
  BitVec.ofNat 32 low ++ BitVec.ofNat 32 nzx ++ BitVec.ofNat 32 m ++ (0 : BitVec 22) ++ BitVec.ofNat 2 state ++ BitVec.ofNat 8 code

/-- Write the status entry of record m, unless record m + 64 has taken its place. -/
def State.setStatus (s : State) (q m low nzx state code : Nat) : State :=
  if fieldNat (tabGet 0 (s.queue q).status (m % 64)) 63 32 ≠ m % 2 ^ 32 then s
  else s.modQueue q fun x => { x with status := tabPut x.status (m % 64) (statusEntry low nzx m state code) }

/-- The launch unit writes the status word of a k.launch, a release at system scope (R95, R117). -/
def State.writeStatusWord (s : State) (x : QRec) (code : Nat) : State :=
  match x.status with
  | none => s
  | some (t, a) =>
    (s.send 8 (.tile t) (.write a ((bytesOf (BitVec.ofNat 64 (256 + code)) 8).map some) 0 none) [] none).1

/-! ### Queues (R49, R158, R329) -/

def queueRoom (x : LQueue) : Nat := 64 - x.recs.length

/-- Append a record: its number, status entry, and HEADT if it is at the front (R158, R329). -/
def State.enterRecord (s : State) (q : Nat) (r : LaunchRec) (clock : Clock) (after : List Nat) (status : Option (Nat × Nat))
    (fromHost : Bool) : State :=
  let x := s.queue q
  let m := x.entered.toNat
  let rec0 : QRec :=
    { record := r, m := m, clock := clock, after := after, status := status, fromHost := fromHost,
      headt := if x.recs.isEmpty then some s.now else none, valid := false, blocking := false }
  s.modQueue q fun x =>
    { x with entered := x.entered + 1, recs := x.recs ++ [rec0],
             status := tabPut x.status (m % 64) (statusEntry 0xFFFFFFFF 0 m 0 0) }

/-- The front record leaves; the next becomes head (R329). -/
def State.dropHead (s : State) (q : Nat) : State :=
  s.modQueue q fun x =>
    { x with recs := match x.recs with
        | [] => []
        | [_] => []
        | _ :: y :: l => { y with headt := some s.now } :: l }

/-- The front record is rejected or withdrawn with a code (R48). -/
def State.rejectHead (s : State) (q : Nat) (x : QRec) (code : Nat) : State :=
  ((s.setStatus q x.m 0xFFFFFFFF 0 3 code).writeStatusWord x code).dropHead q

/-- Heads that compete for tiles, as queue and record. -/
def State.heads (s : State) : List (Nat × QRec) :=
  s.queues.filterMap fun e => match e.2.recs with
    | x :: _ => if x.valid then some (e.1, x) else none
    | [] => none

/-- An allocation attempt is to be made (R330). -/
def State.wantAttempt (s : State) : State :=
  let w : Work := .row .allocationAttempt Focus.reset
  if s.heads.isEmpty ∨ s.agenda.contains w then s else s.later [w]

/-- Whether everything the submission releases has been applied (R120). -/
def State.submitted (s : State) (x : QRec) : Bool :=
  x.after.all (fun id => (s.msg? id).isNone) && !(s.net.any fun m => m.after.isEmpty && !m.unordered
    && decide ((x.clock.at m.src - m.clock.at m.src).toNat < 2 ^ 31))

/-- LAUNCH_HEAD_VALIDATION: the check steps of R53 on the front record of a queue (R48, R329). -/
def execLaunchHeadValidation (q : Nat) (s : State) : Out :=
  match (s.queue q).recs with
  | [] => .fault .notDue
  | x :: l =>
    if x.valid ∨ !s.submitted x then .fault .notDue
    else
      let code := s.qrecCode q x
      if code ≠ 0 then .next (s.rejectHead q x code)
      else .next (s.modQueue q fun y => { y with recs := { x with valid := true } :: l }).wantAttempt

/-! ### Placement (R50, R51) -/

def sumBy (l : List (Nat × Ctx)) (f : Ctx → Nat) : Nat := l.foldl (fun n e => n + f e.2) 0

/-- The contexts that hold a number, window and accumulator units on a tile. -/
def State.holders (s : State) (t : Nat) : List (Nat × Ctx) := (s.tile t).ctxs.filter fun e => decide (e.1 < 8)

/-- The free context numbers of a tile. -/
def State.freeCtxs (s : State) (t : Nat) : List Nat := (List.range 8).filter fun c => (s.ctx? t c).isNone

/-- Whether n contexts of a record's shape fit in a tile's units (R50). -/
def State.unitsFit (s : State) (t : Nat) (r : LaunchRec) (n : Nat) : Bool :=
  let h := s.holders t
  decide (sumBy h (fun x => recWin (s.launch x.launch).record) + n * recWin r ≤ 32)
    && decide (sumBy h (fun x => recAcc (s.launch x.launch).record) + n * recAcc r ≤ 20)

/-- Whether the tile's image is the one with this hash, or may be replaced (R50). -/
def State.imageFits (s : State) (t : Nat) (hash : BitVec 512) : Bool :=
  match (s.tile t).image with
  | none => true
  | some i => decide (i.hash = hash) || (s.holders t).isEmpty

/-- Whether a tile can take a launch now (R50). -/
def State.canTake (s : State) (r : LaunchRec) (t : Nat) : Bool :=
  let b := recCarveBase r
  let e := b + recNctx r * recCarveSize r
  s.usable t && (s.tile t).failed.isNone && !s.holding.contains t && decide (recNctx r ≤ (s.freeCtxs t).length) && s.unitsFit t r (recNctx r)
    && ((s.tile t).ctxs.all fun x => let k := s.carve t x.1; decide (e ≤ k.1) || decide (k.2 ≤ b))
    && s.imageFits t (recHash r)

/-- The tiles a head would be placed on now; none if it must wait (R50). -/
def State.placement (s : State) (r : LaunchRec) : Option (List Nat) :=
  if recTsel r then
    let l := (s.enabledTiles.filter (s.canTake r)).take (recTcount r)
    if l.length = recTcount r then some l else none
  else
    let l := recTiles r
    if l.all (s.canTake r) then some l else none

/-- Read n bytes at a virtual address through the copy engine of a tile, by plain reads of 2 KiB at most; none on a fault
(R45, R52). -/
def State.readVa (s : State) (t : Nat) (asid : W16) (va n : Nat) : Nat → State × Option (List Byte)
  | 0 => (s, some [])
  | fuel + 1 =>
    if n = 0 then (s, some [])
    else
      let k := min n (2048 - va % 2048)
      match s.translate t asid (BitVec.ofNat 64 va) ⟨true, false, false⟩ with
      | (s, .error _) => (s, none)
      | (s, .ok d) =>
        let part : Option (List Byte) := match d with
          | .host a => some (s.hostRead a k)
          | .hbm a key =>
            let as := (List.range k).map fun i => a + i
            if as.any s.eccBad then none else some (s.hbmRead key as)
        match part with
        | none => (match d with
            | .hbm a _ => s.noteEcc ((List.range k).map fun i => a + i)
            | .host _ => s, none)
        | some l =>
          match s.readVa t asid (va + k) (n - k) fuel with
          | (s, none) => (s, none)
          | (s, some m) => (s, some (l ++ m))

def roundUp64 (n : Nat) : Nat := (n + 63) / 64 * 64

/-- The bytes of a record's image (R45). -/
def recImageLen (r : LaunchRec) : Nat := roundUp64 (recClen r) + 32 * recBlen r + 8 * recMcount r

/-- Bytes from address 0 as a memory in canonical form. -/
def cellsOf (l : List Byte) : List Host.Cell := ((List.range l.length).zip l).filter fun e => decide (e.2 ≠ 0)

/-- The tile holds the image whose bytes are l (R45). -/
def Tile.loadImage (x : Tile) (r : LaunchRec) (l : List Byte) : Tile :=
  let b := roundUp64 (recClen r)
  let m := l.drop (b + 32 * recBlen r)
  { x with
    image := some { hash := recHash r, clen := recClen r, blen := recBlen r,
                    markers := (List.range (recMcount r)).map fun i => wordOf 64 ((m.drop (8 * i)).take 8) },
    imem := cellsOf (l.take (recClen r)), bmem := cellsOf ((l.drop b).take (32 * recBlen r)) }

/-- The 4 KiB pages of bytes a to e - 1. -/
def pagesOf (a e : Nat) : List Nat := (List.range (e / 4096 - a / 4096)).map fun i => a / 4096 + i

/-- Zero bytes a to e - 1 of tile t's scratchpad; units written in full lose their error marks (R3). -/
def State.zeroLocal (s : State) (t a e : Nat) : State :=
  { s with
    mem := s.mem.filter fun x => !(decide (sliceAddr t a ≤ x.1) && decide (x.1 < sliceAddr t e)),
    ecc := s.ecc.filter fun u => !(decide (sliceAddr t a ≤ u) && decide (u + 64 ≤ sliceAddr t e)) }

/-- The carves of a launch on a tile pass to an address space: pages last held under another are zeroed (R51); a page that no
launch has held was held under none, and keeps its bytes (DESIGN CHOICE, assumption 10). -/
def State.takePages (s : State) (t a e : Nat) (asid : W16) : State :=
  (pagesOf a e).foldl (fun (u : State) p =>
    let old := tabGet? (u.tile t).lastAsid p
    let u := if old = none ∨ old = some asid then u else u.zeroLocal t (p * 4096) ((p + 1) * 4096)
    u.modTile t fun x => { x with lastAsid := tabPut x.lastAsid p asid }) s

/-- A predicate true or false in every lane. -/
def allLanes (b : Bool) : Mask := if b then BitVec.allOnes 128 else 0

/-- The placement predicate pN of a tile (R55). -/
def State.placed (s : State) (t : Nat) (p : BitVec 32) : Bool :=
  let d := s.dealtOf t
  p.getLsbD d.1 && p.getLsbD (8 + d.2.1) && p.getLsbD (18 + d.2.2)

def recPl (r : LaunchRec) (n : Nat) : BitVec 32 := r.extractLsb' (896 + 32 * (n - 12)) 32

/-- The start state of task i in context c of tile t, rank k, of a launch with n tasks (R54). -/
def State.startCtx (s : State) (l : Nat) (r : LaunchRec) (t c k i n : Nat) : Ctx :=
  let base := recCarveBase r + k * recCarveSize r
  let clk := (s.tile t).clk
  { Ctx.reset with
    num := c, launch := l, task := i, rank := k,
    hart := { Hart.reset with
      x := [(2, BitVec.ofNat 64 (base + recCarveSize r)), (10, BitVec.ofNat 64 i), (11, BitVec.ofNat 64 n), (12, BitVec.ofNat 64 base)],
      fpcw := fpcwBits (recFpcw r), nextAt := clk },
    bun := { Bun.reset with
      p := (0, allLanes true) :: [12, 13, 14, 15].map fun j => (j, allLanes (s.placed t (recPl r j))),
      k := 1 } }

/-- The launch takes context c, rank k, on tile t: its carve, cells, initialiser and start state (R51, R52, R54). -/
def State.startTask (s : State) (l : Nat) (r : LaunchRec) (init : List Byte) (t c k i n : Nat) : State :=
  let base := recCarveBase r + k * recCarveSize r
  let s := s.takePages t base (base + recCarveSize r) (recAsid r)
  let s := s.zeroLocal t (base + recFutOff r) (base + recFutOff r + 16 * recFutCount r)
  let s := s.pokeLocals t base init
  s.setCtx t c (s.startCtx l r t c k i n)

/-- The launch starts on tile t, its j-th (R47, R50, R54); the tile's die acquires the submitter's clock (R120). -/
def State.startTile (s : State) (l : Nat) (x : QRec) (image : Option (List Byte)) (init : List Byte) (j t n : Nat) : State :=
  let r := x.record
  let s := match image with
    | some bytes => match (s.tile t).image with
      | some i => if i.hash = recHash r then s else s.modTile t fun y => y.loadImage r bytes
      | none => s.modTile t fun y => y.loadImage r bytes
    | none => s
  let s := s.mergeDie (s.dieOf t) x.clock
  ((List.range (recNctx r)).zip (s.freeCtxs t)).foldl
    (fun (u : State) e => u.startTask l r init t e.2 e.1 (j * recNctx r + e.1) n) s

/-! ### Power class (R8) -/

/-- The limits of a class in watts: compute dies, stacks, the rest (R7). -/
def classLimit (cls g : Nat) : Nat :=
  if g = 0 then (if cls = 0 then 2000 else if cls = 1 then 1750 else 1500)
  else if g = 1 then (if cls = 0 then 1040 else if cls = 1 then 1290 else 1540)
  else 360

/-- The limit that a group of components obeys: for 100 us after a change the lower of old and new (R385). -/
def State.limitOf (s : State) (g : Nat) : Nat :=
  match tabGet? s.limits g with
  | some l => if s.now < l.since + 100000 then min l.before l.after else l.after
  | none => classLimit s.cls g

/-- The class in force follows the resident launches; at a change every component is sent its new limit (R8, R385). -/
def State.setClass (s : State) : State :=
  let cls := match greatestBy (fun l => recPrio l.record) s.launches with
    | some l => recPower l.record
    | none => 1
  if cls = s.cls then s
  else { s with cls := cls, limits := [0, 1, 2].map fun g => (g, { before := s.limitOf g, after := classLimit cls g, since := s.now }) }

/-! ### Attempts (R330, R331) -/

/-- The image and the initialiser of a record: what must be fetched, none when the fetch faults or does not hash (R48,
R52). Of the chosen tiles the spec leaves open, the copy engine of the lowest-numbered fetches (DESIGN CHOICE, assumption 82). -/
def State.fetchLaunch (s : State) (r : LaunchRec) (tiles : List Nat) : State × Option (Option (List Byte) × List Byte) :=
  let t := tiles.headD 0
  let resident := tiles.all fun u => match (s.tile u).image with
    | some i => decide (i.hash = recHash r)
    | none => false
  let img : State × Option (Option (List Byte)) :=
    if resident then (s, some none)
    else match s.readVa t (recAsid r) (recImageVa r) (recImageLen r) 1024 with
      | (s, some l) => (s, if wordOf 512 (sha512 l) = recHash r then some (some l) else none)
      | (s, none) => (s, none)
  match img with
  | (s, none) => (s, none)
  | (s, some i) =>
    if recInitVa r = 0 then (s, some (i, []))
    else match s.readVa t (recAsid r) (recInitVa r) (recInitLen r) 4096 with
      | (s, some l) => (s, some (i, l))
      | (s, none) => (s, none)

/-- The head of queue q starts on its tiles: LAUNCH_START (R50 to R54). -/
def State.startLaunch (s : State) (q : Nat) (x : QRec) (tiles : List Nat) (image : Option (List Byte)) (init : List Byte) : State :=
  let r := x.record
  let l := s.nextLaunch
  let n := tiles.length * recNctx r
  let s := { s with nextLaunch := l + 1, launches := s.launches ++
    [{ id := l, record := r, queue := q, m := x.m, tiles := tiles, left := n, nzx := 0, lowidx := none, clock := x.clock,
       started := s.now }] }
  let s := ((List.range tiles.length).zip tiles).foldl (fun (u : State) e => u.startTile l x image init e.1 e.2 n) s
  let s := if recPdim r 0 = 0 then s
    else s.setParcels l (Parcels.start (recParcels r) (tiles.map fun t => (t, s.weight t)))
  (((s.setStatus q x.m 0xFFFFFFFF 0 1 0).writeStatusWord x 0).dropHead q).setClass

def State.effHead (s : State) (x : QRec) : Nat := min 3 (recPrio x.record + (s.now - x.headt.getD s.now) / 2 ^ 20)

/-- Whether head a stands before head b in an attempt (R330). -/
def State.headBefore (s : State) (a b : Nat × QRec) : Bool :=
  let ea := s.effHead a.2
  let eb := s.effHead b.2
  let ta := a.2.headt.getD 0
  let tb := b.2.headt.getD 0
  decide (eb < ea) || (decide (ea = eb) && (decide (ta < tb) || (decide (ta = tb) && decide (a.1 < b.1))))

def State.insHead (s : State) (a : Nat × QRec) : List (Nat × QRec) → List (Nat × QRec)
  | [] => [a]
  | b :: l => if s.headBefore a b then a :: b :: l else b :: s.insHead a l

def State.sortedHeads (s : State) : List (Nat × QRec) := s.heads.foldl (fun l a => s.insHead a l) []

/-- The tiles a head needs (R330). -/
def State.needs (s : State) (r : LaunchRec) : List Nat := if recTsel r then s.enabledTiles else recTiles r

/-- One head of an attempt: skipped where it would use a context on a tile that the blocking head needs, rejected, left waiting,
or placed (R330). -/
def State.tryHead (s : State) (b : Option (Nat × QRec)) (h : Nat × QRec) : State :=
  let q := h.1
  let x := h.2
  let barred (l : List Nat) : Bool := match b with
    | some (bq, bx) => decide (bq ≠ q) && (let n := s.needs bx.record; l.any fun t => n.contains t)
    | none => false
  let code := s.qrecCode q x
  let place := s.placement x.record
  if barred (if recTsel x.record then place.getD [] else recTiles x.record) then s
  else if code ≠ 0 then s.rejectHead q x code
  else match place with
    | none => s
    | some tiles => match s.fetchLaunch x.record tiles with
        | (s, none) => s.rejectHead q x 7
        | (s, some f) => s.startLaunch q x tiles f.1 f.2

/-- ALLOCATION_ATTEMPT (R330). -/
def execAllocationAttempt (s : State) : Out :=
  let h := s.sortedHeads
  let b := h.find? fun e => e.2.blocking
  .next (h.foldl (fun u e => u.tryHead b e) s)

/-- Heads that have been head for 2^22 ticks. -/
def State.oldHeads (s : State) : List (Nat × QRec) :=
  s.sortedHeads.filter fun e => decide (2 ^ 22 ≤ s.now - e.2.headt.getD s.now)

/-- BLOCKING_HEAD (R331). -/
def execBlockingHead (s : State) : Out :=
  if s.heads.any fun e => e.2.blocking then .fault .notDue
  else match s.oldHeads with
    | [] => .fault .notDue
    | (q, x) :: _ => .next (s.modQueue q fun y =>
        { y with recs := match y.recs with
            | [] => []
            | _ :: l => { x with blocking := true } :: l })

/-! ### k.launch and doorbells (R95, R158) -/

/-- The record as the launch unit takes it from a task: its ASID, a PRIO not above the issuer's (R95). -/
def taskRecord (r : LaunchRec) (asid : W16) (prio : Nat) : LaunchRec :=
  let r1 := (r &&& ~~~(BitVec.ofNat 2048 (0xFFFF * 2 ^ 192))) ||| (asid.setWidth 2048 <<< 192)
  if prio < recPrio r then (r1 &&& ~~~(BitVec.ofNat 2048 (3 * 2 ^ 10))) ||| BitVec.ofNat 2048 (prio * 2 ^ 10) else r1

/-- K_LAUNCH (R95). -/
def execKLaunch (q : BitVec 3) (rd rs1 rs2 : BitVec 5) (s : State) : Out :=
  s.hartDo (.kLaunch q rd rs1 rs2) fun t c s =>
    let a := s.getX t c rs1
    let b := s.getX t c rs2
    if a.toNat % 64 ≠ 0 then s.raise t c 4 a
    else if !s.inOwnCarve t c a.toNat 256 then s.raise t c 5 a
    else if rs2 ≠ 0 ∧ b.toNat % 8 ≠ 0 then s.raise t c 6 b
    else if rs2 ≠ 0 ∧ !s.inOwnCarve t c b.toNat 8 then s.raise t c 7 b
    else if (s.hart t c).wait.isNone && s.localBad t a.toNat 256 then s.dataFault t c a false
    else
      let r : LaunchRec := match (s.hart t c).wait with
        | some w => match w.what with
          | .launchQueue _ r => r
          | _ => 0
        | none => wordOf 2048 (s.localBytes t a.toNat 256)
      if queueRoom (s.queue q.toNat) = 0 then s.block t c (.launchQueue q.toNat r) (.kLaunch q rd rs1 rs2) 0
      else
        let status := if rs2 = 0 then none else some (t, sliceAddr t b.toNat)
        let s := s.enterRecord q.toNat (taskRecord r (s.asidOf t c) (s.prioOf t c)) (s.dieClock (s.dieOf t))
          (s.unperformed t c 6) status false
        s.endWait t c rd (s.queue q.toNat).entered

/-- DOORBELL of function f at queue q (R158); none is accepted in boot (R389). -/
def execDoorbell (f q : Nat) (s : State) : Out :=
  let x := s.queue q
  if s.boot ≠ .running then .next s
  else if queueRoom x = 0 then .next (s.modQueue q fun y => { y with drops := y.drops + 1 })
  else .next (s.enterRecord q x.stage (s.dieClock 8) [] none (decide (f ≤ 16)))

/-! ### Timelines of launch queues (R157) -/

/-- TLARM: vector 1 of the owner fires as soon as the timeline has reached it. -/
def State.checkTlarm (s : State) (q : Nat) : State :=
  let x := s.queue q
  if x.tlarm ≠ 0 ∧ x.tlarm.ule x.timeline then
    (s.modQueue q fun y => { y with tlarm := 0 }).msix x.qown.toNat 1
  else s

/-- TLARM_WRITE (R157). -/
def execTlarmWrite (f q : Nat) (v : W64) (s : State) : Out :=
  if 16 < f then .fault .notDue else .next ((s.modQueue q fun x => { x with tlarm := v }).checkTlarm q)

/-- QOWN_WRITE: ignored unless the queue is empty and no launch from it is resident (R158). -/
def execQownWrite (f q : Nat) (v : BitVec 5) (s : State) : Out :=
  if f ≠ 0 then .fault .notDue
  else if (s.queue q).recs.isEmpty && !(s.launches.any fun l => decide (l.queue = q)) then
    .next (s.modQueue q fun x => { x with qown := v })
  else .next s

/-! ### Retirement and completion (R56 to R58) -/

/-- Launch completion: the post of CMODE, the status entry (R58, R159). -/
def State.completeLaunch (s : State) (l : Launch) : State :=
  let r := l.record
  let s := { s with
    launches := s.launches.filter fun x => decide (x.id ≠ l.id), parcels := tabDel s.parcels l.id,
    episodes := s.episodes.filter fun e => !(decide (e.scope ≠ 5) && decide (e.launch = l.id)),
    reports := s.reports.filter fun e => !(decide (e.scope ≠ 5) && decide (e.launch = l.id)),
    retiredTasks := s.retiredTasks.filter fun e => !(decide (e.1.scope ≠ 5) && decide (e.1.launch = l.id)) }
  let s := s.mergeDie 8 l.clock
  let s :=
    if recCmode r = 1 then (s.send 8 (.tile (recCtile r)) (.credit (recCtile r) (recCg r) (recCinc r)) [] none).1
    else if recCmode r = 2 then
      (s.modQueue (recCq r) fun x => { x with timeline := x.timeline + BitVec.ofNat 64 (recCinc r) }).checkTlarm (recCq r)
    else s
  (s.setStatus l.queue l.m (l.lowidx.getD 0xFFFFFFFF) l.nzx 2 0).setClass

/-- A task is counted retired with an exit code; its resources are freed (R56, R57, R295). -/
def State.countTask (s : State) (t c : Nat) (code : W32) : State :=
  let x := s.ctx t c
  let s := (s.flushFreezeOf t c).tellNodes t c
  let die := s.dieClock (s.dieOf t)
  let s := s.delCtx t c
  let s := s.modLaunch x.launch fun l =>
    { l with left := l.left - 1, clock := l.clock.merge die,
             nzx := if code = 0 then l.nzx else l.nzx + 1,
             lowidx := if code = 0 then l.lowidx else some (min x.task (l.lowidx.getD x.task)) }
  let s := match s.launch? x.launch with
    | some l => if l.left = 0 then s.completeLaunch l else s
    | none => s
  s.wantAttempt

/-- The task's hotness readout: 256 entries of BYTES and STALL (R151); a fault drops the entries that meet it. -/
def State.writeHotness (s : State) (t c : Nat) : State :=
  let x := s.ctx t c
  let r := s.recOf t c
  if recHotVa r = 0 then s
  else
    (List.range 64).foldl (fun (u : State) i =>
      match u.translate t (u.asidOf t c) (BitVec.ofNat 64 (recHotVa r + x.task * 0x1000 + 64 * i)) ⟨false, true, false⟩ with
      | (u, .error _) => u
      | (u, .ok d) =>
        let h := u.destHome d
        let l := (List.range 4).flatMap fun j =>
          let e := tabGet (0, 0) x.hot (4 * i + j)
          bytesOf e.1 8 ++ bytesOf e.2 8
        u.hartSend t c h.1 (.write h.2.1 (l.map some) h.2.2 none) []) s

/-- Whether the queues of a retiring task have drained and its accesses are performed (R56). -/
def State.drained (s : State) (t c : Nat) : Bool :=
  let x := s.ctx t c
  x.hart.draining && decide (x.st = .resident) && x.runs.isEmpty && x.chans.all (fun e => e.2.isEmpty)
    && (s.outstanding t c).isEmpty && x.backs.all fun id => (s.msg? id).isNone

/-- Whether a context that has been dumped or discarded is done: its sectors in flight and its write-backs have landed (R57,
R353). -/
def State.endDone (s : State) (t c : Nat) : Bool :=
  let x := s.ctx t c
  (s.ctx? t c).isSome && (decide (x.st = .dumped) || decide (x.st = .dumpedIncomplete))
    && ((s.tile t).sectors.all fun n => decide (n.ctx ≠ c)) && x.backs.all fun id => (s.msg? id).isNone

/-- A context that has been dumped or discarded counts as retired with exit code 0xFFFF_FFFF (R57). -/
def State.finishEnd (s : State) (t c : Nat) : State := if s.endDone t c then s.countTask t c 0xFFFFFFFF else s

/-- TASK_RETIREMENT: the write-backs leave; when they have landed, the task is counted retired (R56, R57). -/
def execTaskRetirement (s : State) : Out :=
  let t := s.focus.tile
  let c := s.focus.ctx
  if s.endDone t c then .next (s.finishEnd t c)
  else if !s.drained t c then .fault .notDue
  else
    let x := s.ctx t c
    if x.wroteBack then .next (s.countTask t c (x.exit.getD 0))
    else
      let s := (s.flushCounters t c x.launch).writeHotness t c
      let s := s.modCtx t c fun x => { x with wroteBack := true, backs := s.backsOf t x.launch }
      if s.drained t c then .next (s.countTask t c (x.exit.getD 0)) else .next s

end Sys2Proof.Machine
end

