-- ==== Sys2Proof/Machine/Control.lean ====
section
/-! DEFINITION. The control core in a clock cycle (R62 to R65, R79, R332, R358): which hart issues, which waits end, what its
accounted slot is charged. -/

namespace Sys2Proof.Machine

/-! ### Operands (R62) -/

/-- The registers a base compute instruction reads. -/
def computeSrcs : ComputeOp → List (BitVec 5)
  | .alu _ _ a b => [a, b]
  | .aluImm _ _ a _ | .shiftImm _ _ a _ | .shiftImmW _ _ a _ | .unary _ _ a => [a]
  | .lui _ _ | .auipc _ _ | .jal _ _ => []
  | .jalr _ a _ => [a]
  | .branch _ a b _ => [a, b]

/-- The registers an instruction of the control core reads. -/
def hartSrcs : Instr → List (BitVec 5)
  | .csrWrite op _ _ rs => if op = .rw ∨ op = .rs ∨ op = .rc then [rs] else []
  | .controlLoad _ _ a _ => [a]
  | .controlStore _ a b _ => [a, b]
  | .lr _ _ _ _ a => [a]
  | .sc _ _ _ _ a b | .controlAmo _ _ _ _ _ a b => [a, b]
  | .controlCompute op => computeSrcs op
  | .kLda _ _ _ _ a => [a]
  | .kStl _ _ _ a b => [a, b]
  | .kAmoW op _ _ rd a b | .kAmoD op _ _ rd a b => if op = .cas then [rd, a, b] else [a, b]
  | .kSarm a b | .kSarmZ a b | .kSpost _ a b | .kFput _ a b => [a, b]
  | .kSwait _ a b | .kRuni _ a b | .kCopyiIn _ _ a b | .kCopyiOut _ _ a b => [a, b]
  | .kTlwait _ _ a b | .kBar _ _ a b | .kBarw _ _ a b | .kLaunch _ _ a b => [a, b]
  | .kSread _ a | .kFget _ a | .kFtry _ a | .kHyield a | .kRun _ a | .kCopy _ _ a | .kStk _ a => [a]
  | .kPinfo _ _ a | .kClosure _ _ a | .kTrace _ a | .kAcct _ a | .kRaise a | .kRaiseF a => [a]
  | .ecall => [17, 10]
  | .kExit => [10]
  | _ => []

/-! ### Order behind the hart's own posted writes (R76) -/

/-- Bytes of tile t's scratchpad that a message is still to write: first local address, length. -/
def Body.localBytes (t : Nat) : Body → Option (Nat × Nat)
  | .write a l _ _ => some (a - sliceAddr t 0, l.length)
  | .atomic _ n a _ _ _ _ => some (a - sliceAddr t 0, n)
  | .put a _ _ _ => some (a - sliceAddr t 0, 16)
  | .credit _ g _ => some (semBase + 64 * g, 64)
  | _ => none

/-- Whether a posted write of the hart to bytes a to a + n - 1 of its own tile is still under way. -/
def State.behind (s : State) (t c a n : Nat) : Bool :=
  s.net.any fun m => decide (m.home = .tile t) && decide (m.own = some (t, c)) && match m.body.localBytes t with
    | some (b, k) => decide (b < a + n) && decide (a < b + k)
    | none => false

/-- Whether the hart's next instruction writes a location behind one of its own posted writes (R76). -/
def State.waitsBehind (s : State) (t c : Nat) (i : Instr) : Bool :=
  let at64 (r : BitVec 5) (imm : BitVec 12) : Nat := (s.getX t c r + imm.signExtend 64).toNat
  match i with
  | .controlStore sz a _ imm => s.behind t c (at64 a imm) (sizeOf sz)
  | .sc dbl _ _ _ a _ | .controlAmo _ dbl _ _ _ a _ => s.behind t c (at64 a 0) (atomicSize dbl)
  | .kClosure _ _ a => s.behind t c (s.getX t c a).toNat 32
  -- a command is a release at tile scope
  | .kRun _ _ | .kRuni _ _ _ | .kCopy _ _ _ | .kCopyiIn _ _ _ _ | .kCopyiOut _ _ _ _ | .kStk _ _ => s.behind t c 0 0x400000
  | .kSarm a _ | .kSarmZ a _ => s.behind t c (semBase + 64 * refAddr (s.getX t c a)) 64
  | .kFget _ a => s.behind t c (refAddr (s.getX t c a)) 16
  | _ => false

/-! ### Readiness (R63, R64) -/

/-- The instruction at the hart's pc and its length. -/
def State.nextInstr (s : State) (t c : Nat) : Instr × Nat := decodeHart (s.fetchWord t (s.hart t c).pc.toNat)

/-- The debugger lets the hart issue. -/
def Debug.hartFree (d : Debug) : Bool := !d.hh || decide (d.stepping = some true)

/-- Whether a hart is ready (R63). -/
def State.hartReady (s : State) (t c : Nat) : Bool :=
  let x := s.ctx t c
  let h := x.hart
  let k := (s.tile t).clk
  decide (x.st = .resident) && x.dbg.hartFree && !h.draining && h.wait.isNone && decide (h.nextAt ≤ k)
    && (let i := (s.nextInstr t c).1
        (hartSrcs i).all (fun r => decide (tabGet 0 h.regAt r.toNat ≤ k)) && !s.waitsBehind t c i)

/-- What the control core notes of a hart at the start of its turn: since when it has been ready and unpaused (R64). -/
def State.noteReady (s : State) (t c : Nat) : State :=
  let k := (s.tile t).clk
  let on := s.hartReady t c && decide ((s.hart t c).pause = 0)
  s.modHart t c fun h => { h with readyAt := if on then (if h.readyAt = 0 then k + 1 else h.readyAt) else 0 }

/-- The deadline B + 7 of a ready, unpaused hart; a hart ready since its last issue became ready in the cycle after it
(R64). -/
def Hart.due (h : Hart) : Nat := h.readyAt + 6

/-- Sorted by deadline, ties by lower number. -/
def insDue (s : State) (t c : Nat) : List Nat → List Nat
  | [] => [c]
  | d :: l => if (s.hart t c).due < (s.hart t d).due then c :: d :: l else d :: insDue s t c l

def State.byDue (s : State) (t : Nat) (l : List Nat) : List Nat := l.foldl (fun m c => insDue s t c m) []

/-- Whether some hart of the sorted list would miss its deadline: deadline(u[j]) < now + j (R64). -/
def missesDue (s : State) (t now : Nat) : Nat → List Nat → Bool
  | _, [] => false
  | j, c :: l => decide ((s.hart t c).due < now + j) || missesDue s t now (j + 1) l

/-- The pick of R64. -/
def State.pickHart (s : State) (t : Nat) : Option Nat :=
  let all := s.residents t
  let last := (s.tile t).lastHart
  let u := all.filter fun c => decide ((s.hart t c).readyAt ≠ 0)
  let w := all.filter fun c => s.hartReady t c && decide ((s.hart t c).pause ≠ 0)
  if u.isEmpty then leastBy (orderAfter last) w
  else
    let v := s.byDue t u
    if missesDue s t (s.tile t).clk 1 v then v.head?
    else
      let top := u.foldl (fun m c => max m (s.prioOf t c)) 0
      leastBy (orderAfter last) (u.filter fun c => decide (s.prioOf t c = top))

/-! ### Charges of the control slot (R65) -/

/-- The highest-priority resident hart, lowest number first. -/
def State.topHart (s : State) (t : Nat) : Option Nat :=
  greatestBy (fun c => s.prioOf t c) (((s.tile t).ctxs.filter fun e => decide (e.1 < 8)).map Prod.fst)

/-- The cause of a control slot in which no hart issues. DESIGN CHOICE, assumption 95: R65 names no row for a hart that waits
behind its own posted write (State.waitsBehind); it is charged EXEC, as for a latency. -/
def Ctx.idleCause (x : Ctx) : Cause :=
  if x.st ≠ .resident then .fault
  else if x.dbg.hh then .halt
  else if x.hart.draining then .drain
  else match x.hart.wait with
    | some w => match w.what with
      | .queue _ _ | .launchQueue _ _ => .qfull
      | _ => .semwait
    | none => .exec

/-- The charge of a control slot in which no hart issues; with a cause given, that one. -/
def State.chargeControl (s : State) (t : Nat) (cause : Option Cause) : State :=
  match s.topHart t with
  | none => s.charge t [8] .idle 8 0
  | some c => s.charge t [8] (cause.getD (s.ctx t c).idleCause) c (s.hart t c).pc.toNat

/-- The control core's turn in a clock cycle (R64, R65). -/
def State.controlTurn (s : State) (t : Nat) : State :=
  let s := (s.residents t).foldl (fun u c => u.noteReady t c) s
  if (s.tile t).throttled then s.chargeControl t (some .throttle)
  else match s.pickHart t with
    | none => s.chargeControl t none
    | some c =>
      let x := s.ctx t c
      let s := s.charge t [8] (if x.hart.pause = 0 then .exec else .pause) x.num x.hart.pc.toNat
      let s := (s.modHart t c fun h => { h with readyAt := 0 }).modTile t fun y => { y with lastHart := some c }
      if x.dbg.stepping = some true then
        (s.modDbg t c fun d => { d with haltReq := true }).push [.hart t c, rowAt .haltTakesEffect t c]
      else s.push [.hart t c]

/-- What a hart's issue executes: an instruction and its length; a pc beyond the instruction memory raises cause 1 (R61). -/
def State.hartWork (s : State) (t c : Nat) : State × Option (Instr × Nat) :=
  if 0x10000 ≤ (s.hart t c).pc.toNat then (s.raise t c 1 (s.hart t c).pc, none) else (s, some (s.nextInstr t c))

/-! ### Waits that end (R79, R332, R358) -/

/-- Whether what a blocked hart waits for has come. -/
def State.waitOver (s : State) (t c : Nat) (w : Wait) : Bool :=
  let x := s.ctx t c
  match w.what with
  | .load => false
  | .sem g want => (s.sem t g).reached want
  | .cell => match w.instr with
    | .kFget _ a | .kHyield a => s.cellFull t (refAddr (s.getX t c a))
    | _ => false
  | .fence => match w.instr with
    | .kFence sc => (s.unperformed t c sc.toNat).isEmpty
    | _ => false
  | .join => x.joined
  | .timeline q => match w.instr with
    | .kTlwait _ _ a _ => (s.getX t c a).ule (x.count q).timeline
    | _ => false
  | .parcel => match s.parcelsOf x.launch with
    | some p => !s.holding.contains t && (!(p.queue t).isEmpty || decide (p.drawn = p.total))
    | none => true
  | .bar => match w.instr with
    | .kBar sc _ _ _ => decide (x.arrivedAt sc.toNat ≤ x.completedAt sc.toNat)
    | .kBarw sc _ a _ => decide ((s.getX t c a).toNat ≤ x.completedAt sc.toNat)
    | _ => false
  | .queue q _ => decide (x.occ q < queueSize q)
  | .launchQueue q _ => decide (queueRoom (s.queue q) ≠ 0)

/-- The row that ends a wait whose deadline has come. -/
def timeoutRow : Instr → Option Instr
  | .kSwait _ _ _ => some .kSwaitTimeout
  | .kTlwait _ _ _ _ => some .kTlwaitTimeout
  | .kBarw _ _ _ _ => some .kBarwTimeout
  | _ => none

/-- The row that ends the wait of a context's hart now, with the tick it began. -/
def State.wakeRow (s : State) (t c : Nat) : Option (Nat × Work) :=
  let x := s.ctx t c
  if x.st ≠ .resident ∨ x.dbg.hh then none
  else match x.hart.wait with
    | none => none
    | some w =>
      if s.waitOver t c w then some (w.since, .row w.instr { tile := t, ctx := c, slot := 8, len := w.len, fn := 0 })
      else if (s.timedOut t c).isSome then (timeoutRow w.instr).map fun i => (w.since, rowAt i t c)
      else none

/-- Credits of tile t's harts to its own semaphores, which are applied in the next clock cycle (R358). -/
def State.creditsDue (s : State) (t : Nat) : List Msg :=
  s.net.filter fun m => m.isLocal && decide (m.home = .tile t) && m.after.isEmpty

def insWake (a : Nat × Work) : List (Nat × Work) → List (Nat × Work)
  | [] => [a]
  | b :: l => if a.1 < b.1 then a :: b :: l else b :: insWake a l

/-- The waits of tile t that end in this clock cycle, as conditions stand at its start; the longest first (R358). -/
def State.wakes (s : State) (t : Nat) : List Work :=
  (((s.residents t).filterMap fun c => s.wakeRow t c).foldl (fun l a => insWake a l) []).map Prod.snd

/-! ### The end of a clock cycle (R151, R336, R355, R362, R367, R369) -/

/-- Add a cycle's charges to the counters (R362). -/
def addCharges (l : Tab Charge) (acct : Tab (BitVec 48)) : Tab (BitVec 48) :=
  l.foldl (fun a e => let k := acctKey e.1 e.2.owner e.2.cause.code; tabPut a k (tabGet 0 a k + 1)) acct

/-- The buffers that entries of a context's copy and stack queues name (R127, R145, R151). -/
def Ctx.buffers (x : Ctx) : List Nat :=
  (x.chans.flatMap fun e => e.2.map fun n => if e.1 = 5 then fieldNat n.packet 31 24 else fieldNat n.packet 47 40).eraseDups

/-- STALL of every buffer a context's entries name (R151). -/
def Ctx.countStall (x : Ctx) : Ctx :=
  { x with hot := x.buffers.foldl (fun h b =>
      let e := tabGet ((0, 0) : W64 × W64) h b
      tabPut h b (e.1, if e.2 = BitVec.allOnes 64 then e.2 else e.2 + 1)) x.hot }

/-- The stalls of a cycle: a context whose hart or bundle context is charged SEMWAIT (R151). -/
def State.countStalls (s : State) (t : Nat) : State :=
  let owners := ((s.tile t).charges.filterMap fun e => if e.2.cause = .semwait then some e.2.owner else none).eraseDups
  owners.foldl (fun (u : State) c =>
    if (u.ctx? t c).isSome ∧ recHotVa (u.recOf t c) ≠ 0 then u.modCtx t c Ctx.countStall else u) s

/-- Whether the context's bundle engine is held on swait or WEN (R355). -/
def State.heldNow (s : State) (t c : Nat) : Bool :=
  let x := s.ctx t c
  ((s.engine t).freezes.any fun f => decide (f.cause = .semwait) && decide (f.owner = c))
    || (decide (x.st = .resident) && !x.runs.isEmpty && !x.runReady && (x.nextRun?).isSome)

/-- A slot of a bundle that issues (R359). -/
def Cause.issues : Cause → Bool
  | .exec | .predoff | .nop => true
  | _ => false

/-- Whether the pause window of a context's hart runs in this clock cycle: its hart is not halted, or has issued in it (R97,
R99). -/
def State.windowRuns (s : State) (t c : Nat) : Bool :=
  (s.ctx t c).dbg.hartFree || match tabGet? (s.tile t).charges 8 with
    | some k => decide (k.owner = (s.ctx t c).num) && (decide (k.cause = .exec) || decide (k.cause = .pause))
    | none => false

/-- What a cycle adds to a resident context: its wait for the engine, counted from its last issue in the cycles in which it was
eligible (R336), how long it has been held (R355); the pause window of a halted hart stands still (R99). -/
def State.ageCtx (s : State) (t c : Nat) : State :=
  let num := (s.ctx t c).num
  let issued := (s.tile t).charges.any fun e => decide (e.1 < 8) && decide (e.2.owner = num) && e.2.cause.issues
  let waits := (s.engine t).eligible.contains c && decide ((s.engine t).turn ≠ some c) && !issued
  let held := s.heldNow t c
  let now := s.now
  let runs := s.windowRuns t c
  s.modCtx t c fun x =>
    { x with waitClk := if waits then x.waitClk + 1 else x.waitClk,
             heldSince := if held then some (x.heldSince.getD now) else none,
             heldReported := if held then x.heldReported else 0,
             hart := { x.hart with pause := if 1 < x.hart.pause ∧ runs then x.hart.pause - 1 else x.hart.pause } }

def Cause.isFreeze : Cause → Bool
  | .replay | .semwait | .bankfrz | .spillfrz | .fetch | .throttle => true
  | _ => false

/-- Follow the freezes of armed contexts (R369). -/
def State.traceFreeze (s : State) (t : Nat) : State :=
  match tabGet? (s.tile t).charges 0 with
  | none => s
  | some k =>
    let on := k.cause.isFreeze && decide (k.owner < 8) && decide ((s.bun t k.owner).armed ≠ 0)
    match (s.engine t).frzRun with
    | some (cause, c, n, pc) =>
      if on ∧ cause = k.cause ∧ c = k.owner then s.modEngine t fun e => { e with frzRun := some (cause, c, n + 1, pc) }
      else
        let s := s.flushFreeze t
        if on then s.modEngine t fun e => { e with frzRun := some (k.cause, k.owner, 1, k.pc) } else s
    | none => if on then s.modEngine t fun e => { e with frzRun := some (k.cause, k.owner, 1, k.pc) } else s

/-- The functions that sample a tile in this clock cycle (R367). -/
def State.samplers (s : State) (t : Nat) : List Nat :=
  (List.range 17).filter fun f =>
    let p := s.page f
    p.trcfg.getLsbD 0 && p.trcfg.getLsbD 1 && decide (p.speriod ≠ 0) && decide ((s.tile t).elapsed.toNat % p.speriod.toNat = 0)
      && (s.tile t).ctxs.any fun e => decide (e.1 < 8) && decide (s.asidFn (s.asidOf t e.1) = f)

/-- The end of a clock cycle of a tile: its charges are counted, its contexts age; samples and pauses that end follow. -/
def State.closeCycle (s : State) (t : Nat) : State :=
  let ends := ((s.residents t).filter fun c => decide ((s.hart t c).pause = 1) && s.windowRuns t c).map fun c => rowAt .pauseEnd t c
  let s := (s.countStalls t).traceFreeze t
  let s := (s.residents t).foldl (fun u c => u.ageCtx t c) s
  let s := s.modTile t fun x =>
    { x with acct := addCharges x.charges x.acct, elapsed := x.elapsed + 1, clk := x.clk + 1 }
  s.push (((s.samplers t).map fun f => .row .sample { tile := t, ctx := 0, slot := 15, len := 4, fn := f }) ++ ends)

/-- SAMPLE: the charge of slot k mod 9 in this clock cycle, for the function of the focus (R367). -/
def execSample (s : State) : Out :=
  let t := s.focus.tile
  let f := s.focus.fn
  let n := (s.tile t).samples % 9
  let s := s.modTile t fun x => { x with samples := x.samples + 1 }
  match tabGet? (s.tile t).charges n with
  | none => .next s
  | some k =>
    let mine := if k.owner = 8 then decide (f = 0) else decide (s.asidFn (s.asidOf t k.owner) = f)
    if mine then
      .next (s.ring f t { kind := 1, id := 0, slot := n, pc := k.pc, cause := k.cause.code,
                          ctx := if k.owner = 8 then 0 else k.owner, data0 := BitVec.ofNat 64 k.owner, data1 := 0 })
    else .next s

end Sys2Proof.Machine
end

