-- ==== Sys2Proof/Machine/Copies.lean ====
section
/-! DEFINITION. The copy engine (R127 to R133, R138 to R144, R147, R150, R168): validation at the head of a channel, sectors
started, moved and landed, parking, and entries that leave. -/

namespace Sys2Proof.Machine

/-! ### Fields of a packet (R127) -/

def pkOpc (p : Rec64) : Nat := fieldNat p 3 0
def pkSkind (p : Rec64) : Nat := fieldNat p 9 8
def pkDkind (p : Rec64) : Nat := fieldNat p 11 10
def pkEpol (p : Rec64) : Nat := fieldNat p 13 12
def pkSemen (p : Rec64) : Bool := fieldBit p 20
def pkSemtile (p : Rec64) : Nat := fieldNat p 29 21
def pkSemg (p : Rec64) : Nat := fieldNat p 35 30
def pkMcast (p : Rec64) : Nat := fieldNat p 39 36
def pkBuf (p : Rec64) : Nat := fieldNat p 47 40
def pkSrc (p : Rec64) : W64 := p.extractLsb' 64 64
def pkDst (p : Rec64) : W64 := p.extractLsb' 128 64
def pkLen0 (p : Rec64) : Nat := fieldNat p 215 192
def pkN1 (p : Rec64) : Nat := fieldNat p 227 216 + 1
def pkN2 (p : Rec64) : Nat := fieldNat p 239 228 + 1
def pkN3 (p : Rec64) : Nat := fieldNat p 251 240 + 1
def pkSstr (p : Rec64) (d : Nat) : Int := fieldInt p (287 + 64 * (d - 1)) (256 + 64 * (d - 1))
def pkDstr (p : Rec64) (d : Nat) : Int := fieldInt p (319 + 64 * (d - 1)) (288 + 64 * (d - 1))
def pkIdx (p : Rec64) : Nat := fieldNat p 469 448
def pkSeop (p : Rec64) : Nat := fieldNat p 475 472
def pkSfmt (p : Rec64) : Nat := fieldNat p 479 476
def pkDfmt (p : Rec64) : Nat := fieldNat p 483 480
def pkRmode (p : Rec64) : Nat := fieldNat p 485 484
def pkKey (p : Rec64) : Nat := fieldNat p 499 488
def pkSess (p : Rec64) : Nat := fieldNat p 503 500

def pkReserved : List (Nat × Nat) := [(7, 4), (19, 14), (255, 252), (471, 470), (487, 486), (511, 504)]

/-- Element sizes of source and destination: 1 and 1 without a stack engine (R129). -/
def pkSsz (p : Rec64) : Nat := if pkSeop p = 0 then 1 else stackSize (pkSfmt p)
def pkDsz (p : Rec64) : Nat := if pkSeop p = 0 then 1 else stackSize (pkDfmt p)
def pkDlen0 (p : Rec64) : Nat := pkLen0 p * pkDsz p / pkSsz p

def pkRows (p : Rec64) : Nat := pkN1 p * pkN2 p * pkN3 p

/-- Destination bytes of the whole copy. -/
def pkTotal (p : Rec64) : Nat := pkDlen0 p * pkRows p

/-- Sectors of the copy (R132). -/
def pkSectors (p : Rec64) : Nat := (pkTotal p + 4095) / 4096

/-! ### Rows (R129) -/

/-- Indices i1, i2, i3 of row r. -/
def pkIndex (p : Rec64) (r : Nat) : Nat × Nat × Nat := (r % pkN1 p, r / pkN1 p % pkN2 p, r / (pkN1 p * pkN2 p))

/-- The offset of row r of the source from SRC, for a list of index words (R129). -/
def srcOff (idx : List Nat) (p : Rec64) (r : Nat) : Int :=
  let i := pkIndex p r
  let first : Int := if pkOpc p = 2 then Int.ofNat (idx.getD i.1 0) else Int.ofNat i.1
  first * pkSstr p 1 + Int.ofNat i.2.1 * pkSstr p 2 + Int.ofNat i.2.2 * pkSstr p 3

/-- The offset of row r of the destination from DST (R129). -/
def dstOff (p : Rec64) (r : Nat) : Int :=
  let i := pkIndex p r
  let step : Int := if pkOpc p = 2 then Int.ofNat (pkDlen0 p) else pkDstr p 1
  Int.ofNat i.1 * step + Int.ofNat i.2.1 * pkDstr p 2 + Int.ofNat i.2.2 * pkDstr p 3

/-- The address a row starts at: a local address for a scratchpad reference, else modulo 2^64 (R128, R129). -/
def rowAddr (kind : Nat) (base : W64) (off : Int) : Int :=
  if kind = 1 then Int.ofNat (refAddr base) + off else Int.ofNat (base + BitVec.ofInt 64 off).toNat

def srcRow (idx : List Nat) (p : Rec64) (r : Nat) : Int := rowAddr (pkSkind p) (pkSrc p) (srcOff idx p r)
def dstRow (p : Rec64) (r : Nat) : Int := rowAddr (pkDkind p) (pkDst p) (dstOff p r)

/-! ### Receivers (R130) -/

/-- The tile at a position of the quad that tile u was dealt to. -/
def State.quadTile (s : State) (u pos : Nat) : Option Nat :=
  (List.range s.n0).find? fun v => decide (s.dealtOf v = ((s.dealtOf u).1, (s.dealtOf u).2.1, pos))

/-- The positions MCAST names, each with its tile. -/
def State.mcastTiles (s : State) (t : Nat) (p : Rec64) : List (Option Nat) :=
  ((List.range 4).filter fun i => (pkMcast p).testBit i).map fun i => s.quadTile (refOn t (pkDst p)) i

/-- The tiles a copy to scratchpad delivers to. -/
def State.receivers (s : State) (t : Nat) (p : Rec64) : List Nat :=
  if pkMcast p = 0 then [refOn t (pkDst p)] else (s.mcastTiles t p).filterMap id

/-! ### Validation (R131) -/

/-- Whether bytes lo to hi - 1 lie in carves of launch l on tile u. -/
def State.localOk (s : State) (l u : Nat) (lo : Int) (n : Nat) : Bool :=
  decide (0 ≤ lo) && s.inLaunchCarves l u lo.toNat n

/-- Whether every row of a scratchpad end lies in carves of the launch on tile u. -/
def State.rowsOk (s : State) (l u n rows : Nat) (row : Nat → Int) : Bool :=
  (List.range rows).all fun r => s.localOk l u (row r) n

/-- A shape of reference that a copy may name: reserved bits zero, a tile of the launch (R71, R128). -/
def State.endShape (s : State) (t k kind : Nat) (w : W64) : Bool :=
  if kind = 1 then s.refShape t k w else if kind = 2 then decide (fieldNat w 55 48 = 0) else true

/-- Whether every row of a pod end, at its first and its last byte, has zero in bits [55:48] (R128; assumption 83). -/
def podRowsOk (n rows : Nat) (row : Nat → Int) : Bool :=
  (List.range rows).all fun r => [row r, row r + Int.ofNat (n - 1)].all fun a => decide (fieldNat (BitVec.ofInt 64 a) 55 48 = 0)

/-- Whether a packet passes validation, with the index words of a gather (R131). -/
def State.packetOk (s : State) (t k : Nat) (p : Rec64) (idx : List Nat := []) : Bool :=
  let l := (s.ctx t k).launch
  let seop := pkSeop p
  zeroFields p pkReserved
    && decide (pkOpc p = 1 ∨ pkOpc p = 2) && decide (pkSkind p ≤ 2) && decide (pkDkind p ≤ 2) && decide (pkEpol p ≤ 1)
    && decide (seop ≤ 3)
    && !(decide (pkSkind p = 2) && decide (pkDkind p = 2)) && (decide (seop = 0) || (decide (pkSkind p ≠ 2) && decide (pkDkind p ≠ 2)))
    && decide (pkLen0 p ≠ 0) && decide (pkLen0 p * pkRows p ≤ 2 ^ 32)
    && (decide (seop = 0) || (decide (pkSfmt p ≤ 9) && decide (pkDfmt p ≤ 9) && decide (pkLen0 p % pkSsz p = 0)
        && (decide (seop = 1) || decide (pkDkind p = 0))))
    && s.endShape t k (pkSkind p) (pkSrc p) && s.endShape t k (pkDkind p) (pkDst p)
    && (decide (pkMcast p = 0) || (decide (pkDkind p = 1) && decide (pkSemtile p = 0)
        && (s.mcastTiles t p).all fun u => match u with
          | some v => s.carries l v
          | none => false))
    && (decide (pkOpc p ≠ 2) || (decide (fieldNat p 319 288 = 0) && decide (pkIdx p % 4 = 0)
        && s.inLaunchCarves l t (pkIdx p) (4 * pkN1 p)))
    && (!pkSemen p || decide (pkMcast p ≠ 0) || s.carries l (pkSemtile p))
    && (decide (pkSkind p ≠ 1) || s.rowsOk l (refOn t (pkSrc p)) (pkLen0 p) (pkRows p) (srcRow idx p))
    && (decide (pkSkind p ≠ 2) || podRowsOk (pkLen0 p) (pkRows p) (srcRow idx p))
    && (decide (pkDkind p ≠ 2) || podRowsOk (pkDlen0 p) (pkRows p) (dstRow p))
    && (decide (pkDkind p ≠ 1) || (s.receivers t p).all fun u => s.rowsOk l u (pkDlen0 p) (pkRows p) (dstRow p))

/-! ### Pod addresses (R128, R167, R168) -/

/-- Whether the admission table admits an access of package src to n bytes at a (R167). -/
def State.podAdmit (s : State) (src a n : Nat) (wr : Bool) : Bool :=
  (List.range 32).any fun e =>
    let x := tabGet 0 s.admission e
    fieldBit x 63 && fieldBit x (if wr then 62 else 61)
      && decide (fieldNat x 47 16 * 65536 ≤ a) && decide (a + n ≤ (fieldNat x 111 80 + 1) * 65536)
      && (fieldBit x 119 || decide (fieldNat x 127 120 = src))

/-- Whether n bytes at package address a lie in HBM or in a scratchpad: all an access from the pod may reach (R167). -/
def State.podRange (s : State) (a n : Nat) : Bool :=
  (List.range n).all fun i => match s.locate (a + i) with
    | .hbm _ _ | .slice _ _ => true
    | _ => false

def State.podNumber (s : State) : Nat := fieldNat s.podid 7 0
def State.podValid (s : State) : Bool := s.podid.getLsbD 8

/-- A lane of the pod links is up on some I/O die (R168). -/
def State.podPath (s : State) : Bool :=
  [8, 9].any fun io => (List.range 36).any fun l => !s.podDown.contains (io, l)

/-! ### Pieces -/

/-- Stream bytes q to q + n - 1 of rows of a length, cut at row ends and at 2 KiB: place, address, length. -/
def cutRows (row : Nat → Int) (rowLen : Nat) : Nat → Nat → Nat → List (Nat × Int × Nat)
  | 0, _, _ => []
  | fuel + 1, q, n =>
    if n = 0 ∨ rowLen = 0 then []
    else
      let o := q % rowLen
      let a := row (q / rowLen) + Int.ofNat o
      let k := min n (min (rowLen - o) (2048 - a.toNat % 2048))
      (q, a, k) :: cutRows row rowLen fuel (q + k) (n - k)

/-- Translate the pieces of a virtual end; the first fault in stream order ends it. -/
def State.mapPieces (s : State) (t : Nat) (asid : W16) (need : Need) (q0 : Nat) : List (Nat × Int × Nat) →
    State × Except PFault (List Piece)
  | [] => (s, .ok [])
  | (q, a, k) :: l =>
    let va := BitVec.ofInt 64 a
    match s.translate t asid va need with
    | (s, .error f) => (s, .error { code := f.code, reason := f.reason, va := va, wr := need.w, tick := s.now })
    | (s, .ok d) =>
      match s.mapPieces t asid need q0 l with
      | (s, .error f) => (s, .error f)
      | (s, .ok m) =>
        let h := s.destHome d
        (s, .ok ({ home := h.1, addr := h.2.1, key := h.2.2, q := q - q0, len := k, va := va } :: m))

/-- The pieces of a scratchpad end on tile u. -/
def tilePieces (u q0 : Nat) (l : List (Nat × Int × Nat)) : List Piece :=
  l.map fun e => { home := .tile u, addr := sliceAddr u e.2.1.toNat, key := 0, q := e.1 - q0, len := e.2.2, va := BitVec.ofInt 64 e.2.1 }

/-- Whether this package's admission table admits a loopback access to n bytes that a copy names va (R167, R168). -/
def State.loopAdmits (s : State) (va : W64) (n : Nat) (wr : Bool) : Bool :=
  let a := fieldNat va 47 0
  s.podValid && s.podRange a n && s.podAdmit s.podNumber a n wr

/-- The fault of a refused pod access (R138). -/
def State.podRefused (s : State) (va : W64) (wr : Bool) : PFault := { code := 0x11, reason := 4, va := va, wr := wr, tick := s.now }

/-- The pieces of a pod end: another package's bytes, or this package's own, which its admission table is to admit when
they are reached (R128, R167 to R169). -/
def State.podPieces (s : State) (wr : Bool) (q0 : Nat) : List (Nat × Int × Nat) → Except PFault (List Piece)
  | [] => .ok []
  | (q, a, k) :: l =>
    let va := BitVec.ofInt 64 a
    let pa := fieldNat va 47 0
    let own := decide (fieldNat va 63 56 = s.podNumber)
    if !s.podValid ∨ fieldNat va 55 48 ≠ 0 ∨ (own ∧ !s.podRange pa k) then .error (s.podRefused va wr)
    else match s.podPieces wr q0 l with
      | .error f => .error f
      | .ok m =>
        if own then
          let c := s.canon pa
          .ok ({ home := s.homeOf c, addr := c, key := 0, q := q - q0, len := k, va := va } :: m)
        else .ok ({ home := .pod, addr := va.toNat, key := 0, q := q - q0, len := k, va := va } :: m)

/-- The pieces of one end of a sector: kind, tile, rows, permissions needed. -/
def State.endPieces (s : State) (t k kind u : Nat) (row : Nat → Int) (rowLen q n : Nat) (need : Need) :
    State × Except PFault (List Piece) :=
  let l := cutRows row rowLen 8192 q n
  if kind = 0 then s.mapPieces t (s.asidOf t k) need q l
  else if kind = 1 then (s, .ok (tilePieces u q l))
  else (s, s.podPieces need.w q l)

/-! ### Entries and channels (R133) -/

def State.modEntry (s : State) (t k ch ord : Nat) (f : Entry → Entry) : State :=
  s.modCtx t k fun x => x.setChan ch ((x.chan ch).map fun e => if e.ord = ord then f e else e)

def State.entry? (s : State) (t k ch ord : Nat) : Option Entry := ((s.ctx t k).chan ch).find? fun e => decide (e.ord = ord)

/-- Sectors of an entry in flight. -/
def State.flying (s : State) (t k ch ord : Nat) : List Sector :=
  (s.tile t).sectors.filter fun x => decide (x.ctx = k) && decide (x.ch = ch) && decide (x.ord = ord)

/-- The first sector from n on that has not landed (R141). -/
def skipLanded (l : List Nat) : Nat → Nat → Nat
  | 0, n => n
  | fuel + 1, n => if l.contains n then skipLanded l fuel (n + 1) else n

/-- The sector an entry starts next. -/
def Entry.nextSector (e : Entry) : Nat := skipLanded e.landed e.landed.length e.next

/-- Sectors of an entry: of a copy, or of a stack command's destination. -/
def stkBytes (p : Rec64) : Nat :=
  if fieldNat p 3 0 = 1 then fieldNat p 255 224 * fieldNat p 223 192 else fieldNat p 223 192 * stackSize (fieldNat p 11 8)

def Entry.sectors (ch : Nat) (e : Entry) : Nat := if ch = 5 then (stkBytes e.packet + 4095) / 4096 else pkSectors e.packet

/-- Whether an entry has sectors to start, or its head check to pass. -/
def Entry.opens (ch : Nat) (e : Entry) : Bool := e.malformed || !e.checked || decide (e.nextSector < e.sectors ch)

/-- The entry a queue works on: of a copy channel the head, or the next once the head has started its last sector; of the
stack queue, whose entries execute concurrently, the first that has something to start; none behind a parked one (R133,
R146). -/
def workingEntry (ch : Nat) (l : List Entry) : Option Entry :=
  ((if ch = 5 then l else l.take 2).takeWhile fun e => e.parked.isNone).find? fun e => Entry.opens ch e

/-- Whether a context's entries may start sectors: resident, being saved or departed, and not quiesced (R99, R133, R348,
R374). -/
def State.mayStart (s : State) (t k : Nat) : Bool :=
  let x := s.ctx t k
  (decide (x.st = .resident) || decide (x.st = .saving) || (decide (x.st = .saved) && x.departed)) && !x.dbg.quiesce && (s.tile t).failed.isNone

/-- Whether entry e stands at the head of its queue. -/
def Ctx.isHead (x : Ctx) (ch : Nat) (e : Entry) : Bool := match x.chan ch with
  | h :: _ => decide (h.ord = e.ord)
  | [] => false

/-- The entry of a channel that its head check is due for: the head, or one the channel is to start next that passes
(R131, R133); not while a debugger holds the context at a failed check. -/
def State.checkDue (s : State) (t k ch : Nat) (ok : Entry → Bool) : Option Entry :=
  let x := s.ctx t k
  match workingEntry ch (x.chan ch) with
  | some e =>
    let stopped := x.dbg.eh && decide (x.dbg.code = 0x14)
    if !e.checked ∧ !stopped ∧ s.mayStart t k ∧ (x.isHead ch e ∨ ok e) then some e else none
  | none => none

/-- Whether a sector of a channel may start now (R132, R133). -/
def State.startable (s : State) (t k ch : Nat) : Option Entry :=
  if !s.mayStart t k then none
  else match workingEntry ch ((s.ctx t k).chan ch) with
    | some e => if e.checked ∧ (s.flying t k ch e.ord).length < 16 then some e else none
    | none => none

/-! ### Parking (R139, R140) -/

/-- The landed-beyond mask of a copy parked at sector k (R139). -/
def lbMask (landed : List Nat) (k : Nat) : W16 :=
  (List.range 16).foldl (fun m j => if landed.contains (k + 1 + j) then m ||| BitVec.ofNat 16 (2 ^ j) else m) 0

/-- A parked entry none of whose sectors is in flight any more: its record is written; lost, the fault is fatal (R139,
R140). -/
def State.settlePark (s : State) (t k ch ord : Nat) : State :=
  match s.entry? t k ch ord with
  | some e =>
    match e.parked with
    | some (n, f) =>
      if e.parkSeq.isSome ∨ !(s.flying t k ch ord).isEmpty then s
      else
        match s.park t k { arg := BitVec.ofNat 64 ord, lbmask := lbMask e.landed n, sector := n, va := f.va, wr := f.wr,
                           queue := ch, reason := f.reason, code := f.code, met := some f.tick } 2 with
        | (s, some q) => s.modEntry t k ch ord fun e => { e with parkSeq := some q }
        | (s, none) => s
    | none => s
  | none => s

/-- COPY_PARK: a fault at sector n parks the entry, at the lowest faulting sector (R139, R152). -/
def State.parkEntry (s : State) (t k ch ord n : Nat) (f : PFault) : State :=
  (s.modEntry t k ch ord fun e =>
    { e with parked := match e.parked with
        | some (m, g) => if n < m then some (n, f) else some (m, g)
        | none => some (n, f) }).settlePark t k ch ord

/-! ### The rows of the copy engine -/

/-- COPY_HEAD_CHECK: validation at the head; a packet that fails faults CFORM and moves no byte (R131). -/
def State.headCheck (s : State) (t k ch : Nat) (ok : Entry → Bool) : Out :=
  match s.checkDue t k ch ok with
  | none => .fault .notDue
  | some e =>
    if ok e then .next (s.modEntry t k ch e.ord fun e => { e with checked := true })
    else .next (s.takeStop t k { s.stopRec t k 0x14 with src := 2 })

/-- Sets and channels in the order the engine serves them, after the last ones served (R133). -/
def rotate (l : List Nat) (last : Nat) : List Nat := (l.filter fun n => decide (last < n)) ++ l.filter fun n => decide (n ≤ last)

/-- The set and channel that start a sector in this clock cycle (R133). -/
def State.nextStart (s : State) (t : Nat) : Option (Nat × Nat × Entry) :=
  let x := s.tile t
  if 64 ≤ (x.sectors.filter fun n => decide (n.ch < 4)).length then none
  else (rotate (tabKeys x.ctxs) x.rrSet).findSome? fun k =>
    (rotate [0, 1, 2, 3] (tabGet 3 x.rrCh k)).findSome? fun ch => (s.startable t k ch).map fun e => (k, ch, e)

/-- Whether some piece lies in host memory. -/
def anyHost (l : List Piece) : Bool := l.any fun x => decide (x.home = .host)

/-- The pieces of sector n of a copy, or the fault of its translation (R134, R138, R144). -/
def State.planSector (s : State) (t k : Nat) (e : Entry) (n : Nat) : State × Except PFault (List Piece × List Piece) :=
  let p := e.packet
  let q := 4096 * n
  let len := min 4096 (pkTotal p - q)
  let sq := q * pkSsz p / pkDsz p
  let slen := len * pkSsz p / pkDsz p
  match s.endPieces t k (pkSkind p) (refOn t (pkSrc p)) (srcRow e.idx p) (pkLen0 p) sq slen
      { r := true, w := false, hbm := decide (pkSeop p = 1) && decide (pkDkind p = 1) } with
  | (s, .error f) => (s, .error f)
  | (s, .ok src) =>
    let needHbm := decide (2 ≤ pkSeop p) || (decide (pkSeop p = 1) && (decide (pkSkind p = 1) || anyHost src))
    match s.endPieces t k (pkDkind p) 0 (dstRow p) (pkDlen0 p) q len
        { r := decide (pkSeop p = 2), w := true, hbm := needHbm } with
    | (s, .error f) => (s, .error f)
    | (s, .ok dst) =>
      let dst := if pkDkind p = 1 then (s.receivers t p).flatMap fun u => tilePieces u q (cutRows (dstRow p) (pkDlen0 p) 8192 q len)
        else dst
      (s, .ok (src, dst))

/-- The session a contribution names (R147). -/
def State.session? (s : State) (asid : W16) (n : Nat) : Option Session :=
  s.sessions.find? fun x => decide (x.asid = asid) && decide (x.sess = n)

def ssKbase (p : Rec64) : Nat := fieldNat p 443 432
def ssKcm (p : Rec64) : Nat := fieldNat p 455 444
def ssDfmt (p : Rec64) : Nat := fieldNat p 11 8
def ssDst (p : Rec64) : W64 := p.extractLsb' 128 64
def ssBytes (p : Rec64) : Nat := fieldNat p 223 192 * stackSize (ssDfmt p)

/-- Whether a contribution fits its session: formats, destination, length, a key inside it that no other copy brought
(R138, R147). -/
def State.contribOk (s : State) (t k ch ord : Nat) (p : Rec64) : Bool :=
  match s.session? (s.asidOf t k) (pkSess p) with
  | none => false
  | some x =>
    decide (pkSfmt p = ssDfmt x.cmd) && decide (pkDfmt p = ssDfmt x.cmd) && decide (pkDst p = ssDst x.cmd)
      && decide (pkTotal p = ssBytes x.cmd) && decide (ssKbase x.cmd ≤ pkKey p) && decide (pkKey p ≤ ssKbase x.cmd + ssKcm x.cmd)
      && x.contribs.all fun c => decide (c.key ≠ pkKey p)
        || (decide (c.tile = t) && decide (c.ctx = k) && decide (c.ch = ch) && decide (c.ord = ord))

/-- The packet as it moves its bytes: a contribution lands in the holding area of its session, as one row of bytes (R147). -/
def State.landingPacket (s : State) (t k : Nat) (p : Rec64) : Int :=
  match s.session? (s.asidOf t k) (pkSess p) with
  | some x => Int.ofNat ((x.cmd.extractLsb' 320 64 : W64).toNat + (pkKey p - ssKbase x.cmd) * ssBytes x.cmd)
  | none => 0

/-- The fault of a contribution that finds no session to take it (R138, R148). -/
def State.lateContrib (s : State) (p : Rec64) : PFault := { code := 0x11, reason := 5, va := pkDst p, wr := true, tick := s.now }

/-- The pieces of sector n of a contribution: its destination is the holding area (R147). -/
def State.planContrib (s : State) (t k ch : Nat) (e : Entry) (n : Nat) : State × Except PFault (List Piece × List Piece) :=
  let p := e.packet
  if !s.contribOk t k ch e.ord p then (s, .error (s.lateContrib p))
  else
    let q := 4096 * n
    let len := min 4096 (pkTotal p - q)
    match s.endPieces t k (pkSkind p) (refOn t (pkSrc p)) (srcRow e.idx p) (pkLen0 p) q len ⟨true, false, false⟩ with
    | (s, .error f) => (s, .error f)
    | (s, .ok src) =>
      let base := s.landingPacket t k p
      match s.endPieces t k 0 0 (fun _ => base) (pkTotal p) q len ⟨false, true, true⟩ with
      | (s, .error f) => (s, .error f)
      | (s, .ok dst) => (s, .ok (src, dst))

/-- The row that moves a sector of a packet (R129, R144, R147). -/
def moveRow (p : Rec64) (id : Nat) : Instr :=
  if pkSeop p = 1 then .copyConvert id
  else if pkSeop p = 2 then .copyAccum id
  else if pkSeop p = 3 then .copyAccumk id
  else if pkOpc p = 2 then .copyGather id
  else .copyMove id

/-- A copy of key p.key is under way to its session. -/
def State.noteContrib (s : State) (t k ch ord : Nat) (p : Rec64) : State :=
  let asid := s.asidOf t k
  { s with sessions := s.sessions.map fun x =>
      if x.asid = asid ∧ x.sess = pkSess p ∧ !(x.contribs.any fun c => decide (c.key = pkKey p)) then
        { x with contribs := x.contribs ++ [{ key := pkKey p, tile := t, ctx := k, ch := ch, ord := ord, bytes := 0 }] }
      else x }

/-- Destination bytes of sector n on each receiver (R132). -/
def sectorBytes (p : Rec64) (n : Nat) : Nat := min 4096 (pkTotal p - 4096 * n)

/-- The index words of the rows that a sector takes, by local address (R129). -/
def sectorWords (p : Rec64) (idx : List Nat) (n : Nat) : List (Nat × Nat) :=
  if pkOpc p ≠ 2 then []
  else
    let r0 := 4096 * n / pkDlen0 p
    let r1 := (4096 * n + sectorBytes p n - 1) / pkDlen0 p
    ((List.range (r1 + 1 - r0)).map fun i =>
      let j := (pkIndex p (r0 + i)).1
      (pkIdx p + 4 * j, idx.getD j 0)).eraseDups

/-- Whether some piece lies in another package. -/
def anyPod (l : List Piece) : Bool := l.any fun x => decide (x.home = .pod)

/-- A sector that starts with its pieces, or with the fault of its translation. -/
def State.newSector (s : State) (t k ch : Nat) (e : Entry) (n : Nat) (r : Except PFault (List Piece × List Piece)) : Sector :=
  let p := e.packet
  let base : Sector :=
    { id := s.nextId, packet := p, asid := s.asidOf t k, ctx := k, ch := ch, ord := e.ord, k := n, bytes := sectorBytes p n,
      receivers := if pkDkind p = 1 then s.receivers t p else [], src := [], dst := [], fault := none, moved := false,
      out := [], clock := s.dieClock (s.dieOf t), started := s.now, die := s.dieOf t, noPath := none,
      words := sectorWords p e.idx n, todo := [] }
  match r with
  | .ok d => { base with src := d.1, dst := d.2, noPath := if anyPod (d.1 ++ d.2) && !s.podPath then some s.now else none }
  | .error f => { base with fault := some f }

/-- A sector is in flight; its row comes later. -/
def State.addSector (s : State) (t : Nat) (x : Sector) (row : Instr) : State :=
  let s : State := { s with nextId := s.nextId + 1 }
  (s.modTile t fun y => { y with sectors := y.sectors ++ [x] }).later [rowAt row t x.ctx]

/-- SECTOR_START: the copy engine starts one sector, translated afresh (R132 to R136); a fault parks the copy when the
sector's turn to move comes. -/
def execSectorStart (s : State) : Out :=
  let t := s.focus.tile
  match s.nextStart t with
  | none => .fault .notDue
  | some (k, ch, e) =>
    let p := e.packet
    let n := e.nextSector
    let s := s.modTile t fun x => { x with rrSet := k, rrCh := tabPut x.rrCh k ch }
    let s := s.modEntry t k ch e.ord fun e => { e with next := n + 1 }
    let r := if pkSeop p = 3 then s.planContrib t k ch e n else s.planSector t k e n
    let x := r.1.newSector t k ch e n r.2
    let s := if pkSeop p = 3 && x.fault.isNone then r.1.noteContrib t k ch e.ord p else r.1
    .next (s.addSector t x (moveRow p x.id))

/-- The sector of an id, with its tile. -/
def State.sector? (s : State) (id : Nat) : Option (Nat × Sector) :=
  s.tiles.findSome? fun e => (e.2.sectors.find? fun x => decide (x.id = id)).map fun x => (e.1, x)

def State.dropSector (s : State) (t id : Nat) : State :=
  s.modTile t fun x => { x with sectors := x.sectors.filter fun y => decide (y.id ≠ id) }

def State.modSector (s : State) (t id : Nat) (f : Sector → Sector) : State :=
  s.modTile t fun x => { x with sectors := x.sectors.map fun y => if y.id = id then f y else y }

/-! ### Reading and writing a sector (R119, R129, R132, R150) -/

/-- Whether the homes a sector reads have applied what its die had seen, and hold nothing for a tile that moves (R40,
R119). -/
def State.readable (s : State) (clock : Clock) (l : List Piece) : Bool :=
  l.all fun x => match x.home with
    | .stack _ => (s.frontier x.home).covers clock
    | .tile u => !s.holding.contains u && (s.frontier x.home).covers clock
    | _ => true

/-- The bytes of a piece; another package's are free values (R168). -/
def State.pieceBytes (s : State) (x : Piece) : List Byte :=
  match x.home with
  | .pod => (List.range x.len).map fun i => Config.podByte (s.free + x.q + i)
  | h => (List.range x.len).map fun i => s.byteAt h (x.addr + i) x.key

def State.piecesBytes (s : State) (l : List Piece) : List Byte := l.flatMap s.pieceBytes

/-- What the responses to the reads of pieces carry (R119). -/
def State.piecesClock (s : State) (l : List Piece) : Clock :=
  l.foldl (fun k x => match x.home with
    | .stack _ | .tile _ => k.merge (s.readClock x.home x.addr x.len)
    | _ => k) Clock.zero

/-- The reader's die d merges what the responses carry, and the queues of context c of tile t keep it for the acquire that
waits for the entry (R109, R119, R120). -/
def State.mergeReads (s : State) (t c d : Nat) (l : List Piece) : State :=
  (s.mergeDie d (s.piecesClock l)).keepLeft t c (s.piecesClock l)

/-- The first byte of the pieces that a test on addresses finds, as the copy names it: of HBM or of a scratchpad slice
(R3, R150). -/
def firstBad (bad : Piece → Nat → Bool) (l : List Piece) : Option W64 :=
  l.findSome? fun x => match x.home with
    | .stack _ | .tile _ => ((List.range x.len).find? fun i => bad x (x.addr + i)).map fun i => x.va + BitVec.ofNat 64 i
    | _ => none

/-- Where a read of the pieces meets an uncorrectable error (R150). -/
def State.badRead (s : State) (l : List Piece) : Option W64 := firstBad (fun _ a => s.eccBad a) l

/-- The index word of a sector on tile t that lies in a unit with an uncorrectable error (R129, R150). -/
def State.badWord (s : State) (t : Nat) (words : List (Nat × Nat)) : Option W64 :=
  (words.find? fun w => s.eccBad (sliceAddr t w.1)).map fun w => BitVec.ofNat 64 w.1

/-- Where writing the pieces must read a unit with an uncorrectable error: one it adds to, or an encrypted one it does not
cover (R149, R150). -/
def State.badWrite (s : State) (add : Bool) (l : List Piece) : Option W64 :=
  firstBad (fun x a =>
    let u := a / 64 * 64
    s.eccBad u && s.inHbm a && (add || (decide (x.key ≠ 0) && !((List.range 64).all fun j =>
      l.any fun y => decide (y.home = x.home) && decide (y.addr ≤ u + j) && decide (u + j < y.addr + y.len))))) l

/-- The uncorrectable error that moving a sector meets: a data error at an address, of a read or a write (R150). -/
def State.dataError (s : State) (t : Nat) (add : Bool) (words : List (Nat × Nat)) (src dst : List Piece) : Option PFault :=
  let at' (wr : Bool) (va : W64) : PFault := { code := 0x13, reason := 0, va := va, wr := wr, tick := s.now }
  match s.badWord t words with
  | some va => some (at' false va)
  | none => match s.badRead src with
    | some va => some (at' false va)
    | none => (s.badWrite add dst).map (at' true)

/-- Groups of n bytes. -/
def chunks (n : Nat) : Nat → List Byte → List (List Byte)
  | 0, _ => []
  | fuel + 1, l => if l.isEmpty ∨ n = 0 then [] else l.take n :: chunks n fuel (l.drop n)

/-- Source bytes of a sector as destination bytes: converted element by element (R129, R143, R144). -/
def convertBytes (p : Rec64) (l : List Byte) : List Byte :=
  (chunks (pkSsz p) l.length l).flatMap fun e => stackCvt (stackVal (pkSfmt p) e) (pkDfmt p) (pkRmode p)

/-- The address and key of every byte of a list of pieces, with its home. -/
def pieceAddrs (l : List Piece) : List (Home × Nat × Nat) :=
  l.flatMap fun x => (List.range x.len).map fun i => (x.home, x.addr + i, x.key)

/-- The fault of the first piece whose key slot is not loaded, or not its address space's (R136, R164). -/
def State.keyFault (s : State) (asid : W16) (l : List Piece) (wr : Bool) : Option PFault :=
  (l.find? fun y => !s.keyOk y.key asid).map fun y => { code := 0x12, reason := 1, va := y.va, wr := wr, tick := s.now }

/-- One item a home: the bytes written there. -/
def rawItems (l : List Piece) (data : List Byte) : List (Home × SecItem) :=
  ((l.map fun x => x.home).eraseDups).map fun h =>
    let mine := l.filter fun x => decide (x.home = h)
    (h, { addrs := (pieceAddrs mine).map Prod.snd, data := mine.flatMap fun x => (data.drop x.q).take x.len, acc := none })

/-- One item an element added: its destination bytes, the source element; free: the bytes that stand for it where its
value is unspecified (R129, R144). -/
def accItems (sf df m : Nat) (l : List Piece) (data : List Byte) (free : List (Option Byte)) : List (Home × SecItem) :=
  let as := pieceAddrs l
  let ssz := stackSize sf
  let dsz := stackSize df
  (List.range (as.length / dsz)).map fun i =>
    let mine := (as.drop (i * dsz)).take dsz
    let open' := ((free.drop (i * dsz)).take dsz).filterMap id
    ((mine.headD (.host, 0, 0)).1,
      if open'.isEmpty then { addrs := mine.map Prod.snd, data := (data.drop (i * ssz)).take ssz, acc := some (sf, df, m) }
      else { addrs := mine.map Prod.snd, data := (List.range dsz).map fun j => open'.getD (j % open'.length) 0, acc := none })

/-- Send a sector's items, one message a home, from the die of the agent that writes there; one tick of the die each, under the
Requester ID of the function that owns the launch (R109, R117, R124). -/
def State.sendSector (s : State) (t id : Nat) (own : Nat × Nat) (asid : W16) (die : Home → Nat) (items : List (Home × SecItem)) :
    State :=
  let homes := (items.map Prod.fst).eraseDups
  homes.foldl (fun (u : State) h =>
    let mine := (items.filter fun e => decide (e.1 = h)).map Prod.snd
    let r := u.send (die h) h (.sector id mine) [] (some own)
    let named : State := { r.1 with net := u.net ++ (r.1.net.drop u.net.length).map fun m => { m with fn := u.asidFn asid } }
    named.modSector t id fun x => { x with out := x.out ++ [r.2] }) s

/-! ### Bytes a copy leaves unspecified (R129) -/

/-- Rows of one end that hold byte a. -/
def rowsHolding (row : Nat → Int) (rows len : Nat) (a : Int) : Nat :=
  ((List.range rows).filter fun r => decide (row r ≤ a) && decide (a < row r + Int.ofNat len)).length

/-- Whether rows cannot meet: each dimension steps past all that the inner ones reach. -/
def rowsApart (p : Rec64) : Bool :=
  let d1 := if pkOpc p = 2 then pkDlen0 p else (pkDstr p 1).natAbs
  let e1 := (pkN1 p - 1) * d1 + pkDlen0 p
  let e2 := (pkN2 p - 1) * (pkDstr p 2).natAbs + e1
  (decide (pkN1 p = 1) || decide (pkDlen0 p ≤ d1)) && (decide (pkN2 p = 1) || decide (e1 ≤ (pkDstr p 2).natAbs))
    && (decide (pkN3 p = 1) || decide (e2 ≤ (pkDstr p 3).natAbs))

/-- Whether both ends name addresses of one space. -/
def sameSpace (t : Nat) (p : Rec64) (u : Nat) : Bool :=
  decide (pkSkind p = pkDkind p) && (if pkSkind p = 1 then decide (refOn t (pkSrc p) = u)
    else if pkSkind p = 2 then decide (fieldNat (pkSrc p) 63 56 = fieldNat (pkDst p) 63 56) else true)

/-- Whether the row that byte j of an entry's stream lies in takes an index word that has changed since the issue (R129). -/
def Entry.rowChanged (e : Entry) (j : Nat) : Bool := e.changed.contains (pkIndex e.packet (j / pkDlen0 e.packet)).1

/-- Whether a destination byte at an address is unspecified: two rows hold it, or the source does (R129). -/
def overlapped (t : Nat) (p : Rec64) (idx : List Nat) (u : Nat) (a : Int) : Bool :=
  (!rowsApart p && decide (1 < rowsHolding (dstRow p) (pkRows p) (pkDlen0 p) a))
    || (sameSpace t p u && decide (0 < rowsHolding (srcRow idx p) (pkRows p) (pkLen0 p) a))

/-- The destination bytes of a sector as they fall on tile u that the spec leaves unspecified, each with a free value: bytes
that rows or the source overlap, and rows whose index word has changed; a contribution lands in the holding area, where no
rows meet (R129, R147). -/
def State.openBytes (s : State) (t : Nat) (e : Option Entry) (x : Sector) (u : Nat) : List (Option Byte) :=
  let p := x.packet
  let idx := (e.map Entry.idx).getD []
  (List.range x.bytes).map fun i =>
    let j := 4096 * x.k + i
    let a := dstRow p (j / pkDlen0 p) + Int.ofNat (j % pkDlen0 p)
    if (match e with
        | some e => e.rowChanged j
        | none => false) || (decide (pkSeop p ≠ 3) && overlapped t p idx u a) then some (Config.copyByte (s.free + i))
    else none

/-- The rows of a gather that leaves whose index words have changed since its issue: what they brought is unspecified, also
where it was sent before the change (R129). -/
def State.openRows (s : State) (asid : W16) (e : Entry) : State :=
  e.wrote.foldl (fun (u : State) y =>
    let data := (List.range y.len).map fun i => if e.rowChanged (y.q + i) then some (Config.copyByte (u.free + i)) else none
    { u.writeAt y.home y.addr y.key data (u.frontier y.home) (s.asidFn asid) with free := u.free + y.len }) s

/-- Bytes with the free ones in their places. -/
def fillOpen (free : List (Option Byte)) (data : List Byte) : List Byte := (free.zip data).map fun e => e.1.getD e.2

/-! ### COPY_MOVE and its kin -/

/-- The first loopback piece of a pod end that this package's admission table refuses as it is reached (R168, R169). -/
def State.loopRefused (s : State) (kind : Nat) (wr : Bool) (l : List Piece) : Option PFault :=
  if kind ≠ 2 then none
  else (l.find? fun y => decide (y.home ≠ .pod) && !s.loopAdmits y.va y.len wr).map fun y => s.podRefused y.va wr

/-- What a sector that reaches its homes is refused for: admission of this package or of the other one, a session that has
closed, a key slot (R136, R148, R167, R169). -/
def State.arrivalFault (s : State) (x : Sector) : Option PFault :=
  let p := x.packet
  match s.loopRefused (pkSkind p) false x.src with
  | some f => some f
  | none => match s.loopRefused (pkDkind p) true x.dst with
    | some f => some f
    | none =>
      if anyPod (x.src ++ x.dst) && !Config.podAdmits s.free then
        some (s.podRefused (if pkDkind p = 2 then pkDst p else pkSrc p) (decide (pkDkind p = 2)))
      else (s.keyFault x.asid x.src false).or (s.keyFault x.asid x.dst true)

/-- The rows COPY_MOVE, COPY_GATHER, COPY_CONVERT, COPY_ACCUM and COPY_ACCUMK: the sector's source bytes are read, then its
destination bytes leave for their homes (R119, R129, R132, R144, R147); a faulting sector parks its copy (R139). -/
def State.moveSector (s : State) (id : Nat) (i : Instr) : Out :=
  match s.sector? id with
  | none => .fault .notDue
  | some (t, x) =>
    let p := x.packet
    let k := x.ctx
    let park (u : State) (f : PFault) : Out := .next ((u.dropSector t id).parkEntry t k x.ch x.ord x.k f)
    if x.moved ∨ 5 ≤ x.ch ∨ moveRow p id ≠ i then .fault .notDue
    else match x.fault with
      | some f => park s f
      | none =>
        if !s.readable x.clock x.src ∨ x.noPath.isSome then .fault .notDue
        else match s.arrivalFault x with
        | some f => park s.bumpFree f
        | none => match s.dataError t (decide (pkSeop p = 2)) x.words x.src x.dst with
          | some f =>
            let bad := (x.src ++ x.dst).flatMap fun y => (List.range y.len).map fun i => y.addr + i
            .next (((s.noteEcc bad).modSector t id fun y => { y with moved := true, fault := some f }).later
              [.row (.sectorLanded id) Focus.reset])
          | none =>
            let raw := s.piecesBytes x.src
            let free := s.openBytes t (s.entry? t k x.ch x.ord) x
            let die (_ : Home) : Nat := x.die
            let u := ({ s with free := s.free + 4096 }.mergeReads t k x.die x.src).modSector t id fun y => { y with moved := true }
            let u := if pkOpc p = 2 then u.modEntry t k x.ch x.ord fun e =>
              { e with wrote := e.wrote ++ x.dst.map fun y => { y with q := y.q + 4096 * x.k } } else u
            if pkSeop p = 2 then
              .next (u.sendSector t id (t, k) x.asid die (accItems (pkSfmt p) (pkDfmt p) (pkRmode p) x.dst raw (free 0)))
            else
              let data := if pkSeop p = 1 then convertBytes p raw else raw
              if pkDkind p = 1 then
                .next (u.sendSector t id (t, k) x.asid die (x.receivers.flatMap fun v =>
                  rawItems (x.dst.filter fun y => decide (y.home = .tile v)) (fillOpen (free v) data)))
              else .next (u.sendSector t id (t, k) x.asid die (rawItems x.dst (fillOpen (free 0) data)))

def execCopyMove (id : Nat) (s : State) : Out := s.moveSector id (.copyMove id)
def execCopyGather (id : Nat) (s : State) : Out := s.moveSector id (.copyGather id)
def execCopyConvert (id : Nat) (s : State) : Out := s.moveSector id (.copyConvert id)
def execCopyAccum (id : Nat) (s : State) : Out := s.moveSector id (.copyAccum id)
def execCopyAccumk (id : Nat) (s : State) : Out := s.moveSector id (.copyAccumk id)

/-- The pieces of a sector that another package is still to serve. -/
def Sector.podLeft (x : Sector) : List Piece := (if x.moved then x.dst else x.src ++ x.dst).filter fun y => decide (y.home = .pod)

/-- Every sector in flight notes whether pod traffic has a path (R168). -/
def State.notePath (s : State) : State :=
  { s with tiles := s.tiles.map fun (e : Nat × Tile) => (e.1, { e.2 with sectors := e.2.sectors.map fun x =>
      { x with noPath := if x.podLeft.isEmpty || s.podPath then none else some (x.noPath.getD s.now) } }) }

/-- POD_SECTOR_TIMEOUT: a sector that has had no path for 1,000,000 ticks is treated as refused (R168). -/
def execPodSectorTimeout (id : Nat) (s : State) : Out :=
  match s.sector? id with
  | none => .fault .notDue
  | some (t, x) =>
    let p := x.packet
    match x.noPath with
    | some n =>
      if !x.podLeft.isEmpty ∧ n + 1000000 ≤ s.now then
        let u : State := { s with net := s.net.filter fun m => !x.out.contains m.id }
        .next ((u.dropSector t id).parkEntry t x.ctx x.ch x.ord x.k
          (s.podRefused (if pkDkind p = 2 then pkDst p else pkSrc p) (decide (pkDkind p = 2))))
      else .fault .notDue
    | none => .fault .notDue

/-- POD_ACKNOWLEDGEMENT: another package's home has applied an access: it is performed at .pod (R122, R168). -/
def execPodAcknowledgement (id : Nat) (s : State) : Out :=
  match s.msg? id with
  | some m =>
    if m.home = .pod ∧ m.after.isEmpty then
      match m.body with
      | .sector sec _ => if s.podPath then .next ((s.dropMsg m.id).sectorApplied sec m.id) else .fault .notDue
      | _ => .next (s.dropMsg m.id)
    else .fault .notDue
  | none => .fault .notDue

/-! ### WRITE_APPLY (R118) -/

/-- The answer to another package stands among the completions, under 32 plus the I/O die. -/
def State.podAnswer (s : State) (a : PodAccess) (c : Completion) : State :=
  { s with completions := s.completions ++ [(32 + a.io, a.src, c)] }

/-- A message of another package's write has been applied; with the last one the write is acknowledged (R122). -/
def State.podApplied (s : State) (id : Nat) : State :=
  match s.pending.findSome? fun q => match q with
      | .podWrite a out => if out.contains id then some (a, out) else none
      | _ => none with
  | some (a, out) =>
    let rest : State := { s with pending := s.pending.erase (.podWrite a out) }
    let left := out.filter fun n => decide (n ≠ id)
    if left.isEmpty then rest.podAnswer a (.data []) else { rest with pending := rest.pending ++ [.podWrite a left] }
  | none => s

/-- The stop that a parking fault becomes whose record, of these bytes, is lost (R140). -/
def State.lostStop (s : State) (t c : Nat) (rec' : List Byte) : Stop :=
  let w := wordOf 64 (rec'.take 8)
  let hart := decide (fieldNat w 50 48 = 4)
  { s.stopRec t c (fieldNat w 39 32) with
    addr := wordOf 64 ((rec'.drop 8).take 8), reason := fieldNat w 47 40, src := if hart then 1 else 2,
    pc := if hart then (s.hart t c).pc else 0, word := if hart then s.pcWord t c else 0 }

/-- A record whose write its home refuses is lost; a parking fault whose record it is, and that has not been answered, becomes
fatal (R140). -/
def State.loseRecord (s : State) (m : Msg) (rec' : List Byte) : State := match m.own with
  | some (t, c) =>
    let seq := wordOf 32 (rec'.take 4)
    let x := s.ctx t c
    let s := s.modCtx t c fun x => { x with lost := x.lost + 1 }
    if (s.ctx? t c).isSome ∧ x.parkedSeqs.contains seq then
      (s.modCtx t c fun x => { x with parkedSeqs := x.parkedSeqs.filter fun q => decide (q ≠ seq) }).fatal t c (s.lostStop t c rec')
    else s
  | none => s

/-- Why a home refuses the bytes a sector brings: its session has closed, or a key slot is not loaded or not its address
space's when the unit is applied (R136, R148). -/
def State.refusal (s : State) (x : Sector) (m : Msg) (items : List SecItem) : Option PFault :=
  if x.ch < 4 ∧ pkSeop x.packet = 3 ∧ !(s.sessions.any fun n => decide (n.asid = x.asid) && decide (n.sess = pkSess x.packet)
      && n.contribs.any fun c => decide (c.key = pkKey x.packet) && decide (c.ctx = x.ctx) && decide (c.ord = x.ord)) then
    some (s.lateContrib x.packet)
  else match m.home with
    | .stack _ => ((items.flatMap fun n => n.addrs).find? fun a => !s.keyOk a.2 x.asid).map fun a =>
      { code := 0x12, reason := 1, va := (x.dst.findSome? fun y =>
          if y.home = m.home ∧ y.addr ≤ a.1 ∧ a.1 < y.addr + y.len then some (y.va + BitVec.ofNat 64 (a.1 - y.addr)) else none).getD 0,
        wr := true, tick := s.now }
    | _ => none

/-- The message of a sector is applied at its home, or refused there whole (R132, R136, R148; assumption 84). -/
def State.applySector (s : State) (m : Msg) (sec : Nat) (items : List SecItem) : State :=
  let why := match s.sector? sec with
    | some e => (s.refusal e.2 m items).map fun f => (e.1, f)
    | none => none
  let s := match why with
    | some (t, f) => s.modSector t sec fun x => { x with fault := x.fault.or (some f) }
    | none => items.foldl (fun (u : State) n => u.applyItem m.home m.clock n m.fn) s
  (s.applied m).sectorApplied sec m.id

/-- A write of a save area is refused for its key slot: its command meets a fault (R347, R354). -/
def State.areaRefused (s : State) (id : Nat) : State :=
  let mark (w : AreaWrite) : AreaWrite := if w.out.contains id then { w with failed := true } else w
  { s with pages := s.pages.map fun (e : Nat × FnPage) => (e.1, { e.2 with waits := e.2.waits.map mark }) }

/-- A write has been applied but for bytes its home could not make: an uncorrectable error, counted and reported to the hart
whose write it was; of a spill it is kept with the spill (R3, R149, R213, R386). -/
def State.writeFailed (s : State) (m : Msg) (addr : Nat) (bad : List Nat) : State :=
  if bad.isEmpty then s
  else
    let s := s.noteEcc bad
    match m.own with
    | some (t, c) =>
      if (s.hart t c).outst.contains m.id then s.cdata t c 0 4 0 m.va true
      else s.answerFill m.id { bytes := [], clock := Clock.zero, fault := some (0x13, 0, (bad.headD addr - addr) / 64 * 64) }
    | none => s

/-- WRITE_APPLY (R118). -/
def execWriteApply (id : Nat) (s : State) : Out :=
  match s.dueMsg id with
  | some m => match m.body with
    | .write addr data key none =>
      if s.keyRefused m key then .next (s.refuseKey m)
      else if s.keyFits m key then
        .next ((((s.writeAt m.home addr key data m.clock m.fn).applied m).podApplied m.id).writeFailed m addr
          (s.unwritten m.home addr key data))
      else .next ((s.applied m).answerFill m.id { bytes := [], clock := Clock.zero, fault := some (0x12, 1, 0) })
    | .post addr data key fn =>
      let bad := s.unwritten m.home addr key (data.map some)
      let u := ((if s.keyFits m key then (s.writeAt m.home addr key (data.map some) m.clock m.fn).noteEcc bad else s).applied m)
      let made := s.keyFits m key && bad.isEmpty
      .next (match fn with
        | some f => if made then u.msix f 0 else u.loseRecord m data
        | none => if made then u else u.areaRefused m.id)
    | .sector sec items => .next (s.applySector m sec items)
    | _ => .fault .notDue
  | none => .fault .notDue

/-! ### Landing (R86, R130, R132, R150, R151) -/

/-- A credit of the copy engine, which carries the die's clock (R120, R130). -/
def State.copyCredit (s : State) (t k u g n : Nat) : State :=
  if u = t then s.creditSem t g n (s.dieClock (s.dieOf t))
  else (s.send (s.dieOf t) (.tile u) (.credit u g n) [] (some (t, k))).1

/-- BYTES of a buffer (R151). -/
def Ctx.countBytes (x : Ctx) (b n : Nat) : Ctx :=
  let e := tabGet ((0, 0) : W64 × W64) x.hot b
  let v := e.1.toNat + n
  { x with hot := tabPut x.hot b (if 2 ^ 64 ≤ v then BitVec.allOnes 64 else BitVec.ofNat 64 v, e.2) }

/-- Sector n of an entry has landed. -/
def Entry.land (n : Nat) (e : Entry) : Entry :=
  let l := insNat n e.landed
  { e with landed := l, doneBelow := skipLanded l l.length e.doneBelow }

/-- Whether every sector of an entry has landed. -/
def Entry.done (ch : Nat) (e : Entry) : Bool := e.checked && decide (e.sectors ch ≤ e.doneBelow)

/-- The finished entries at the head of a copy channel leave, in order (R86). -/
def leaveDone (ch : Nat) : Nat → List Entry → Counts → List Entry × Counts
  | 0, l, c => (l, c)
  | fuel + 1, e :: l, c =>
    if Entry.done ch e then leaveDone ch fuel l (c.leave (pkTlinc e.packet)) else (e :: l, c)
  | _ + 1, [], c => ([], c)

def State.leaveEntries (s : State) (t k ch : Nat) : State :=
  let s := (((s.ctx t k).chan ch).takeWhile (Entry.done ch)).foldl (fun (u : State) e =>
    if e.changed.isEmpty then u else u.openRows (s.asidOf t k) e) s
  s.modCtx t k fun x =>
    let r := leaveDone ch 32 (x.chan ch) (x.count ch)
    (x.setChan ch r.1).setCount ch r.2

/-- A sector of a contribution has landed in the holding area (R147). -/
def State.landContrib (s : State) (asid : W16) (p : Rec64) (n : Nat) : State :=
  { s with sessions := s.sessions.map fun x =>
      if x.asid = asid ∧ x.sess = pkSess p then
        { x with contribs := x.contribs.map fun c => if c.key = pkKey p then { c with bytes := c.bytes + n } else c }
      else x }

/-- The semaphores a sector credits: tile and units (R130). -/
def sectorCredits (p : Rec64) (x : Sector) : List (Nat × Nat) :=
  if !pkSemen p then [] else if pkMcast p = 0 then [(pkSemtile p, x.bytes)] else x.receivers.map fun u => (u, x.bytes)

/-- ERR of a semaphore that a sector would have credited (R150). -/
def State.copyErr (s : State) (t k u g : Nat) : State :=
  if u = t then s.modSem t g fun m => { m with err := true }
  else (s.send (s.dieOf t) (.tile u) (.semErr u g) [] (some (t, k))).1

/-- An uncorrectable error in sector x of a copy: ERR of the semaphores it credits, a record, and the end of the context
under EPOL 1 or without a fault queue (R150). -/
def State.sectorError (s : State) (t : Nat) (x : Sector) (p : Rec64) (f : PFault) : State :=
  let k := x.ctx
  let s := (sectorCredits p x).foldl (fun u e => u.copyErr t k e.1 (pkSemg p)) s
  let stop := { s.stopRec t k 0x13 with addr := f.va, src := 2 }
  if (s.ctx? t k).isNone then s
  else if recFqVa (s.recOf t k) = 0 then s.takeStop t k stop
  else
    let s := (s.record t k { arg := BitVec.ofNat 64 x.ord, lbmask := 0, sector := x.k, va := f.va, wr := f.wr, queue := x.ch,
                             reason := 0, code := 0x13, met := some f.tick }).1
    if pkEpol p = 1 then s.takeStop t k stop else s

/-- A sector of a copy has landed: its credit is sent, its bytes are counted, entries that are done leave (R86, R130, R132,
R151). -/
def State.landCopy (s : State) (t : Nat) (x : Sector) (p : Rec64) : State :=
  let k := x.ctx
  let s := s.modEntry t k x.ch x.ord (Entry.land x.k)
  let s :=
    match x.fault with
    | some f => s.sectorError t x p f
    | none =>
      let n := x.bytes * (if pkMcast p = 0 then 1 else x.receivers.length)
      let s := if recHotVa (s.recOf t k) = 0 then s else s.modCtx t k fun y => y.countBytes (pkBuf p) n
      let s := if pkSeop p = 3 then s.landContrib x.asid p x.bytes else s
      (sectorCredits p x).foldl (fun (u : State) (e : Nat × Nat) => u.copyCredit t k e.1 (pkSemg p) e.2) s
  (s.leaveEntries t k x.ch).settlePark t k x.ch x.ord

/-- An uncorrectable error in a stack command: ERR of the semaphore it credits, a record; without a fault queue it is
fatal (R150). -/
def State.stackError (s : State) (t k ord sector : Nat) (p : Rec64) (f : PFault) : State :=
  let s := if fieldBit p 47 then s.copyErr t k (fieldNat p 46 38) (fieldNat p 37 32) else s
  if (s.ctx? t k).isNone then s
  else if recFqVa (s.recOf t k) = 0 then s.takeStop t k { s.stopRec t k 0x13 with addr := f.va, src := 2 }
  else (s.record t k { arg := BitVec.ofNat 64 ord, lbmask := 0, sector := sector, va := f.va, wr := f.wr, queue := 5,
                       reason := 0, code := 0x13, met := some f.tick }).1

/-- A sector of a stack command has landed (R145, R150, R151). -/
def State.landStack (s : State) (t : Nat) (x : Sector) (p : Rec64) : State :=
  let k := x.ctx
  let s := s.modEntry t k 5 x.ord (Entry.land x.k)
  let s :=
    match x.fault with
    | some f => s.stackError t k x.ord x.k p f
    | none => if recHotVa (s.recOf t k) = 0 then s
    else s.modCtx t k fun y => y.countBytes (fieldNat p 31 24) x.bytes
  let s := s.modEntry t k 5 x.ord fun e => { e with finished := Entry.done 5 e }
  s.settlePark t k 5 x.ord

/-- A fold of a key on one stack has been applied, or left undone by an uncorrectable error (R147, R150). -/
def State.landFold (s : State) (x : Sector) : State :=
  let u : State := { s with sessions := s.sessions.map fun n =>
    if n.id = x.ord then { n with folded := tabPut n.folded x.k (tabGet 0 n.folded x.k + 1) } else n }
  match x.fault, s.sessions.find? fun n => decide (n.id = x.ord) with
  | some f, some n => u.stackError n.owner.1 n.owner.2 n.ord ((f.va - ssDst x.packet).toNat / 4096) x.packet f
  | _, _ => u

/-- The sector that parks an entry for a fault: a fold parks its OPEN at the 4 KiB of the destination that it names (R139,
R145). -/
def Sector.parksAt (x : Sector) (f : PFault) : Nat := if x.ch = 6 then (f.va - ssDst x.packet).toNat / 4096 else x.k

/-- SECTOR_LANDED: every destination byte has been applied at its home, on every receiver (R132); a sector that a home
refused parks its entry (R136, R139, R148). -/
def execSectorLanded (id : Nat) (s : State) : Out :=
  match s.sector? id with
  | none => .fault .notDue
  | some (t, x) =>
    if !x.moved ∨ !x.out.isEmpty then .fault .notDue
    else
      let s := s.dropSector t id
      let refused := match x.fault with
        | some f => if f.code = 0x13 then none else some f
        | none => none
      match refused with
      | some f =>
        let ord := if x.ch = 6 then ((s.sessions.find? fun n => decide (n.id = x.ord)).map fun n => n.ord).getD 0 else x.ord
        .next (s.parkEntry t x.ctx (if x.ch = 6 then 5 else x.ch) ord (x.parksAt f) f)
      | none => .next (if x.ch = 6 then s.landFold x else if x.ch = 5 then s.landStack t x x.packet else s.landCopy t x x.packet)

end Sys2Proof.Machine
end

