-- ==== Sys2Proof/Machine/Stacks.lean ====
section
/-! DEFINITION. Stack commands (R145 to R148): GATHER, CONVERT and REDUCE sector by sector, keyed sessions and their folds, and
entries that leave the stack queue. -/

namespace Sys2Proof.Machine

/-! ### Fields of a command (R145) -/

def skOp (p : Rec64) : Nat := fieldNat p 3 0
def skSfmt (p : Rec64) : Nat := fieldNat p 7 4
def skDfmt (p : Rec64) : Nat := fieldNat p 11 8
def skRmode (p : Rec64) : Nat := fieldNat p 13 12
def skNsm (p : Rec64) : Nat := fieldNat p 17 14
def skSess (p : Rec64) : Nat := fieldNat p 21 18
def skAcc (p : Rec64) : Bool := fieldBit p 22
def skSemg (p : Rec64) : Nat := fieldNat p 37 32
def skSemtile (p : Rec64) : Nat := fieldNat p 46 38
def skSemen (p : Rec64) : Bool := fieldBit p 47
def skSrc (p : Rec64) : W64 := p.extractLsb' 64 64
def skDst (p : Rec64) : W64 := p.extractLsb' 128 64
def skCount (p : Rec64) : Nat := fieldNat p 223 192
def skRowlen (p : Rec64) : Nat := fieldNat p 255 224
def skStride (p : Rec64) : W64 := p.extractLsb' 256 64
def skAux (p : Rec64) : W64 := p.extractLsb' 320 64

/-- Source bytes of one block of a command (R131, R145). -/
def skSource (p : Rec64) : Nat :=
  if skOp p = 1 then skRowlen p * skCount p else skCount p * stackSize (if skOp p = 4 then skDfmt p else skSfmt p)

/-- Whether a command passes validation: R131 as far as its fields exist, R147, R148. DESIGN CHOICE, assumption 96: R131 states its
limit of 2^32 bytes in fields that a command lacks; it binds a command's source bytes too. -/
def State.stackOk (s : State) (t k : Nat) (e : Entry) : Bool :=
  let p := e.packet
  let op := skOp p
  zeroFields p [(23, 23), (63, 48), (431, 384), (511, 456)] && decide (1 ≤ op ∧ op ≤ 4) && decide (1 ≤ skCount p)
    && (if op = 1 then decide (1 ≤ skRowlen p ∧ skRowlen p < 2 ^ 24) else decide (skRowlen p = 0))
    && (decide (op = 1) || (decide (skDfmt p ≤ 9) && (decide (op = 4) || decide (skSfmt p ≤ 9))))
    && decide (skSource p ≤ 2 ^ 32)
    && (!skSemen p || s.carries (s.ctx t k).launch (skSemtile p))
    && (decide (op ≠ 4) || (decide (skSrc p = 0) && decide (ssKbase p + ssKcm p ≤ 4095)
        && (s.session? (s.asidOf t k) (skSess p)).isNone))

/-- COPY_HEAD_CHECK of a copy channel, or of the stack queue (R131, R145). -/
def execCopyHeadCheck (t k ch : Nat) (s : State) : Out :=
  if ch = 5 then s.headCheck t k 5 (s.stackOk t k) else s.headCheck t k ch fun e => !e.malformed && s.packetOk t k e.packet e.idx

/-! ### Ranges of virtual addresses -/

/-- n bytes from offset q of a range at a base address. -/
def State.mapRange (s : State) (t k : Nat) (base : W64) (q n : Nat) (need : Need) : State × Except PFault (List Piece) :=
  s.mapPieces t (s.asidOf t k) need q (cutRows (fun _ => Int.ofNat base.toNat) (q + n) (n / 2048 + 3) q n)

/-- Several ranges, one after another. -/
def State.mapRanges (s : State) (t k : Nat) (n : Nat) (need : Need) : List (W64 × Nat) → State × Except PFault (List (List Piece))
  | [] => (s, .ok [])
  | (base, q) :: l =>
    match s.mapRange t k base q n need with
    | (s, .error f) => (s, .error f)
    | (s, .ok m) =>
      match s.mapRanges t k n need l with
      | (s, .error f) => (s, .error f)
      | (s, .ok r) => (s, .ok (m :: r))

def needHbmR : Need := ⟨true, false, true⟩
def needHbmW : Need := ⟨false, true, true⟩

/-- The pieces a command's sector reads, as blocks, and writes; the bytes of the index words it needs come first (R146). -/
def State.planStack (s : State) (t k : Nat) (p : Rec64) (n : Nat) : State × Except PFault (List (List Piece) × List Piece) :=
  let q := 4096 * n
  let len := min 4096 (stkBytes p - q)
  let sources : State × Except PFault (List (List Piece)) :=
    if skOp p = 1 then
      let j0 := q / skRowlen p
      let j1 := (q + len - 1) / skRowlen p
      match s.mapRange t k (skAux p) (4 * j0) (4 * (j1 + 1 - j0)) needHbmR with
      | (s, .error f) => (s, .error f)
      | (s, .ok idx) =>
        let words := s.piecesBytes idx
        let row (j : Nat) : Int :=
          let i := natOfBytes ((words.drop (4 * (j - j0))).take 4)
          Int.ofNat (skSrc p + BitVec.ofNat 64 i * skStride p).toNat
        match s.mapPieces t (s.asidOf t k) needHbmR q (cutRows row (skRowlen p) 8192 q len) with
        | (s, .error f) => (s, .error f)
        | (s, .ok m) => (s, .ok [m, idx])
    else
      let sq := q * stackSize (skSfmt p) / stackSize (skDfmt p)
      let sn := len * stackSize (skSfmt p) / stackSize (skDfmt p)
      let blocks := if skOp p = 2 then skNsm p + 1 else 1
      s.mapRanges t k sn needHbmR ((List.range blocks).map fun j => (skSrc p + BitVec.ofNat 64 j * skStride p, sq))
  match sources with
  | (s, .error f) => (s, .error f)
  | (s, .ok l) =>
    match s.mapRange t k (skDst p) q len { needHbmW with r := decide (skOp p = 2) && skAcc p } with
    | (s, .error f) => (s, .error f)
    | (s, .ok d) => (s, .ok (l, d))

/-! ### Arithmetic (R146) -/

def isIntFmt (f : Nat) : Bool := decide (6 ≤ f)

/-- One element of REDUCE from its values in order (R146). -/
def reduceElem (p : Rec64) (l : List Val) : List Byte :=
  match l with
  | [] => stackCvt Val.zero (skDfmt p) (skRmode p)
  | x :: xs =>
    if isIntFmt (skSfmt p) && isIntFmt (skDfmt p) then
      stackCvt (xs.foldl (fun a v => a.add false v) x) (skDfmt p) (skRmode p)
    else
      let a := xs.foldl (fun a v => fp32.decode (roundF fp32 .rne (a.add false v)).1) x
      stackCvt a (skDfmt p) (skRmode p)

/-- The destination bytes of a sector from its source blocks, the destination's present bytes first when they are source 0
(R146). -/
def stackData (p : Rec64) (blocks : List (List Byte)) (old : List Byte) (len : Nat) : List Byte :=
  let ssz := stackSize (skSfmt p)
  let dsz := stackSize (skDfmt p)
  if skOp p = 1 then blocks.headD []
  else
    (List.range (len / dsz)).flatMap fun e =>
      let xs := blocks.map fun b => stackVal (skSfmt p) ((b.drop (e * ssz)).take ssz)
      if skOp p = 3 then stackCvt (xs.headD Val.zero) (skDfmt p) (skRmode p)
      else if skAcc p then reduceElem p (stackVal (skDfmt p) ((old.drop (e * dsz)).take dsz) :: xs)
      else reduceElem p xs

/-! ### The rows -/

/-- The entry of the stack queue that a row of operation op is due for. -/
def State.stackDue (s : State) (t k ord op : Nat) : Option Entry :=
  match workingEntry 5 ((s.ctx t k).chan 5) with
  | some e => if e.ord = ord ∧ e.checked ∧ skOp e.packet = op ∧ s.mayStart t k then some e else none
  | none => none

/-- The stacks of a list of pieces. -/
def pieceStacks (l : List Piece) : List Nat :=
  (l.filterMap fun x => match x.home with
    | .stack h => some h
    | _ => none).eraseDups

/-- The dies of the stack-engine contexts that read and write a command's sector: those of its destination's stacks (R109). -/
def stackDies (dst : List Piece) : List Nat := ((pieceStacks dst).map fun h => h / 3).eraseDups

/-- The clock a command's reads carry: the issuing tile's die's, which the command brings, and those of its engines' dies
(R109, R117; assumption 85). -/
def State.stackClock (s : State) (t : Nat) (dst : List Piece) : Clock :=
  (stackDies dst).foldl (fun k d => k.merge (s.dieClock d)) (s.dieClock (s.dieOf t))

/-- The pieces a command's sector reads: its sources, and its destination where that is source 0 (R145, R146). -/
def stackReads (p : Rec64) (blocks : List (List Piece)) (dst : List Piece) : List Piece :=
  blocks.flatten ++ if skOp p = 2 ∧ skAcc p then dst else []

/-- A sector of a context's command of which engines are still to send their part (R144). -/
def State.stackLeft (s : State) (t k : Nat) : Option Sector :=
  (s.tile t).sectors.find? fun y => decide (y.ch = 5) && decide (y.ctx = k) && !y.todo.isEmpty

/-- The stack engine that starts the next sector of a context's command, if it may start: the engine of the first granule of
its destination. -/
def State.stackReady (s : State) (t k : Nat) : Option Nat :=
  match workingEntry 5 ((s.ctx t k).chan 5) with
  | none => none
  | some e =>
    if !e.checked ∨ skOp e.packet = 4 ∨ !s.mayStart t k then none
    else match s.planStack t k e.packet e.nextSector with
      | (_, .error _) => none
      | (u, .ok (blocks, dst)) =>
        if u.readable (u.stackClock t dst) (stackReads e.packet blocks dst) then (pieceStacks dst).head? else none

/-- The OPEN of an entry as its ranges translate: its destination's and its holding area's pieces; a fault names the 4 KiB of
the destination it belongs to (R145, R147). -/
def State.planOpen (s : State) (t k : Nat) (p : Rec64) : State × Except (Nat × PFault) (List Piece × List Piece) :=
  let size := ssBytes p
  match s.mapRange t k (skDst p) 0 size { needHbmW with r := true } with
  | (s, .error f) => (s, .error ((f.va - skDst p).toNat / 4096, f))
  | (s, .ok dst) =>
    match s.mapRange t k (skAux p) 0 ((ssKcm p + 1) * size) { needHbmW with r := true } with
    | (s, .error f) => (s, .error ((f.va - skAux p).toNat % size / 4096, f))
    | (s, .ok aux) => (s, .ok (dst, aux))

/-- Whether the fold of a session's next key on a stack is due: the whole contribution has landed, none is under way, its OPEN
is not parked. -/
def State.foldDue (s : State) (x : Session) (h : Nat) : Bool :=
  let j := tabGet 0 x.folded h
  x.engines.contains h && decide (j ≤ ssKcm x.cmd)
    && x.contribs.any (fun c => decide (c.key = ssKbase x.cmd + j) && decide (c.bytes = ssBytes x.cmd))
    && !((s.tile x.owner.1).sectors.any fun y => decide (y.ch = 6) && decide (y.ord = x.id) && decide (y.k = h))
    && !((s.ctx x.owner.1 x.owner.2).chan 5).any fun e => decide (e.ord = x.ord) && e.parked.isSome

/-- The pieces that a fold reads: those of the held copy of the next key of a stack, and of the destination there (R147). -/
def foldReads (x : Session) (stack : Nat) (dst aux : List Piece) : List Piece :=
  let n := ssBytes x.cmd
  let j := tabGet 0 x.folded stack
  (aux.filter fun y => decide (y.q < (j + 1) * n) && decide (j * n < y.q + y.len)) ++ dst.filter fun y => decide (y.home = .stack stack)

/-- Whether a fold that is due finds what it reads applied (R119). -/
def State.foldReady (s : State) (x : Session) (stack : Nat) : Bool :=
  s.foldDue x stack && match s.planOpen x.owner.1 x.owner.2 x.cmd with
    | (u, .ok (dst, aux)) => u.readable (u.stackClock x.owner.1 dst) (foldReads x stack dst aux)
    | (_, .error _) => false

/-- The engines that hold something of context k of tile t to serve: the part of a sector, the start of one, folds. -/
def State.stackAsks (s : State) (t k : Nat) : List Nat :=
  (match s.stackLeft t k with
    | some y => (y.todo.head?.toList.filterMap fun e => match e.1 with
        | .stack h => some h
        | _ => none)
    | none => (s.stackReady t k).toList)
  ++ s.sessions.flatMap fun x => if x.owner = (t, k) then x.engines.filter fun h => s.foldReady x h else []

/-- A place in the order of a round robin by tile and context. -/
def turnOrder (a : Nat × Nat) : Nat := a.1 * 4096 + a.2

/-- Whether it is the turn of a context on a stack engine: none that waits there comes before it, counted round from the one
served last (R337). -/
def State.stackServes (s : State) (h t k : Nat) : Bool :=
  let last := turnOrder (tabGet (0, 0) s.stackTurn h)
  let far (a : Nat × Nat) : Nat := (turnOrder a + 2 ^ 40 - last - 1) % 2 ^ 40
  s.tiles.all fun e => e.2.ctxs.all fun x =>
    (decide (e.1 = t) && decide (x.1 = k)) || decide (far (t, k) ≤ far (e.1, x.1)) || !(s.stackAsks e.1 x.1).contains h

/-- The engines' dies take the clock that a command brings: what they write follows all that was before its issue (R109,
R113). -/
def State.bringClock (s : State) (t : Nat) (dst : List Piece) : State :=
  (stackDies dst).foldl (fun (v : State) d => v.mergeDie d (s.stackClock t dst)) s

/-- The next part of a sector leaves, sent by the engine of its stack in its turn; with the last part the sector has been moved
(R144, R337). -/
def State.stackPart (s : State) (t k : Nat) (y : Sector) : Out :=
  match y.todo with
  | [] => .fault .notDue
  | (g, x) :: l =>
    let h := match g with
      | .stack h => h
      | _ => 0
    if !s.stackServes h t k then .fault .notDue
    else
      let u : State := { s with stackTurn := tabPut s.stackTurn h (t, k) }
      .next ((u.sendSector t y.id (t, k) y.asid (fun g => s.homeDie g) [(g, x)]).modSector t y.id fun z =>
        { z with todo := l, moved := l.isEmpty })

/-- The next sector of a command starts: its sources are read, its destination bytes leave for their homes, each sent by the
engine of its stack, the first by the one that starts it; a fault parks the command (R109, R145, R146, R337). -/
def State.stackStart (s : State) (t k ord : Nat) (e : Entry) : Out :=
  let p := e.packet
  let n := e.nextSector
  match s.planStack t k p n with
  | (s, .error f) => .next (s.parkEntry t k 5 ord n f)
  | (u, .ok (blocks, dst)) =>
    let src := stackReads p blocks dst
    let h := (pieceStacks dst).headD 0
    if !u.readable (u.stackClock t dst) src ∨ !s.stackServes h t k then .fault .notDue
    else
      let len := min 4096 (stkBytes p - 4096 * n)
      let u : State := { u.modEntry t k 5 ord fun e => { e with next := n + 1 } with stackTurn := tabPut u.stackTurn h (t, k) }
      let bad := u.dataError t (skAcc p) [] src dst
      let items := rawItems dst (stackData p (blocks.map u.piecesBytes) (u.piecesBytes dst) len)
      let todo := if bad.isSome then [] else items.tail
      let x : Sector :=
        { id := u.nextId, packet := p, asid := u.asidOf t k, ctx := k, ch := 5, ord := ord, k := n, bytes := len, receivers := [],
          src := src, dst := dst, fault := bad, moved := todo.isEmpty, out := [], clock := u.stackClock t dst, started := u.now,
          die := h / 3, noPath := none, words := [], todo := todo }
      let at' := (src ++ dst).flatMap fun y => (List.range y.len).map fun i => y.addr + i
      if bad.isSome then .next ((u.noteEcc at').addSector t x (.sectorLanded x.id))
      else
        let u := ({ u with nextId := u.nextId + 1 }.modTile t fun y => { y with sectors := y.sectors ++ [x] }).bringClock t dst
        let u := (stackDies dst).foldl (fun (v : State) d => v.mergeReads t k d src) u
        .next (u.sendSector t x.id (t, k) x.asid (fun g => s.homeDie g) (items.take 1))

/-- A stack engine's next service of a command: the part of a sector that has started, else the start of the next (R337). -/
def State.stackSector (s : State) (t k ord op : Nat) : Out :=
  match s.stackLeft t k with
  | some y => if y.ord = ord ∧ skOp y.packet = op then s.stackPart t k y else .fault .notDue
  | none => match s.stackDue t k ord op with
    | none => .fault .notDue
    | some e => s.stackStart t k ord e

def execStackGather (t k ord : Nat) (s : State) : Out := s.stackSector t k ord 1
def execStackReduce (t k ord : Nat) (s : State) : Out := s.stackSector t k ord 2
def execStackConvert (t k ord : Nat) (s : State) : Out := s.stackSector t k ord 3

/-- Whether an engine holds 16 sessions already (R147). -/
def State.engineFull (s : State) (h : Nat) : Bool := decide (16 ≤ (s.sessions.filter fun x => x.engines.contains h).length)

/-- The engines of the waiting OPENs that became ready before a tick and would be accepted now (R148). -/
def State.waitingOpens (s : State) (before : Nat) : List (List Nat) :=
  s.tiles.flatMap fun e => e.2.ctxs.filterMap fun x =>
    match workingEntry 5 (x.2.chan 5) with
    | some n => match n.ready with
      | some r => if r < before ∧ n.checked ∧ skOp n.packet = 4 then match (s.planOpen e.1 x.1 n.packet).2 with
          | .ok d => if s.mayStart e.1 x.1 ∧ !(pieceStacks d.1).any s.engineFull then some (pieceStacks d.1) else none
          | .error _ => none
        else none
      | none => none
    | none => none

/-- STACK_OPEN: the session is accepted by the engines of its destination's granules; while one holds 16, or an OPEN that
became ready earlier is to be accepted first by one of them, it waits; a session already open under the address space faults CFORM (R147,
R148). -/
def execStackOpen (t k ord : Nat) (s : State) : Out :=
  match s.stackDue t k ord 4 with
  | none => .fault .notDue
  | some e =>
    let p := e.packet
    let sent (u : State) : State := u.modEntry t k 5 ord fun e => { e with next := e.sectors 5, ready := none }
    match s.planOpen t k p with
    | (s, .error f) => .next (s.parkEntry t k 5 ord f.1 f.2)
    | (u, .ok (dst, aux)) =>
      let engines := pieceStacks dst
      match u.session? (u.asidOf t k) (skSess p) with
      | some x =>
        if x.owner = (t, k) ∧ x.ord = ord then .next (sent u)
        else .next (u.takeStop t k { u.stopRec t k 0x14 with src := 2 })
      | none =>
        let behind := (u.waitingOpens (e.ready.getD u.now)).any fun l => l.any fun h => engines.contains h
        if behind ∨ engines.any fun h => u.engineFull h then
          if e.ready.isSome then .fault .notDue else .next (s.modEntry t k 5 ord fun e => { e with ready := some s.now })
        else
          let x : Session :=
            { id := u.nextId, asid := u.asidOf t k, sess := skSess p, owner := (t, k), ord := ord, cmd := p, dst := dst, aux := aux,
              engines := engines, contribs := [], folded := [] }
          .next (sent { u with nextId := u.nextId + 1, sessions := u.sessions ++ [x] })

/-- The elements of a session's destination that an engine folds: those that lay on its stack at the OPEN (R147). -/
def foldElems (x : Session) (stack : Nat) : List Nat :=
  let dsz := stackSize (ssDfmt x.cmd)
  let as := pieceAddrs x.dst
  (List.range (ssBytes x.cmd / dsz)).filter fun i => decide ((((as.drop (i * dsz)).headD (.host, 0, 0)).1) = .stack stack)

/-- The bytes that the held copy of the next key of a stack has, with their homes. -/
def heldAddrs (x : Session) (stack : Nat) (aux : List Piece) : List (Home × Nat × Nat) :=
  ((pieceAddrs aux).drop (tabGet 0 x.folded stack * ssBytes x.cmd)).take (ssBytes x.cmd)

/-- One item an element folded: the destination bytes, the held ones (R147). -/
def State.foldItems (s : State) (x : Session) (stack : Nat) (dst aux : List Piece) : List (Home × SecItem) :=
  let df := ssDfmt x.cmd
  let dsz := stackSize df
  (foldElems x stack).map fun i =>
    let mine := ((pieceAddrs dst).drop (i * dsz)).take dsz
    ((mine.headD (.host, 0, 0)).1,
      { addrs := mine.map Prod.snd,
        data := (((heldAddrs x stack aux).drop (i * dsz)).take dsz).map fun a => s.byteAt a.1 a.2.1 a.2.2,
        acc := some (df, df, skRmode x.cmd) })

/-- The uncorrectable error that a fold meets, in the held copy or in the destination (R150). -/
def State.foldError (s : State) (x : Session) (stack : Nat) (dst aux : List Piece) : Option PFault :=
  let dsz := stackSize (ssDfmt x.cmd)
  let bad (l : List (Home × Nat × Nat)) : Option Nat :=
    (foldElems x stack).find? fun i => ((l.drop (i * dsz)).take dsz).any fun a => s.eccBad a.2.1
  let held := bad (heldAddrs x stack aux)
  (held.or (bad (pieceAddrs dst))).map fun i =>
    { code := 0x13, reason := 0, va := skDst x.cmd + BitVec.ofNat 64 (i * dsz), wr := held.isNone, tick := s.now }

/-- SESSION_FOLD: one key is folded on one stack, in its engine's turn, under the translation of now: every element of DST there
takes cvt(val(e) + val(held)); a fault parks the OPEN (R137, R145, R147, R337). -/
def execSessionFold (id stack : Nat) (s : State) : Out :=
  match s.sessions.find? fun x => decide (x.id = id) with
  | none => .fault .notDue
  | some x =>
    if !s.foldDue x stack then .fault .notDue
    else
      let t := x.owner.1
      let k := x.owner.2
      match s.planOpen t k x.cmd with
      | (u, .error f) => .next (u.parkEntry t k 5 x.ord f.1 f.2)
      | (u, .ok (dst, aux)) =>
        let reads := foldReads x stack dst aux
        if !u.readable (u.stackClock t dst) reads ∨ !s.stackServes stack t k then .fault .notDue
        else
        let items := u.foldItems x stack dst aux
        let err := u.foldError x stack dst aux
        let sid := u.nextId
        let y : Sector :=
          { id := sid, packet := x.cmd, asid := x.asid, ctx := k, ch := 6, ord := id, k := stack, bytes := ssBytes x.cmd, receivers := [],
            src := [], dst := dst, fault := err, moved := true, out := [], clock := u.stackClock t dst, started := u.now,
            die := stack / 3, noPath := none, words := [], todo := [] }
        let u : State := { u with stackTurn := tabPut u.stackTurn stack (t, k) }
        if err.isSome ∨ items.isEmpty then
          .next ((u.noteEcc ((heldAddrs x stack aux ++ pieceAddrs dst).map fun a => a.2.1)).addSector t y (.sectorLanded sid))
        else
          let u := { u with nextId := sid + 1 }.modTile t fun z => { z with sectors := z.sectors ++ [y] }
          let u := (u.mergeDie (stack / 3) (u.stackClock t dst)).mergeReads t k (stack / 3) reads
          .next (u.sendSector t sid (t, k) x.asid (fun _ => stack / 3) items)

/-- Whether the entry at the head of the stack queue has all its work done; an OPEN when every stack has folded the last
key (R86, R147). -/
def State.stackDone (s : State) (t k : Nat) : Option Entry :=
  match (s.ctx t k).chan 5 with
  | [] => none
  | e :: _ =>
    if skOp e.packet = 4 then
      match s.sessions.find? fun x => decide (x.owner = (t, k)) && decide (x.ord = e.ord) with
      | some x => if x.engines.all fun h => decide (tabGet 0 x.folded h = ssKcm x.cmd + 1) then some e else none
      | none => none
    else if e.finished then some e else none

/-- STACK_ENTRY_LEAVE: the head entry leaves; its session closes; 1 unit is credited; the tile's die has the clocks of what its
engines read (R86, R120, R145, R148). -/
def execStackEntryLeave (t k : Nat) (s : State) : Out :=
  match s.stackDone t k with
  | none => .fault .notDue
  | some e =>
    let s := (s.mergeDie (s.dieOf t) (s.ctx t k).left).modCtx t k fun x => (x.setChan 5 (x.chan 5).tail).setCount 5 ((x.count 5).leave 1)
    let s := { s with sessions := s.sessions.filter fun x => !(decide (x.owner = (t, k)) && decide (x.ord = e.ord)) }
    .next (if skSemen e.packet then s.copyCredit t k (skSemtile e.packet) (skSemg e.packet) 1 else s)

/-- The row of a command. -/
def stackRow (t k ord : Nat) (p : Rec64) : Instr :=
  match skOp p with
  | 1 => .stackGather t k ord
  | 2 => .stackReduce t k ord
  | 3 => .stackConvert t k ord
  | _ => .stackOpen t k ord

end Sys2Proof.Machine
end

