-- ==== Sys2Proof/Machine/Registers.lean ====
section
/-! DEFINITION. The device register block (R154 to R169, R346, R364, R372): which offsets a function reaches, what a read
returns, which row a write is. -/

namespace Sys2Proof.Machine

/-! ### Contexts by number -/

/-- The key of context number n of tile t: the context in the number, else the saved context that had it. -/
def State.keyOf (s : State) (t n : Nat) : Option Nat :=
  match s.ctx? t n with
  | some _ => some n
  | none => ((s.tile t).ctxs.find? fun e => decide (e.2.num = n)).map Prod.fst

/-- The key of the context of number n that function f may command: the one in the number, else a saved one (R346). -/
def State.owned? (s : State) (f t n : Nat) : Option Nat :=
  let l := (s.tile t).ctxs.filter fun e => decide (e.2.num = n) && s.owns f t e.1
  match l.find? fun e => decide (e.1 = n) with
  | some e => some e.1
  | none => l.head?.map Prod.fst

/-- Contexts of tile t whose dump was asked for before context k's, or is being written (R353). -/
def State.dumpsAhead (s : State) (t k : Nat) : Nat :=
  match (s.ctx t k).dumpAsked with
  | none => 0
  | some n => ((s.tile t).ctxs.filter fun e => match e.2.dumpAsked with
      | some m => decide (m < n) || (decide (m = n) && decide (e.1 < k))
      | none => false).length

/-- STATE of R346. -/
def State.stateCode (s : State) (t k : Nat) : Nat :=
  match (s.ctx t k).st with
  | .resident => 1
  | .saving => 2
  | .saved => 3
  | .faulted => 4
  | .dumping => 5
  | .dumped => 6
  | .dumpedIncomplete => 7
  | .quarantined => 8

/-- CSTATE of the context that CQUERY of page f names: the function's own, else the one of that number (R346). -/
def State.cstateWord (s : State) (f : Nat) (q : BitVec 12) : W64 :=
  let t := fieldNat q 8 0
  let n := fieldNat q 11 9
  match (s.owned? f t n).or (s.keyOf t n) with
  | some k => BitVec.ofNat 64 (s.stateCode t k + 256 * (s.ctx t k).lastCode + 65536 * s.dumpsAhead t k)
  | none =>
    let e := tabGet (0, 0) (s.tile t).past n
    BitVec.ofNat 64 (e.1 + 256 * e.2)

/-! ### DSTAT (R372) -/

def State.inflight (s : State) (t k : Nat) : Nat := ((s.tile t).sectors.filter fun x => decide (x.ctx = k)).length

def Ctx.entries (x : Ctx) : Nat := sumNat (x.chans.map fun e => e.2.length)

/-- No sector of the context is in flight or able to start (R372). -/
def State.stable (s : State) (t k : Nat) : Bool :=
  decide (s.inflight t k = 0) && [0, 1, 2, 3, 5].all fun ch => (s.startable t k ch).isNone

/-- The bundle a context issues next. -/
def Ctx.nextBundle (x : Ctx) : Nat := match x.reissue with
  | some r => r.1
  | none => x.nextAddr

/-- The DSTAT word of a context; all zero where there is none. -/
def State.dstatWord (s : State) (t n : Nat) : W64 :=
  match s.keyOf t n with
  | none => 0
  | some k =>
    let x := s.ctx t k
    let d := x.dbg
    BitVec.ofNat 8 (s.inflight t k) ++ BitVec.ofNat 8 x.entries ++ bit1 (d.quiesce && s.stable t k) ++ bit1 d.eh ++ bit1 d.hh
      ++ bit1 d.caught ++ BitVec.ofNat 13 x.nextBundle ++ BitVec.ofNat 3 d.slot ++ (0 : BitVec 4)
      ++ x.hart.pc.extractLsb' 0 16 ++ BitVec.ofNat 8 d.code
where bit1 (b : Bool) : BitVec 1 := if b then 1 else 0

/-! ### The capability list (R166) -/

/-- Working physical tiles that carry no enabled number. -/
def State.spareTiles (s : State) : Nat :=
  let used := s.enabledTiles.map s.siteOf
  ((List.range 384).filter fun p => (s.site p).working && !used.contains p).length

def podLanes : Nat := 36

def State.lanesUp (s : State) (io : Nat) : Nat := ((List.range podLanes).filter fun l => !s.podDown.contains (io, l)).length

/-- Spare rows of a bank, of 32, that manufacture has left unusable, and spare lanes of a link's module, of 4 (R388; assumption
92). -/
def usedRows (stack bank : Nat) : Nat := min 32 (Config.usedRows stack bank)

def usedLanes (link : Nat) : Nat := min 4 (Config.usedLanes link)

/-- Spare HBM rows left, over every bank of every stack (R166). -/
def State.rowsLeft (s : State) : Nat :=
  sumNat ((List.range 24).flatMap fun k => (List.range Config.hbmBanks).map fun b => 32 - usedRows k b) - s.repaired.length

/-- Spare lanes left of a link's module (R388). -/
def State.lanesLeft (s : State) (link : Nat) : Nat := 4 - usedLanes link - tabGet 0 s.lanesUsed link

/-- DATA of capability ID i. -/
def State.capData (s : State) (i : Nat) : Nat :=
  if i = 1 then (s.n0 - s.fenced.length) + 2 ^ 16 * s.fenced.length + 2 ^ 32 * s.n0
  else if i = 2 then 0x1F
  else if i = 3 then 0x201
  else if i = 4 then
    s.spareTiles + 2 ^ 16 * (s.rowsLeft % 2 ^ 32) + 2 ^ 48 * sumNat ((List.range 14).map s.lanesLeft)
  else if i = 5 then 255 + 2 ^ 16 * 256 + 2 ^ 32
  else s.lanesUp 8 + 2 ^ 8 * s.lanesUp 9 + (if s.podValid then 2 ^ 16 + 2 ^ 24 * s.podNumber else 0)

/-- The words of the capability list; its entries stand in ascending ID from 0x100 (assumption 17). -/
def State.capWord (s : State) (off : Nat) : W64 :=
  let i := (off - 0x100) / 16
  if 6 ≤ i then 0
  else if off % 16 = 8 then BitVec.ofNat 64 (s.capData (i + 1))
  else BitVec.ofNat 64 (i + 1 + 2 ^ 16 + 2 ^ 32 * (if i = 5 then 0 else 0x110 + 16 * i))

/-! ### Reads -/

/-- A word of a launch queue's page (R157, R159). -/
def State.queueWord (s : State) (q o : Nat) : W64 :=
  let x := s.queue q
  if o < 0x100 then x.stage.extractLsb' (8 * o) 64
  else if o = 0x108 then x.entered
  else if o = 0x110 then BitVec.ofNat 64 (queueRoom x)
  else if o = 0x118 then x.timeline
  else if o = 0x120 then x.tlarm
  else if o = 0x128 then x.qown.setWidth 64
  else if o = 0x130 then x.drops
  else if 0x800 ≤ o ∧ o < 0xC00 then (tabGet 0 x.status ((o - 0x800) / 16)).extractLsb' (8 * (o % 16)) 64
  else 0

/-- A word of a function page (R156, R346, R364, R372). -/
def State.pageWord (s : State) (g o : Nat) : W64 :=
  let p := s.page g
  if o = 0 then p.discard ++ BitVec.ofNat 32 ((if p.regerr then 2 else 0) + (if p.stalled then 1 else 0))
  else if 0x10 ≤ o ∧ o < 0x90 then
    let n := (o - 0x10) / 16
    if o % 16 = 0 then tabGet 0 p.rbase n else tabGet 0 p.rlim n ||| 0xFFF
  else if o = 0x98 then p.darg
  else if o = 0xA0 then p.ddata
  else if o = 0xA8 then p.ddone ++ (0 : BitVec 16) ++ p.dlastop ++ p.dcode
  else if o = 0xB0 then match p.dstat with
    | some d => s.dstatWord d.1 d.2
    | none => 0
  else if o = 0xC8 then p.cdone ++ (0 : BitVec 16) ++ p.lastop ++ p.cres
  else if o = 0xD8 then s.cstateWord g p.cquery
  else if o = 0xE0 then p.trcfg
  else if o = 0xE8 then p.wp
  else if o = 0xF0 then p.rp
  else if o = 0xF8 then p.tdrop ++ p.speriod
  else 0

/-- A word of the key-slot registers (R164). -/
def State.keyWord (s : State) (o : Nat) : W64 :=
  if o < 0x100 then s.kstage.extractLsb' (8 * o) 64
  else if o = 0x108 then s.kdone ++ (0 : BitVec 24) ++ s.kres
  else if 0x1000 ≤ o ∧ o < 0x1800 then
    let k := s.keySlot ((o - 0x1000) / 8)
    k.asid ++ k.gen ++ (0 : BitVec 15) ++ (if k.loaded then 1 else 0 : BitVec 1)
  else 0

/-- A word of the pod registers (R167). -/
def State.podWord (s : State) (o : Nat) : W64 :=
  if o = 0 then s.podid.setWidth 64
  else if 0x100 ≤ o ∧ o < 0x300 then (tabGet 0 s.admission ((o - 0x100) / 16)).extractLsb' (8 * (o % 16)) 64
  else 0

/-- A register as a read returns it; reserved and write-only words read as zero (R13, R14, R155). In boot only IDENT is
given (R389). -/
def State.regWord (s : State) (off : Nat) : W64 :=
  if off = 0 then 0x320
  else if s.boot ≠ .running then 0
  else if off = 8 then 0x100
  else if 0x100 ≤ off ∧ off < 0x1000 then s.capWord off
  else if 0x10000 ≤ off ∧ off < 0x18000 then s.queueWord (off / 0x1000 % 8) (off % 0x1000)
  else if off = 0x20008 then s.invdone
  else if off = 0x20018 then s.frdrop
  else if 0x30000 ≤ off ∧ off < 0x31100 then s.pageWord ((off - 0x30000) / 0x100) (off % 0x100)
  else if 0x40000 ≤ off ∧ off < 0x42000 then s.keyWord (off - 0x40000)
  else if 0x50000 ≤ off ∧ off < 0x50300 then s.podWord (off - 0x50000)
  else if 0x100000 ≤ off ∧ off < 0x200000 then
    let a := (off - 0x100000) / 16
    if off % 16 = 8 then tabGet 0 s.asidHigh a else (tabGet 0 s.asids a).extractLsb' 0 64
  else 0

/-! ### What a function reaches (R154, R155) -/

/-- Whether function f reaches the register at an offset. -/
def State.regOpen (s : State) (f off : Nat) : Bool :=
  decide (f = 0) || decide (off = 0) || decide (off = 8) || (decide (0x100 ≤ off) && decide (off < 0x1000))
    || (decide (0x10000 ≤ off) && decide (off < 0x18000) && decide ((s.queue (off / 0x1000 % 8)).qown.toNat = f))
    || decide (off = 0x20000) || decide (off = 0x20008) || decide (off = 0x20010)
    || (decide (0x30000 + 0x100 * f ≤ off) && decide (off < 0x30100 + 0x100 * f))

/-- Whether n bytes at a BAR0 offset are whole aligned registers that function f reaches. -/
def State.regOk (s : State) (f off n : Nat) : Bool :=
  decide (off % 8 = 0) && decide (n % 8 = 0) && decide (0 < n) && decide (off + n ≤ if f = 0 then 0x1000000 else 0x40000)
    && (List.range (n / 8)).all fun i => s.regOpen f (off + 8 * i)

/-! ### Writes -/

/-- The row that a write of a register is; reserved bits of a command decide where the spec names an outcome for them. -/
def regRow (f off : Nat) (v : W64) : Instr :=
  if 0x10000 ≤ off ∧ off < 0x18000 then
    let q := off / 0x1000 % 8
    let o := off % 0x1000
    if o = 0x100 then .doorbell f q
    else if o = 0x120 then .tlarmWrite f q v
    else if o = 0x128 ∧ f = 0 then .qownWrite f q (v.extractLsb' 0 5)
    else .registerWrite f off v
  else if off = 0x20000 then
    let asid : W16 := v.extractLsb' 0 16
    if fieldNat v 61 48 ≠ 0 ∨ fieldNat v 63 62 = 3 then .invalidateNone f
    else if fieldNat v 63 62 = 0 then .invalidatePage f asid (v.extractLsb' 16 32)
    else if fieldNat v 63 62 = 1 then .invalidateAsid f asid
    else .invalidateAll f
  else if off = 0x20010 ∧ fieldNat v 63 45 = 0 then
    let t := fieldNat v 40 32
    let c := fieldNat v 43 41
    if fieldBit v 44 then .faultReplyAbort f t c (v.extractLsb' 0 32) else .faultReplyRetry f t c (v.extractLsb' 0 32)
  else if 0x30000 ≤ off ∧ off < 0x31100 ∧ off % 0x100 = 0xD0 then .cquery ((off - 0x30000) / 0x100) (fieldNat v 8 0) (fieldNat v 11 9)
  else if off = 0x40100 ∧ fieldNat v 63 62 = 1 then .keyLoad (fieldNat v 7 0)
  else if off = 0x40100 ∧ fieldNat v 63 62 = 2 then .keyClear (fieldNat v 7 0)
  else if 0x100000 ≤ off ∧ off < 0x200000 then .asidEntryWrite f ((off - 0x100000) / 16) (decide (off % 16 = 8)) v
  else .registerWrite f off v

/-- The rows of one register write; the first word of a function page clears one bit or two (R156). -/
def regRows (f off : Nat) (v : W64) : List Instr :=
  if 0x30000 ≤ off ∧ off < 0x31100 ∧ off % 0x100 = 0 then
    let g := (off - 0x30000) / 0x100
    (if v.getLsbD 0 then [.stalledClear f g] else []) ++ (if v.getLsbD 1 then [.regerrClear f g] else [])
  else [regRow f off v]

/-- A record's word o div 8 replaced. -/
def setWord {m : Nat} (w : BitVec m) (o : Nat) (v : W64) : BitVec m :=
  (w &&& ~~~((BitVec.allOnes 64).setWidth m <<< (8 * o))) ||| (v.setWidth m <<< (8 * o))

/-- A write of a word of function page g by function f (R156, R346, R364, R372). -/
def State.writePage (s : State) (f g o : Nat) (v : W64) : State :=
  if 0x10 ≤ o ∧ o < 0x90 then
    if f ≠ 0 then s
    else
      let n := (o - 0x10) / 16
      s.modPage g fun p =>
        if o % 16 = 0 then { p with rbase := tabPut p.rbase n (v &&& ~~~0xFFE#64) }
        else { p with rlim := tabPut p.rlim n (v &&& ~~~0xFFF#64) }
  else if 0xE0 ≤ o ∧ f ≠ g then s
  else if o = 0x90 then s.modPage g fun p => { p with cmds := p.cmds ++ [.debug v p.darg p.ddata] }
  else if o = 0x98 then s.modPage g fun p => { p with darg := v }
  else if o = 0xA0 then s.modPage g fun p => { p with ddata := v }
  else if o = 0xC0 then if fieldNat v 63 62 = 0 then s else s.modPage g fun p => { p with cmds := p.cmds ++ [.ctl v] }
  else if o = 0xE0 then s.modPage g fun p => { p with trcfg := v &&& 0x0000FFFFFFFFFF0F }
  else if o = 0xF0 then s.modPage g fun p => { p with rp := v }
  else if o = 0xF8 then s.modPage g fun p => { p with speriod := v.setWidth 32 }
  else s

/-- REGISTER_WRITE: a register the host may write takes the value; a command word joins the serial order of its unit; a
fault reply with a reserved bit is dropped; other writes have no effect (R13, R14, R107, R155, R163). -/
def execRegisterWrite (f off : Nat) (v : W64) (s : State) : Out :=
  if 0x10000 ≤ off ∧ off < 0x18000 ∧ off % 0x1000 < 0x100 then
    .next (s.modQueue (off / 0x1000 % 8) fun x => { x with stage := setWord x.stage (off % 0x1000) v })
  else if off = 0x20010 then .next (if fieldNat v 63 45 = 0 then s else { s with frdrop := s.frdrop + 1 })
  else if 0x30000 ≤ off ∧ off < 0x31100 then .next (s.writePage f ((off - 0x30000) / 0x100) (off % 0x100) v)
  else if f = 0 ∧ 0x40000 ≤ off ∧ off < 0x40100 then .next { s with kstage := setWord s.kstage (off - 0x40000) v }
  else if f = 0 ∧ off = 0x50000 then .next { s with podid := v.extractLsb' 0 9 }
  else if f = 0 ∧ 0x50100 ≤ off ∧ off < 0x50300 then
    let e := (off - 0x50100) / 16
    let m : W64 := if off % 16 = 8 then 0xFF80FFFFFFFF0000 else 0xE000FFFFFFFF0000
    .next { s with admission := tabPut s.admission e (setWord (tabGet 0 s.admission e) (off % 16) (v &&& m)) }
  else .next s

/-- CQUERY: names the context whose CSTATE the page shows (R346). -/
def execCquery (f t c : Nat) (s : State) : Out :=
  .next (s.modPage f fun p => { p with cquery := BitVec.ofNat 12 (c * 512 + t % 512) })

/-- STALLED_CLEAR: by the function itself or by the physical function; a clearing write that was under way when the present
stall began does not end it (R106, R156; assumption 94). -/
def execStalledClear (f page : Nat) (s : State) : Out :=
  if f = 0 ∨ f = page then
    .next (s.modPage page fun p => if p.stale = 0 then { p with stalled := false } else { p with stale := p.stale - 1 })
  else .fault .notDue

/-- REGERR_CLEAR (R156). -/
def execRegerrClear (f page : Nat) (s : State) : Out :=
  if f = 0 ∨ f = page then .next (s.modPage page fun p => { p with regerr := false }) else .fault .notDue

/-! ### Address spaces (R160, R162) -/

/-- Whether an address space has a queued or resident launch. -/
def State.asidBusy (s : State) (a : Nat) : Bool :=
  (s.launches.any fun l => decide ((recAsid l.record).toNat = a))
    || s.queues.any fun e => e.2.recs.any fun x => decide ((recAsid x.record).toNat = a)

def asidHighMask : W64 := 0xFFFFFFFFFFFF0000
def asidLowMask : W64 := 0xFFE0FFFFFFFFF000

/-- ASID_ENTRY_WRITE by the physical function: refused while the space is in use; the entry takes effect with its low word,
and only with N in range (R160, R162). DESIGN CHOICE, assumption 100: a FUNC of 17 to 31, which no function has, is stored as
written (so is a QOWN of R157); no function owns what it names. -/
def execAsidEntryWrite (f a : Nat) (high : Bool) (v : W64) (s : State) : Out :=
  if f ≠ 0 then .fault .notDue
  else if s.asidBusy a then
    .next (if (s.page 0).regerr then s else (s.modPage 0 fun p => { p with regerr := true }).msix 0 2)
  else if high then .next { s with asidHigh := tabPut s.asidHigh a (v &&& asidHighMask) }
  else
    let low := v &&& asidLowMask
    let n := fieldNat low 57 53
    let low := if 10 ≤ n ∧ n ≤ 24 then low else low &&& 0x7FFFFFFFFFFFFFFF
    .next { s with asids := tabPut s.asids a ((tabGet 0 s.asidHigh a : W64) ++ low) }

/-! ### Invalidations (R137, R162) -/

/-- One invalidation command: which TLB entries go; none: no effect. It completes once every sector started before it has
landed. DESIGN CHOICE, assumption 98: R137 speaks of accesses that start; a k.stl or k.amo starts at its issue, where it is
translated, also while it waits for earlier accesses of its hart, and no invalidation waits for it. -/
def State.invalidate (s : State) (which : Option (TlbEntry → Bool)) : State :=
  match which with
  | none => { s with invals := s.invals ++ [{ waiting := [] }] }
  | some p =>
    let waiting := s.tiles.flatMap fun e => e.2.sectors.map fun x => x.id
    { s with
      tiles := s.tiles.map fun (e : Nat × Tile) => (e.1, { e.2 with tlb := e.2.tlb.filter fun x => !p x }),
      invals := s.invals ++ [{ waiting := waiting }] }

/-- Whether a function may invalidate an address space (R162). -/
def State.mayInvalidate (s : State) (f : Nat) (asid : W16) : Bool :=
  decide (f = 0) || (s.asidValid asid && decide (s.asidFn asid = f))

/-- INVALIDATE_PAGE: the entries of an address space whose page holds VA. -/
def execInvalidatePage (f : Nat) (asid : W16) (va : BitVec 32) (s : State) : Out :=
  .next (s.invalidate (if s.mayInvalidate f asid then some fun e => e.hits asid (va.toNat * 65536) else none))

/-- INVALIDATE_ASID: every entry of an address space. -/
def execInvalidateAsid (f : Nat) (asid : W16) (s : State) : Out :=
  .next (s.invalidate (if s.mayInvalidate f asid then some fun e => decide (e.asid = asid) else none))

/-- INVALIDATE_ALL: every entry, for the physical function only. -/
def execInvalidateAll (f : Nat) (s : State) : Out := .next (s.invalidate (if f = 0 then some fun _ => true else none))

/-- INVALIDATE_NONE: a command without effect. -/
def execInvalidateNone (_f : Nat) (s : State) : Out := .next (s.invalidate none)

/-- Whether the oldest invalidation is complete. -/
def State.invalDone (s : State) : Bool :=
  match s.invals with
  | [] => false
  | i :: _ => i.waiting.all fun id => !(s.tiles.any fun e => e.2.sectors.any fun x => decide (x.id = id))

/-- INVALIDATION_DONE: commands complete in the order written; INVDONE counts them (R137, R162). -/
def execInvalidationDone (s : State) : Out :=
  if s.invalDone then .next { s with invals := s.invals.drop 1, invdone := s.invdone + 1 } else .fault .notDue

/-! ### Keys (R164, R165) -/

/-- A key command completes: KDONE, KRES, vector 3 (R161, R164). -/
def State.keyDone (s : State) (res : Byte) : State := { s with kdone := s.kdone + 1, kres := res }.msix 0 3

/-- The two keys a blob carries: the shared secret, the wrapping key derived from it, the ciphertext opened under that; none
where a step fails (R165). -/
def unwrapKey (b : List Byte) : Option (List Byte) :=
  let part (lo n : Nat) : List Byte := (b.drop lo).take n
  match ecdh Config.keyAgreementPrivate (part 0x18 133) with
  | none => none
  | some secret =>
    gcmOpen (hkdf32 secret (part 0 24) [0x4B, 0x47, 0x4C, 0x20, 0x6B, 0x65, 0x79, 0x20, 0x77, 0x72, 0x61, 0x70]) (part 8 12)
      (part 0 160) (part 0xA0 64) (part 0xE0 16)

/-- KEY_LOAD: the blob in KSTAGE is checked and unwrapped; a failure leaves the slot as it was (R165). -/
def execKeyLoad (slot : Nat) (s : State) : Out :=
  let b := bytesOf s.kstage 256
  let part (lo n : Nat) : List Byte := (b.drop lo).take n
  let zero (lo n : Nat) : Bool := (part lo n).all fun x => decide (x = 0)
  if b.headD 0 ≠ 1 ∨ !(zero 0x14 4 && zero 0x9D 3 && zero 0xF0 16) then .next (s.keyDone 1)
  else if slot = 0 ∨ (b.getD 1 0).toNat ≠ slot then .next (s.keyDone 4)
  else
    let k := s.keySlot slot
    let gen : W32 := wordOf 32 (part 4 4)
    if gen.ule k.gen then .next (s.keyDone 3)
    else
      match unwrapKey b with
      | none => .next (s.keyDone 2)
      | some key =>
        let new : KeySlot := { key := wordOf 512 key, asid := wordOf 16 (part 2 2), gen := gen, loaded := true }
        let s : State := { s with keys := tabPut s.keys slot new }
        .next (s.keyDone 0)

/-- A slot without its key; GEN is kept (R164). -/
def State.clearKey (s : State) (slot : Nat) : State :=
  { s with keys := tabPut s.keys slot { s.keySlot slot with key := 0, loaded := false } }

/-- KEY_CLEAR (R164). -/
def execKeyClear (slot : Nat) (s : State) : Out :=
  if slot = 0 then .next (s.keyDone 4) else .next ((s.clearKey slot).keyDone 0)

end Sys2Proof.Machine
end

