-- ==== Sys2Proof/Machine/HostIf.lean ====
section
/-! DEFINITION. The PCIe port and the pod port (R101 to R108, R122, R153 to R156, R161, R167 to R169): posted writes at the
ordering point, their routes, host reads, Function Level Reset, accesses of other packages. -/

namespace Sys2Proof.Machine

/-! ### Errors at the port (R106, R161) -/

/-- A register of the configuration space that software writes, as last written (R153; assumption 86). -/
def FnPage.configReg (p : FnPage) (off : Nat) : W32 :=
  tabGet (if off = 0x10C then 0x00462030 else if off = 0x114 then 0x6000 else if off = 0x160 then 1 else 0) p.config off

/-- An error sets its status bit; unless its kind is masked it is logged through AER, which fires vector 2 of the function
(R153, R161; assumption 86). -/
def State.logAer (s : State) (f bit : Nat) : State :=
  let u := s.modPage f fun p => { p with aerStatus := p.aerStatus ||| BitVec.ofNat 32 (2 ^ bit) }
  if ((s.page f).configReg 0x108).getLsbD bit then u
  else (u.modPage f fun p => { p with aer := p.aer + 1 }).msix f 2

/-- Status bits of the Uncorrectable Error Status register: poisoned TLP or ECRC, malformed TLP, Unsupported Request,
Completer Abort. -/
def aerPoisoned : Nat := 12
def aerAbort : Nat := 15
def aerMalformed : Nat := 18
def aerUnsupported : Nat := 20

/-- A posted write of a stalled requester is discarded and counted (R106, R156). -/
def State.discardWrite (s : State) (f : Nat) : State :=
  s.modPage f fun p => { p with discard := if p.discard = 0xFFFFFFFF then p.discard else p.discard + 1 }

/-- A write of the requester's own first page word, which a stall lets pass (R156). -/
def tlpClearsStall (t : Tlp) : Bool :=
  decide (t.bar = .bar0) && decide (0x30000 + 0x100 * t.f ≤ t.addr) && decide (t.addr + t.data.length ≤ 0x30008 + 0x100 * t.f)

/-- How many writes that end a stall of function f, its own or the physical function's, have been accepted and are under way
(R156). -/
def State.stallClears (s : State) (f : Nat) : Nat :=
  let a := 0x30000 + 0x100 * f
  (s.routes.filter fun r => r.home.isNone && !r.applied && (decide (r.f = f) || decide (r.f = 0)) && decide (r.addr ≤ a)
    && (((r.data[a - r.addr]?.bind id).map fun b => b.getLsbD 0).getD false)).length

/-- A poisoned, failing or malformed TLP: discarded, its requester becomes stalled; the writes that end an earlier stall and
are still under way do not end this one (R106; DESIGN CHOICE, assumption 94). -/
def State.badTlp (s : State) (f bit : Nat) : State :=
  let n := s.stallClears f
  let s := if (s.page f).stalled then s.discardWrite f else s
  (s.modPage f fun p => { p with stalled := true, stale := n }).logAer f bit

/-- Whether a write that ends the present stall of function f has been accepted and is under way: later writes are accepted
(R156; assumption 94). -/
def State.stallEnding (s : State) (f : Nat) : Bool := decide ((s.page f).stale < s.stallClears f)

/-! ### The configuration space (R153; assumption 86) -/

/-- Vectors of a function (R153). -/
def vectorsOf (f : Nat) : Nat := if f = 0 then 8 else 4

/-- The code of a link rate, in gigatransfers per second, in Link Capabilities and Link Status. -/
def rateCode (gts : Nat) : Nat := if gts < 5 then 1 else if gts < 8 then 2 else if gts < 16 then 3 else if gts < 32 then 4
  else if gts < 64 then 5 else if gts < 128 then 6 else 7

/-- The bits of a configuration register that software writes: command, BARs of the physical function and of the virtual ones,
vectors on and off, AER mask, severity and control, SR-IOV control. -/
def configMask (f off : Nat) : W32 :=
  if off = 0x04 then 0x0546
  else if off = 0x80 then 0xC0000000
  else if off = 0x108 ∨ off = 0x10C then 0x005FF030
  else if off = 0x114 then 0x71C1
  else if off = 0x118 then 0x140
  else if f ≠ 0 then 0
  else if off = 0x10 then 0xFF000000
  else if off = 0x14 ∨ off = 0x168 then 0xFFFFFFFF
  else if off = 0x1C ∨ off = 0x170 then 0xFFFF0000
  else if off = 0x148 then 0x9
  else if off = 0x150 then 0xFFFF
  else if off = 0x160 then 0x553
  else if off = 0x164 then 0xFFFC0000
  else 0

/-- The bits of a configuration register that are fixed, or show the state of the port: the header, the PCI Express, MSI-X, AER
and, for the physical function, SR-IOV capabilities. -/
def State.configFixed (s : State) (f off : Nat) : W32 :=
  let bar (a : Nat) : W32 := if off = a then 4 else if off = a + 8 then 0xC else 0
  if off = 0 then (if f = 0 then Config.pciIds 0 else 0xFFFFFFFF)
  else if off = 0x04 then 0x00100000
  else if off = 0x08 then Config.pciIds 1
  else if off = 0x2C then Config.pciIds 2
  else if off = 0x34 then 0x40
  else if off = 0x40 then 0x00028010
  else if off = 0x44 then 0x10000005
  else if off = 0x4C then 0x107
  else if off = 0x50 then BitVec.ofNat 32 (2 ^ 16 * (rateCode s.linkRate + 16 * s.linkLanes))
  else if off = 0x80 then BitVec.ofNat 32 (0x11 + 2 ^ 16 * (vectorsOf f - 1))
  else if off = 0x84 then 0xC00
  else if off = 0x88 then 0xC80
  else if off = 0x100 then (if f = 0 then 0x14020001 else 0x00020001)
  else if off = 0x118 then 0xA0
  else if 0x11C ≤ off ∧ off < 0x12C then (if (s.page f).aer = 0 then 0 else Config.aerHeader ((s.page f).aer * 1024 + off))
  else if f ≠ 0 then 0
  else if off = 0x140 then 0x00010010
  else if off = 0x14C then 0x00100010
  else if off = 0x154 then 0x00010001
  else if off = 0x158 then Config.pciIds 3
  else if off = 0x15C then 0x553
  else bar 0x10 ||| bar 0x164

/-- A dword of the configuration space: a fixed or a written register, Device Control, AER status, the masks and pending bits of
the vectors; all others read as those of absent capabilities. -/
def State.configWord (s : State) (f off : Nat) : W32 :=
  let p := s.page f
  let bits (l : List Nat) : W32 := BitVec.ofNat 32 (sumNat (l.map fun v => 2 ^ v))
  if off = 0x48 then p.devctl.setWidth 32
  else if off = 0x104 then p.aerStatus
  else if 0xC00 ≤ off ∧ off < 0xC00 + 4 * vectorsOf f ∧ off % 4 = 0 then (if p.masked.contains ((off - 0xC00) / 4) then 1 else 0)
  else if off = 0xC80 then bits p.pending
  else s.configFixed f off ||| (p.configReg off &&& configMask f off)

/-- Device Control as written: a size code beyond 4,096 bytes leaves its field as it was (R153). -/
def devctlNew (old v : W16) : W16 :=
  let field (lo : Nat) : W16 := (if fieldNat v (lo + 2) lo ≤ 5 then v else old) &&& (7#16 <<< lo)
  field 5 ||| field 12

/-- A write of a dword of the configuration space: payload and read request sizes, a Function Level Reset, errors cleared by
ones, a vector masked or unmasked, all vectors turned on, the registers that are kept as written. -/
def State.configWrite (s : State) (f off : Nat) (v : W32) : State :=
  if off = 0x48 then
    let s := s.modPage f fun p => { p with devctl := devctlNew p.devctl (v.setWidth 16) }
    if v.getLsbD 15 then s.push [.row (.functionLevelReset f) Focus.reset] else s
  else if off = 0x104 then s.modPage f fun p => { p with aerStatus := p.aerStatus &&& ~~~v }
  else if 0xC00 ≤ off ∧ off < 0xC00 + 4 * vectorsOf f ∧ off % 4 = 0 then
    let n := (off - 0xC00) / 4
    if v.getLsbD 0 then s.modPage f fun p => { p with masked := insNat n p.masked }
    else s.push [.row (.msiXUnmask f n) Focus.reset]
  else if configMask f off = 0 then s
  else
    let s := s.modPage f fun p => { p with config := tabPut p.config off (v &&& configMask f off) }
    let p := s.page f
    if off = 0x80 ∧ p.vectorsOn then
      s.push ((p.pending.filter fun n => !p.masked.contains n).map fun n => .row (.msiXUnmask f n) Focus.reset)
    else s

/-! ### What BAR2 reaches (R30, R31, R154, R156) -/

/-- Whether function f reaches n bytes of the package space from address a. -/
def State.bar2Ok (s : State) (f a n : Nat) : Bool := s.podRange a n && (List.range n).all fun i => s.fnReaches f (a + i) 1

/-- The runs of bytes of a write by home, in order: home, first package address, bytes. -/
def State.cutHomes (s : State) : Nat → List (Option Byte) → List (Home × Nat × List (Option Byte))
  | _, [] => []
  | a, b :: l =>
    let h := s.homeOf (s.canon a)
    match s.cutHomes (a + 1) l with
    | (g, c, d) :: r => if g = h then (h, a, b :: d) :: r else (h, a, [b]) :: (g, c, d) :: r
    | [] => [(h, a, [b])]

/-! ### Holding and release (R101, R102) -/

/-- Whether an earlier write of the requester of write w is not complete. -/
def State.holdsBack (s : State) (f w : Nat) : Bool :=
  (s.writes.takeWhile fun e => decide (e.1 ≠ w)).any fun e => decide (e.2 = f)

/-- The message that carries a route to its home. -/
def Route.msg (r : Route) (h : Home) (now : Nat) : Msg :=
  { id := r.id, src := 8, home := h, clock := r.clock, sent := now, after := [], own := none, va := 0, fn := 0,
    body := .write r.addr r.data 0 (some r.write) }

/-- A write that nothing holds is released to its routes. -/
def State.releaseWrite (s : State) (w : Nat) : State :=
  { s with net := s.net ++ s.routes.filterMap fun r =>
      if r.write = w then r.home.map fun h => r.msg h s.now else none }

/-- The ordering point accepts a write with the routes given: a tick, a clock, release unless it is held (R101, R107). -/
def State.acceptWrite (s : State) (f : Nat) (l : List (Option Home × Nat × List (Option Byte))) : State :=
  let s := s.tickDie 8
  let w := s.nextId
  let routes := ((List.range l.length).zip l).map fun e =>
    ({ id := w + 1 + e.1, write := w, f := f, home := e.2.1, addr := e.2.2.1, data := e.2.2.2, clock := s.dieClock 8,
       next := 0, applied := false } : Route)
  let s : State := { s with nextId := w + 1 + l.length, writes := s.writes ++ [(w, f)], routes := s.routes ++ routes }
  if s.holdsBack f w then s else s.releaseWrite w

/-- A posted write at the port (R101, R106, R107). -/
def State.inboundWrite (s : State) (t : Tlp) : State :=
  let f := t.f
  let n := t.data.length
  if t.bar = .config then (if t.bad then s else s.configWrite f t.addr (wordOf 32 ((t.data.take 4).map fun b => b.getD 0)))
  else if t.bad then s.badTlp f aerPoisoned
  else if 4096 < n then s.badTlp f aerMalformed
  else if (s.page f).stalled ∧ !tlpClearsStall t ∧ !s.stallEnding f then s.discardWrite f
  else if n = 0 then s
  else match t.bar with
    | .bar0 =>
      if s.regOk f t.addr n && t.data.all Option.isSome then s.acceptWrite f [(none, t.addr, t.data)]
      else s.logAer f aerUnsupported
    | .bar2 =>
      if s.bar2Ok f t.addr n then s.acceptWrite f ((s.cutHomes t.addr t.data).map fun e => (some e.1, e.2))
      else s.logAer f aerUnsupported
    | .config => s

/-- Whether the ordering point must hold a write that ticks: its component's lead, or a write that it holds already (R101,
R117). -/
def State.holdsWrites (s : State) : Bool :=
  !(s.tooFar 8).isEmpty || s.pending.any fun q => match q with
    | .write _ => true
    | _ => false

/-- INBOUND_POSTED_WRITE (R101, R106, R107). -/
def execInboundPostedWrite (t : Tlp) (s : State) : Out :=
  .next (if t.bar ≠ .config ∧ s.holdsWrites then { s with pending := s.pending ++ [.write t] } else s.inboundWrite t)

/-- A write that the ordering point held passes it; the reads that its requester sent after it wait for it (R102). -/
def State.takeIn (s : State) (t : Tlp) : State :=
  let later := s.pending.dropWhile fun q => decide (q ≠ .write t)
  let u := { s with pending := s.pending.erase (.write t) }.inboundWrite t
  let new := (u.writes.map Prod.fst).filter fun w => !(s.writes.map Prod.fst).contains w
  { u with pending := u.pending.map fun q => match q with
      | .read r behind clock => if r.f = t.f ∧ later.contains q then .read r (behind ++ new) clock else q
      | q => q }

/-- The writes that the ordering point holds pass it, in order, once its component's lead allows (R101, R117). -/
def State.admitHeld : Nat → State → State
  | 0, s => s
  | n + 1, s =>
    if !(s.tooFar 8).isEmpty then s
    else match s.pending.findSome? fun q => match q with
        | .write t => some t
        | _ => none with
      | some t => State.admitHeld n (s.takeIn t)
      | none => s

/-! ### Routes (R104, R107, R108) -/

/-- Eight bytes, unit 0 to 7, of a host write that touches semaphore entry g: byte says what the whole write brings to an
offset (R108). The units act in ascending order, so ERR that bytes 16 to 19 set stays set where byte 10 of the same write
clears it; the spec gives no order of the two (DESIGN CHOICE, assumption 87). -/
def State.hostSem (s : State) (t g : Nat) (byte : Nat → Option Byte) (unit : Nat) (clock : Clock) : State :=
  let on := (List.range 64).filter fun o => (byte o).isSome
  if unit = 0 then
    if on.any fun o => decide (o < 4) then
      s.modSem t g fun x => x.store (wordOf 32 ((List.range 4).map fun i => (byte i).getD (byteOf x.target i)))
    else s
  else if unit = 1 then
    let clear := (byte 10).getD 0
    if clear = 0 then s
    else s.modSem t g fun x => { x with err := x.err && !clear.getLsbD 0, overshot := x.overshot && !clear.getLsbD 1 }
  else if unit = 2 then
    if on = [16, 17, 18, 19] then
      let v := natOfBytes ((List.range 4).map fun i => (byte (16 + i)).getD 0)
      if v = 0 then s else s.creditSem t g v clock
    else if on.any fun o => decide (16 ≤ o) && decide (o < 20) then s.modSem t g fun x => { x with err := true }
    else s
  else s

/-- Bytes n to n + k - 1 of a route, one naturally aligned 8-byte unit or less, are applied at its home (R104, R108). -/
def State.applyRoute (s : State) (h : Home) (addr : Nat) (data : List (Option Byte)) (n k : Nat) (clock : Clock) : State :=
  let s := s.writeAt h (addr + n) 0 ((data.drop n).take k) clock
  match h with
  | .tile t =>
    let a := addr - sliceAddr t 0
    if semBase ≤ a + n then
      let g := (a + n - semBase) / 64
      s.hostSem t g (fun o => if semBase + 64 * g + o < a then none else (data.getD (semBase + 64 * g + o - a) none))
        ((a + n - semBase) % 64 / 8) clock
    else s
  | _ => s

/-- The bytes of a route that its next step applies. -/
def Route.unit (r : Route) : Nat := min (8 - (r.addr + r.next) % 8) (r.data.length - r.next)

def State.markRoute (s : State) (id : Nat) : State :=
  { s with routes := s.routes.map fun r => if r.id = id then { r with applied := true } else r }

/-- Units of HBM that a route has written in whole lose their error mark (R388). -/
def State.clearRoute (s : State) (h : Home) (addr : Nat) (data : List (Option Byte)) : State := match h with
  | .stack _ => s.clearEcc (((List.range data.length).zip data).filterMap fun e => e.2.map fun _ => s.canon (addr + e.1))
  | _ => s

/-- The rows of the registers that a route writes, in order. -/
def Route.rows (r : Route) : List Work :=
  (List.range (r.data.length / 8)).flatMap fun i =>
    (regRows r.f (r.addr + 8 * i) (wordOf 64 (((r.data.drop (8 * i)).take 8).map fun b => b.getD 0))).map fun row =>
      Work.row row Focus.reset

/-- Whether a route to the register block may be applied: its write is not held. -/
def State.routeDue (s : State) (r : Route) : Bool :=
  !r.applied && match r.home with
    | none => !s.holdsBack r.f r.write
    | some _ => (s.dueMsg r.id).isSome

/-- ROUTE_APPLY: one naturally aligned 8-byte unit of a route, in ascending order; with the last the route is applied; a
register's route at once (R104, R107, R108). A route under way to a slice whose number becomes fenced is applied to that
number's stored bytes and acknowledged; the spec does not give its fate (DESIGN CHOICE, assumption 88). -/
def execRouteApply (id : Nat) (s : State) : Out :=
  match s.routes.find? fun r => decide (r.id = id) with
  | none => .fault .notDue
  | some r =>
    if !s.routeDue r then .fault .notDue
    else
      let whole (s : State) : State := (s.markRoute id).later [.row (.routeAck id) Focus.reset]
      match r.home with
      | none => .next ((whole s).push r.rows)
      | some h => match s.msg? id with
        | some m =>
          let s := s.applyRoute h r.addr r.data r.next r.unit r.clock
          if r.next + r.unit < r.data.length then
            .next { s with routes := s.routes.map fun x => if x.id = id then { x with next := x.next + r.unit } else x }
          else .next ((whole (s.clearRoute h r.addr r.data)).applied m)
        | none => .fault .notDue

/-- ROUTE_ACK: the acknowledgement reaches the ordering point; with the last one the write is complete and the requester's
next write is released (R102). -/
def execRouteAck (id : Nat) (s : State) : Out :=
  match s.routes.find? fun r => decide (r.id = id) with
  | none => .fault .notDue
  | some r =>
    if !r.applied then .fault .notDue
    else
      let s : State := { s with routes := s.routes.filter fun x => decide (x.id ≠ id) }
      if s.routes.any fun x => decide (x.write = r.write) then .next s
      else
        let s : State := { s with writes := s.writes.filter fun e => decide (e.1 ≠ r.write) }
        match s.writes.find? fun e => decide (e.2 = r.f) with
        | some e => .next (s.releaseWrite e.1)
        | none => .next s

/-! ### Host reads (R3, R105, R154) -/

/-- Whether a request waits for a read. -/
def HostReq.isRead (r : HostRead) : HostReq → Bool
  | .read x _ _ => decide (x = r)
  | _ => false

/-- A read is complete. -/
def State.completeRead (s : State) (r : HostRead) (c : Completion) : State :=
  { s with pending := s.pending.filter (fun q => !HostReq.isRead r q), completions := s.completions ++ [(r.f, r.tag, c)] }

/-- The homes of the bytes a read returns, each with the first package address there and the bytes. -/
def State.readHomes (s : State) (r : HostRead) : List (Home × Nat × Nat) :=
  (s.cutHomes r.addr (List.replicate r.len none)).map fun e => (e.1, e.2.1, e.2.2.length)

/-- Whether a home holds what is addressed to it, for a tile that moves (R40). -/
def State.holdsFor (s : State) (h : Home) : Bool := match h with
  | .tile t => s.holding.contains t
  | _ => false

/-- The writes of its requester that a read waits for, those that came before it, and the clock of the ordering point at its
arrival (R102, R117). -/
def State.heldRead (s : State) (r : HostRead) : List Nat × Clock :=
  (s.pending.findSome? fun q => match q with
    | .read x l k => if x = r then some (l, k) else none
    | _ => none).getD ((s.writes.filter fun e => decide (e.2 = r.f)).map Prod.fst, s.dieClock 8)

/-- Whether the port still holds a write that its requester sent before a read (R101, R117). -/
def State.heldBefore (s : State) (r : HostRead) : Bool :=
  (s.pending.takeWhile fun q => !HostReq.isRead r q).any fun q => match q with
    | .write t => decide (t.f = r.f)
    | _ => false

/-- Whether an earlier write of its requester holds a host read (R102). -/
def State.readHeld (s : State) (r : HostRead) : Bool :=
  s.heldBefore r || s.writes.any fun e => (s.heldRead r).1.contains e.1

/-- Whether a host read that nothing of its requester holds may be served: its homes hold nothing for a tile that moves, and
cover the clock it carries, that of the ordering point at its arrival (R40, R103, R117, R119). -/
def State.readReady (s : State) (r : HostRead) : Bool :=
  decide (r.bar ≠ .bar2) || !s.bar2Ok r.f r.addr r.len
    || (s.readHomes r).all fun h => !s.holdsFor h.1 && (s.frontier h.1).covers (s.heldRead r).2

/-- The stored byte at a package address. -/
def State.packageByte (s : State) (a : Nat) : Byte :=
  match s.locate a with
  | .slice t o => s.localByte t o
  | _ => s.hbmByte (s.canon a)

/-- A read of memory is served; an uncorrectable error answers Completer Abort (R3). DESIGN CHOICE, assumption 102: R105 and R123
give the bytes of a host read no atomicity beyond their units; all of them are taken at one moment. -/
def State.serveRead (s : State) (r : HostRead) : State :=
  let as := (List.range r.len).map fun i => r.addr + i
  let cs := as.map s.canon
  if cs.any s.eccBad then ((s.noteEcc cs).logAer r.f aerAbort).completeRead r .abort
  else
    let u := (s.readHomes r).foldl (fun (v : State) h => v.mergeDie 8 (v.readClock h.1 h.2.1 h.2.2)) s
    u.completeRead r (.data (as.map s.packageByte))

/-- A read that must wait is held at the ordering point, with the clock of its arrival. -/
def State.holdRead (s : State) (r : HostRead) : Out :=
  if s.pending.any (HostReq.isRead r) then .fault .notDue
  else .next { s with pending := s.pending ++ [.read r (s.heldRead r).1 (s.heldRead r).2] }

/-- HOST_READ (R102, R105, R154, R155): behind the earlier writes of its requester, one that ends a stall included; then it is
answered. DESIGN CHOICE, assumption 99: an Unsupported Request, or the Completer Abort of a stalled requester, is no error
that AER logs for R161; the completion itself reports it. -/
def execHostRead (r : HostRead) (s : State) : Out :=
  if r.bar = .config then .next (s.completeRead r (.data (bytesOf (s.configWord r.f r.addr) 4)))
  else if s.readHeld r then s.holdRead r
  else if (s.page r.f).stalled then .next (s.completeRead r .abort)
  else if r.len = 0 ∨ 4096 < r.len then .next (s.completeRead r .unsupported)
  else if !s.readReady r then s.holdRead r
  else match r.bar with
    | .config => .next s
    | .bar0 =>
      if s.regOk r.f r.addr r.len then
        .next (s.completeRead r (.data ((List.range (r.len / 8)).flatMap fun i => bytesOf (s.regWord (r.addr + 8 * i)) 8)))
      else .next (s.completeRead r .unsupported)
    | .bar2 => if s.bar2Ok r.f r.addr r.len then .next (s.serveRead r) else .next (s.completeRead r .unsupported)

/-! ### Functions (R161, R169) -/

/-- MSI_X_UNMASK: a pending message of the vector goes out (R161). -/
def execMsiXUnmask (f v : Nat) (s : State) : Out :=
  if vectorsOf f ≤ v then .next s
  else
  let p := s.page f
  let s := s.modPage f fun p => { p with masked := p.masked.filter (fun n => decide (n ≠ v)), pending := p.pending.filter (fun n => decide (n ≠ v)) }
  .next (if p.pending.contains v then s.msix f v else s)

/-- The records of queue q whose address space function f owns are withdrawn (R169). -/
def State.withdraw (s : State) (f q : Nat) : State :=
  let gone (x : QRec) : Bool := s.asidValid (recAsid x.record) && decide (s.asidFn (recAsid x.record) = f)
  let x := s.queue q
  let s := (x.recs.filter gone).foldl (fun (u : State) r => (u.setStatus q r.m 0xFFFFFFFF 0 3 0xFF).writeStatusWord r 0xFF) s
  let left := x.recs.filter fun r => !gone r
  let now := s.now
  s.modQueue q fun y => { y with recs := match left with
      | [] => []
      | r :: l => { r with headt := some (r.headt.getD now) } :: l }

/-- KILL of a context: a fatal stop of code 0x31 (R340, R353). -/
def State.kill (s : State) (t k : Nat) : State := s.fatal t k { s.stopRec t k 0x31 with src := 2 }

/-- FUNCTION_LEVEL_RESET: queued records are withdrawn, resident contexts end as under ABORT, key slots of the function's address
spaces are cleared, the stall ends (R156, R169). -/
def execFunctionLevelReset (f : Nat) (s : State) : Out :=
  let s := (List.range 8).foldl (fun (u : State) q => u.withdraw f q) s
  let mine := s.tiles.flatMap fun e => (e.2.ctxs.filter fun x => s.owns f e.1 x.1
    && (decide (x.2.st = .resident) || decide (x.2.st = .saving))).map fun x => (e.1, x.1)
  let s := mine.foldl (fun (u : State) x => u.kill x.1 x.2) s
  let slots := s.keys.filter fun e => e.2.loaded && s.asidValid e.2.asid && decide (s.asidFn e.2.asid = f)
  let s := slots.foldl (fun (u : State) e => u.clearKey e.1) s
  .next (s.modPage f fun p => { p with stalled := false, stale := 0 })

/-! ### The link (R153) -/

/-- PCIE_LINK_TRAINING: the link trains to a width and a rate it offers. -/
def execPcieLinkTraining (lanes gts : Nat) (s : State) : Out :=
  if [1, 2, 4, 8, 16].contains lanes && [2, 5, 8, 16, 32, 64, 128].contains gts then
    .next { s with linkLanes := lanes, linkRate := gts }
  else .fault .notDue

/-! ### The pod (R122, R167, R168) -/

/-- POD_LINK_FAILURE: a lane of the pod links of an I/O die is lost; traffic keeps to the others (R28, R168). -/
def execPodLinkFailure (io lane : Nat) (s : State) : Out :=
  if s.podDown.contains (io, lane) then .next s else .next ({ s with podDown := s.podDown ++ [(io, lane)] }).notePath

/-- Whether an access of another package is admitted (R167). -/
def State.podAdmitted (s : State) (a : PodAccess) (n : Nat) : Bool :=
  s.podValid && a.srcValid && s.podRange a.addr n && s.podAdmit a.src a.addr n a.wr.isSome

/-- Whether a read of another package may be served: its homes hold nothing for a tile that moves, and cover the clock that the
I/O die had when it admitted it (R40, R117, R119, R122). -/
def State.podReadReady (s : State) (a : PodAccess) (clock : Clock) : Bool :=
  (s.cutHomes a.addr (List.replicate a.len none)).all fun h => !s.holdsFor h.1 && (s.frontier h.1).covers clock

/-- A read of another package is served (R3, R119, R122). -/
def State.servePod (s : State) (a : PodAccess) : State :=
  let as := (List.range a.len).map fun i => a.addr + i
  if (as.map s.canon).any s.eccBad then (s.noteEcc (as.map s.canon)).podAnswer a .abort
  else
    let u := (s.cutHomes a.addr (List.replicate a.len none)).foldl
      (fun (v : State) h => v.mergeDie a.io (v.readClock h.1 h.2.1 h.2.2.length)) s
    u.podAnswer a (.data (as.map s.packageByte))

/-- The reads of other packages that waited and may be served now are served. -/
def State.servePods (s : State) : State :=
  s.pending.foldl (fun (u : State) q => match q with
    | .pod a k => if u.podReadReady a k then { u with pending := u.pending.erase (.pod a k) }.servePod a else u
    | _ => u) s

/-- A write of another package: one message a home, of the component of the I/O die that admits it; it is acknowledged with
the last one applied (R122). -/
def State.acceptPod (s : State) (a : PodAccess) (l : List Byte) : State :=
  let r := (s.cutHomes a.addr (l.map some)).foldl (fun (v : State × List Nat) e =>
    let m := v.1.send a.io e.1 (.write e.2.1 e.2.2 0 none) [] none
    (m.1, v.2 ++ [m.2])) (s, [])
  if r.2.isEmpty then r.1.podAnswer a (.data []) else { r.1 with pending := r.1.pending ++ [.podWrite a r.2] }

/-- Barrier traffic of another package: an arrival or a retirement goes to the node of this package, if it holds pod number
0; a completion to the tile of its member (R294, R295). -/
def State.podBarrier (s : State) (a : PodAccess) : PodBarrier → State
  | .arrival group launch tile ctx task count =>
    if s.isPodNode then (s.send a.io (.node 8) (.arrival (of launch group tile ctx task count false)) [] none).1 else s
  | .retired group launch tile ctx task =>
    if s.isPodNode then (s.send a.io (.node 8) (.retired (of launch group tile ctx task 0 true)) [] none).1 else s
  | .completion launch tile task report =>
    if tile < s.n0 then (s.sendQuiet a.io (.tile tile) (.completion launch 5 tile task report) [] none).1 else s
where of (launch group tile ctx task count : Nat) (gone : Bool) : Arrival :=
  { launch := launch,
    scope := 5,
    group := group,
    pkg := a.src,
    tile := tile,
    ctx := ctx,
    task := task,
    weight := 0,
    tick := s.now,
    count := count,
    retired := gone }

/-- INCOMING_POD_ACCESS: an admitted access takes the component of the I/O die that admits it; any other is refused (R122,
R167); barrier traffic passes between packages that hold pod numbers (R294). -/
def execIncomingPodAccess (a : PodAccess) (s : State) : Out :=
  match a.barrier with
  | some b => .next (if s.podValid && a.srcValid then s.podBarrier a b else s)
  | none =>
    let n := match a.wr with
      | some l => l.length
      | none => a.len
    if !s.podAdmitted a n then .next (s.podAnswer a .unsupported)
    else match a.wr with
      | some l => .next (s.acceptPod a l)
      | none =>
        let k := s.dieClock a.io
        .next (if s.podReadReady a k then s.servePod a else { s with pending := s.pending ++ [.pod a k] })

end Sys2Proof.Machine
end

