-- ==== Sys2Proof/Machine/SaveArea.lean ====
section
/-! DEFINITION. The save area (R317, R344, R345, R348, R352): the bytes of its sections from a context's state, the state from
its bytes, and its header. -/

namespace Sys2Proof.Machine

/-! ### Bytes and words -/

def word8 (v : W64) : List Byte := bytesOf v 8
def words8 (l : List W64) : List Byte := l.flatMap word8
def padTo (n : Nat) (l : List Byte) : List Byte := l ++ List.replicate (n - l.length) 0
def laneBytes (l : Lanes) : List Byte := l.toList.flatMap fun w => bytesOf w 4
def maskBytes (m : Mask) : List Byte := bytesOf m 16
def part (l : List Byte) (o n : Nat) : List Byte := (l.drop o).take n
def wordAt (l : List Byte) (o : Nat) : W64 := wordOf 64 (part l o 8)
def half (l : List Byte) (o : Nat) : W32 := wordOf 32 (part l o 4)
def lanesFrom (l : List Byte) (o : Nat) : Lanes := lanesOf fun i => half l (o + 4 * i)

/-! ### Replay entries (R319, R345) -/

/-- KIND of an item; a result of a memory slot counts as load data, one of the X slot is of the row-statistics engine
(R319, R345). -/
def Item.code (i : Item) : Nat := match i.kind with
  | .vec _ _ _ _ _ => if 6 ≤ i.slot then 4 else if i.slot = 5 then 7 else 1
  | .pred _ _ _ _ => 2
  | .scalar _ _ _ | .flag _ _ | .addr _ _ => 3
  | .load _ _ _ _ _ | .store _ _ _ | .spill _ _ _ _ _ | .spillOut _ _ _ _ _ _ _ _ | .fmtC _ _ => 5
  | .credit _ _ _ _ | .arm _ _ _ => 6
  | _ => 7

def Target.code : Target → Nat
  | .v n => n
  | .o n => 96 + n
  | .p n | .s n | .k n | .a n => n
  | .latchOnly => 127

/-- TARGET of an item. -/
def Item.target (i : Item) : Nat := match i.kind with
  | .vec t _ _ _ _ | .scalar t _ _ | .load t _ _ _ _ => t.code
  | .pred n _ _ _ | .flag n _ | .addr n _ => n
  | .mzero a | .accPending a _ | .busy _ a | .window _ a _ _ => a
  | _ => 0

def insReplay (a : Item) : List Item → List Item
  | [] => [a]
  | b :: l => if b.due < a.due ∨ (b.due = a.due ∧ b.slot ≤ a.slot) then b :: insReplay a l else a :: b :: l

/-- The entries of a replay buffer, in order of OFFSET, then slot: one an instruction in flight (R319, R345). -/
def replayEntries (l : List Item) : List (List Item) :=
  let s := l.foldl (fun m i => insReplay i m) []
  (s.filter fun i => (s.find? fun j => j.sameOp i) = some i).map fun i => s.filter fun j => j.sameOp i

/-- The item an entry's header speaks of: the engine operation, else the first. -/
def entryItem (l : List Item) : Option Item := match l.find? fun i => decide (i.code = 7) with
  | some i => some i
  | none => l.head?

/-- A lane mask, 128 addresses of 4 bytes and data of 128 lanes or of none (R345). -/
def accessPayload (m : Mask) (addr : Nat → Nat) (data : List Byte) : List Byte :=
  maskBytes m ++ (List.range 128).flatMap (fun n => bytesOf (BitVec.ofNat 32 (if m.getLsbD n then addr n else 0)) 4) ++ data

/-- The groups that the windows of an operation hold open, a bit each (R305, R319). -/
def windowGroups (l : List Item) : Nat :=
  let open' := l.flatMap fun j => match j.kind with
    | .window g _ _ _ => g
    | _ => []
  sumNat ((List.range 4).map fun g => if open'.contains g then 2 ^ g else 0)

/-- The payload of an entry of an engine operation: the instruction word, the profile, the offsets of its occupancy, window
and landing, the groups of its windows, whether its accumulator is pending, the format-pair entry; then its intermediate state,
which is opaque: free values (R319; assumption 18). -/
def enginePayload (free : Nat) (l : List Item) (i : Item) : List Byte :=
  let due (p : ItemKind → Bool) : Nat := ((l.find? fun j => p j.kind).map Item.due).getD 0
  let acc := l.findSome? fun j => match j.kind with
    | .accPending _ d => some d
    | _ => none
  let busy := due fun k => match k with
    | .busy _ _ => true
    | _ => false
  let window := due fun k => match k with
    | .window _ _ _ _ => true
    | _ => false
  let last := l.foldl (fun m j => max m j.due) 0
  padTo 32 (bytesOf i.word 4 ++ bytesOf (BitVec.ofNat 32 ((acc.map AccData.prof).getD 0)) 4 ++ bytesOf (BitVec.ofNat 32 busy) 4
      ++ bytesOf (BitVec.ofNat 32 window) 4 ++ bytesOf (BitVec.ofNat 32 last) 4
      ++ [BitVec.ofNat 8 (windowGroups l), if acc.isSome then 1 else 0])
    ++ bytesOf (((acc.map AccData.fmt).getD 0).setWidth 640) 80 ++ (List.range 16).map fun n => Config.savePayload (free + n)

/-- The payload of an entry; where the spec calls it opaque or gives no layout the bytes are free values (assumption 18). -/
def entryPayload (free : Nat) (l : List Item) (i : Item) : List Byte :=
  if i.code = 7 then enginePayload free l i
  else match i.kind with
  | .vec _ m d _ f => maskBytes m ++ laneBytes d ++ padTo 16 [f.setWidth 8]
  | .load _ m as _ _ => accessPayload m (fun n => ((as.find? fun a => decide (a.1 = n)).map Prod.snd).getD 0) []
  | .store m cells size =>
    let lanes := (List.range 128).filter fun n => m.getLsbD n
    let cell (n : Nat) : Nat × W64 := (((lanes.zip cells).find? fun e => decide (e.1 = n)).map Prod.snd).getD (0, 0)
    accessPayload m (fun n => (cell n).1)
      (if size = 8 then padTo 16 (word8 (cell 0).2) else (List.range 128).flatMap fun n => bytesOf (cell n).2 4)
  | .spill va m d _ fill => accessPayload m (fun n => va + 4 * n) (if fill then [] else laneBytes d)
  | .spillOut _ a _ _ m _ _ _ => accessPayload m (fun n => a + 4 * n) []
  | .fmtC _ a => accessPayload (maskOf fun n => decide (n < 16)) (fun n => a + 4 * n) []
  | _ => (List.range 16).map fun n => Config.savePayload (free + n)

/-- An entry of section 8. -/
def entryBytes (free : Nat) (l : List Item) : List Byte := match entryItem l with
  | none => []
  | some i =>
    let p := entryPayload free l i
    let first := match l.head? with
      | some f => f.due
      | none => i.due
    let head : BitVec 128 := BitVec.ofNat 32 p.length ++ BitVec.ofNat 32 first ++ BitVec.ofNat 13 i.baddr ++ BitVec.ofNat 3 i.slot
      ++ (0 : BitVec 8) ++ BitVec.ofNat 8 i.code ++ BitVec.ofNat 32 i.target
    bytesOf head 16 ++ p

/-! ### Queues (R348) -/

/-- The 64-byte head of a queue block. -/
def queueHead (k : Counts) (size occ : Nat) : List Byte :=
  padTo 64 (words8 [k.issued, k.retired, k.fence, k.tlsum, k.timeline]
    ++ [BitVec.ofNat 8 (k.retired.toNat % size), BitVec.ofNat 8 (k.issued.toNat % size), BitVec.ofNat 8 occ])

/-- A 128-byte slot of a copy channel or of the stack queue. -/
def Entry.slotBytes (e : Entry) : List Byte :=
  let state : Nat := if e.parked.isSome then 1 else if e.landed.isEmpty && decide (e.next = 0) then 0 else 2
  let at' := match e.parked with
    | some p => p.1
    | none => e.doneBelow
  padTo 128 (bytesOf e.packet 64 ++ bytesOf (BitVec.ofNat 32 state) 4 ++ bytesOf (BitVec.ofNat 32 at') 4
    ++ bytesOf ((lbMask e.landed at').setWidth 32) 4 ++ bytesOf (e.parkSeq.getD 0) 4)

/-- A queue block: each entry stands in the slot of its ordinal. -/
def queueBlock (k : Counts) (size width : Nat) (l : List (Nat × List Byte)) : List Byte :=
  queueHead k size l.length ++ (List.range size).flatMap fun n =>
    match l.find? fun e => decide (e.1 % size = n) with
    | some e => e.2
    | none => List.replicate width 0

def Ctx.chanBlock (x : Ctx) (q : Nat) : List Byte :=
  queueBlock (x.count q) (queueSize q) 128 ((x.chan q).map fun e => (e.ord, e.slotBytes))

/-! ### Stop records (R344) -/

def Stop.bits (r : Stop) : Rec64 :=
  BitVec.ofNat 64 r.tick ++ r.arg ++ r.addr ++ r.word ++ r.pc ++ (0 : BitVec 128) ++ r.asid ++ BitVec.ofNat 9 r.tile
    ++ BitVec.ofNat 3 r.ctx ++ (0 : BitVec 4) ++ BitVec.ofNat 13 r.baddr ++ BitVec.ofNat 3 r.slot ++ r.done
    ++ BitVec.ofNat 8 r.reason ++ BitVec.ofNat 8 r.code ++ (0 : BitVec 6) ++ (if r.sec then 1 else 0 : BitVec 1)
    ++ (if r.late then 1 else 0 : BitVec 1) ++ (0 : BitVec 14) ++ BitVec.ofNat 2 r.src

def stopBytes (r : Option Stop) : List Byte := match r with
  | some x => bytesOf x.bits 64
  | none => List.replicate 64 0

/-! ### The sections (R352) -/

/-- Section 0: the hart. -/
def Hart.bytes (h : Hart) : List Byte :=
  padTo 512 (words8 (((List.range 31).map fun n => tabGet 0 h.x (n + 1))
    ++ [h.pc, h.fhandler, h.fepc, h.faddr, (if h.fin then 1 else 0), h.fpcw.setWidth 64, h.fflags.setWidth 64,
        BitVec.ofNat 64 h.pause, BitVec.ofNat 64 (h.savedDeadline.getD 0), (if h.abandoned then 1 else 0)]))

def Hart.load (h : Hart) (b : List Byte) : Hart :=
  let w (n : Nat) : W64 := wordAt b (8 * n)
  { h with
    x := (List.range 31).map fun n => (n + 1, w n), pc := w 31, fhandler := w 32 &&& 0xFFFE, fepc := w 33 &&& 0xFFFE, faddr := w 34,
    fin := (w 35).getLsbD 0, fpcw := fpcwBits ((w 36).setWidth 32), fflags := (w 37).setWidth 5, pause := (w 38).toNat % 4096,
    savedDeadline := if w 39 = 0 then none else some (w 39).toNat, abandoned := (w 40).getLsbD 0 }

def bytes16 (n : Nat) : List Byte := bytesOf (BitVec.ofNat 16 n) 2

def Phase.code : Phase → Nat
  | .prologue => 0
  | .kernel => 1
  | .epilogue => 2
  | .done => 3

def phaseOf (n : Nat) : Phase := if n = 0 then .prologue else if n = 1 then .kernel else if n = 2 then .epilogue else .done

def stepCode : Option Bool → Nat
  | none => 0
  | some false => 1
  | some true => 2

def stepOf (n : Nat) : Option Bool := if n = 0 then none else some (decide (n = 2))

/-- The loop state and the bundles left in the armed window, bytes 912 to 959 of section 1: the spec names its parts and
gives no layout; this one is the model's (R352; assumption 18). -/
def Bun.loopBytes (b : Bun) : List Byte :=
  let l := b.loop
  padTo 48 ([BitVec.ofNat 8 l.phase.code, BitVec.ofNat 8 ((if l.yielded then 1 else 0) + (if l.firstClk.isSome then 2 else 0))]
    ++ bytes16 l.pos ++ (List.range 5).flatMap (fun n => bytes16 (l.idx.getD n 0)) ++ bytesOf (BitVec.ofNat 40 l.k) 5
    ++ [BitVec.ofNat 8 l.rrb, BitVec.ofNat 8 (sumNat ((List.range 8).map fun e => if l.pend.contains e then 2 ^ e else 0)),
        BitVec.ofNat 8 l.steps.length]
    ++ (List.range 6).map (fun n => BitVec.ofNat 8 (((l.steps[n]?).map stepCode).getD 0))
    ++ bytesOf (BitVec.ofNat 64 (l.firstClk.getD 0)) 8 ++ bytes16 b.armed)

/-- The loop state that such bytes stand for; bytes that a save wrote stand for the state they were made from. -/
def Bun.loadLoop (b : Bun) (l : List Byte) : Bun :=
  let n (o k : Nat) : Nat := natOfBytes (part l o k)
  if l = b.loopBytes then b
  else
    { b with
      loop :=
        { phase := phaseOf (n 0 1), pos := n 2 2, idx := (List.range 5).map fun i => n (4 + 2 * i) 2, k := n 14 5, rrb := n 19 1 % 32,
          pend := (List.range 8).filter fun e => (n 20 1).testBit e,
          steps := (List.range (min 6 (n 21 1))).map fun i => stepOf (n (22 + i) 1),
          firstClk := if (n 1 1).testBit 1 then some (n 28 8) else none, yielded := (n 1 1).testBit 0 },
      armed := n 36 2 }

/-- Section 1: scalar, address and predicate registers, flags, counters, the loop state; p0 is all ones, k0 is one. -/
def Bun.scalarBytes (b : Bun) : List Byte :=
  words8 ((List.range 63).map fun n => tabGet 0 b.s (n + 1)) ++ List.replicate 8 0
    ++ (List.range 16).flatMap (fun n => bytesOf (tabGet 0 b.a n) 4) ++ padTo 64 [b.k ||| 1]
    ++ (List.range 16).flatMap (fun n => maskBytes (if n = 0 then Mask.full else tabGet 0 b.p n))
    ++ word8 (if b.wcols then 1 else 0) ++ word8 b.srCount ++ b.loopBytes
    ++ padTo 64 (word8 b.icount)

def Bun.loadScalar (b : Bun) (l : List Byte) : Bun :=
  { b.loadLoop (part l 912 48) with
    s := (List.range 63).map fun n => (n + 1, wordAt l (8 * n)), a := (List.range 16).map fun n => (n, half l (512 + 4 * n)),
    k := ((l.getD 576 0) ||| 1), p := (List.range 16).map fun n => (n, if n = 0 then Mask.full else wordOf 128 (part l (640 + 16 * n) 16)),
    wcols := (wordAt l 896).getLsbD 0, srCount := wordAt l 904, icount := wordAt l 960 }

def Bun.latchBytes (b : Bun) (n : Nat) : List Byte := match tabGet? b.latch n with
  | some x => if x.seg ≠ b.seg then List.replicate 512 0
      else if n < 2 then padTo 512 (word8 x.wide) else laneBytes x.lanes
  | none => List.replicate 512 0

def Bun.loadLatch (b : Bun) (l : List Byte) (n : Nat) : Latch :=
  let w := wordAt l (512 * n)
  if n < 2 then { seg := b.seg, lanes := lanesOf fun _ => w.setWidth 32, wide := w }
  else { seg := b.seg, lanes := lanesFrom l (512 * n), wide := 0 }

/-- Units that a save holds: those with a KIND (R318). -/
def Bun.savedUnits (b : Bun) : List Nat := (List.range 20).filter fun u => decide (b.kindOf u ≠ 0)

def Bun.unitBytes (b : Bun) : List Byte :=
  padTo 64 ((List.range 20).map fun u => BitVec.ofNat 8 (b.kindOf u))
    ++ b.savedUnits.flatMap fun u => (b.unitOf u).flatMap fun w => bytesOf w 4

def Bun.loadUnits (b : Bun) (l : List Byte) : Bun :=
  let kinds := (List.range 20).map fun u => (u, (l.getD u 0).toNat % 4)
  let used := (kinds.filter fun e => decide (e.2 ≠ 0)).map Prod.fst
  { b with
    kind := kinds.filter fun e => decide (e.2 ≠ 0),
    unit := ((List.range used.length).zip used).map fun e =>
      (e.2, (List.range 4096).map fun i => half l (64 + 16384 * e.1 + 4 * i)) }

def Bun.usedSides (b : Bun) : List Nat := [0, 1].filter fun x => b.exactUsed x

def Side.saveBytes (x : Side) : List Byte :=
  padTo 4096 x.bytes ++ padTo 64 [BitVec.ofNat 8 ((if x.ovf then 2 else 0) + (if x.loss then 1 else 0))]

def Bun.loadSides (b : Bun) (l : List Byte) : Bun :=
  { b with side := ((List.range b.usedSides.length).zip b.usedSides).map fun e =>
      let o := 4160 * e.1
      (e.2, { bytes := (part l o 4096).map fun x => x &&& 0x1F, loss := (l.getD (o + 4096) 0).getLsbD 0, ovf := (l.getD (o + 4096) 0).getLsbD 1 }) }

/-- Bytes of section n of a context, as a save area and the debugger show them (R352). -/
def State.secBytes (s : State) (t k n : Nat) : List Byte :=
  let x := s.ctx t k
  let b := x.bun
  let r := s.recOf t k
  match n with
  | 0 => x.hart.bytes
  | 1 => b.scalarBytes
  | 2 => (List.range (16 * recWin r)).flatMap fun i => laneBytes (tabGet Lanes.zero b.v i)
  | 3 => (List.range 8).flatMap fun i => laneBytes (tabGet Lanes.zero b.o i)
  | 4 => (List.range 8).flatMap b.latchBytes
  | 5 => b.unitBytes
  | 6 => b.usedSides.flatMap fun i => (b.sideOf i).saveBytes
  | 7 => (List.range 16).flatMap fun i => padTo 128 (bytesOf ((tabGet 0 b.fmt i).setWidth 640) 80)
  | 8 => (replayEntries x.replay).flatMap (entryBytes s.free)
  | 9 => queueBlock (x.count 4) 16 64 (x.runs.map fun e => (e.ord, bytesOf e.desc 64))
  | 10 => [0, 1, 2, 3].flatMap x.chanBlock
  | 11 => x.chanBlock 5
  | 12 =>
    let map (l : List W32) : List Byte := (List.range 32).map fun i =>
      BitVec.ofNat 8 ((List.range 8).foldl (fun a j => a + (if l.any fun q => decide (q.toNat % 256 = 8 * i + j) then 2 ^ j else 0)) 0)
    map x.retryMap ++ map x.abortMap
  | 13 => if recHotVa r = 0 then [] else (List.range 256).flatMap fun i =>
      let e := tabGet ((0, 0) : W64 × W64) x.hot i
      word8 e.1 ++ word8 e.2
  | 14 => stopBytes x.stop ++ stopBytes x.secondary
  | _ => s.localBytes t (s.carve t k).1 (recCarveSize r)

/-- The state of a context with the bytes of section n, n = 0 to 7 or 13. -/
def Ctx.loadSec (x : Ctx) (n : Nat) (l : List Byte) : Ctx :=
  let b := x.bun
  match n with
  | 0 => { x with hart := x.hart.load l }
  | 1 => { x with bun := b.loadScalar l }
  | 2 => { x with bun := { b with v := (List.range (l.length / 512)).map fun i => (i, lanesFrom l (512 * i)) } }
  | 3 => { x with bun := { b with o := (List.range 8).map fun i => (i, lanesFrom l (512 * i)) } }
  | 4 => { x with bun := { b with latch := (List.range 8).map fun i => (i, b.loadLatch l i) } }
  | 5 => { x with bun := b.loadUnits l }
  | 6 => { x with bun := b.loadSides l }
  | 7 => { x with bun := { b with fmt := (List.range 16).map fun i => (i, (wordOf 640 (part l (128 * i) 80)).setWidth 586) } }
  | 13 => { x with hot := (List.range 256).map fun i => (i, (wordAt l (16 * i), wordAt l (16 * i + 8))) }
  | _ => x

/-- Replace 8 bytes of a section. -/
def patchBytes (l : List Byte) (o : Nat) (v : W64) : List Byte := l.take o ++ word8 v ++ l.drop (o + 8)

/-! ### The area (R347, R352) -/

/-- The bytes of the sections of a save, or of a dump. -/
def State.sections (s : State) (t k : Nat) (dump : Bool) : List (List Byte) :=
  (List.range 16).map fun n => if n = 15 ∧ !dump then [] else s.secBytes t k n

/-- DIR: offset and size of each section. -/
def dirOf : Nat → List (List Byte) → List (Nat × Nat)
  | _, [] => []
  | o, l :: r =>
    if l.isEmpty then (0, 0) :: dirOf o r else (o, l.length) :: dirOf (o + roundUp64 l.length) r

/-- What the header says of a save or a dump. -/
structure AreaHead where
  clock : Clock
  tick : Nat
  delay : Nat
  state : Nat
  code : Nat
  done : Byte
  baddr : Nat
  secn : Nat

/-- The 256-byte header. -/
def State.headerBytes (s : State) (t k : Nat) (h : AreaHead) (secs : List (List Byte)) : List Byte :=
  let x := s.ctx t k
  let dir := dirOf 256 secs
  let size := 256 + sumNat (secs.map fun l => roundUp64 l.length)
  let low : BitVec 64 := 1
  let w480 : BitVec 64 := BitVec.ofNat 16 (s.asidOf t k).toNat ++ BitVec.ofNat 9 t ++ BitVec.ofNat 3 x.num ++ BitVec.ofNat 4 h.state
    ++ BitVec.ofNat 8 h.code ++ h.done ++ BitVec.ofNat 13 h.baddr ++ (0 : BitVec 1) ++ BitVec.ofNat 2 h.secn
  words8 ([low] ++ List.replicate 6 0 ++ [w480, x.lost ++ BitVec.ofNat 32 size]
      ++ dir.map fun e => (BitVec.ofNat 32 e.2 ++ BitVec.ofNat 32 e.1 : W64))
    ++ word8 (BitVec.ofNat 64 h.delay) ++ word8 (BitVec.ofNat 64 h.tick) ++ h.clock.toList.flatMap fun w => bytesOf w 4

/-- The whole area: header and sections, each padded to 64 bytes. -/
def areaBytes (head : List Byte) (secs : List (List Byte)) : List Byte :=
  head ++ secs.flatMap fun l => padTo (roundUp64 l.length) l

/-- The addresses of bytes of a destination that share a key-protected unit the write covers in part and that has an
uncorrectable error: the unit must be read first (R3, R149, R354). -/
def State.partlyBad (s : State) (d : Dest) (n : Nat) : Bool :=
  match d with
  | .hbm a key => decide (key ≠ 0) && (List.range n).any fun i =>
      s.eccBad (a + i) && !((List.range 64).all fun j => decide (a ≤ (a + i) / 64 * 64 + j) && decide ((a + i) / 64 * 64 + j < a + n))
  | .host _ => false

/-- Bytes for a virtual address of context k leave through the copy engine of tile t as posted writes (R35, R347); after: what
must be performed first. The numbers of the writes; none at a fault. -/
def State.writeVa (s : State) (t k va : Nat) (l : List Byte) (after : List Nat) : Nat → State × Option (List Nat)
  | 0 => (s, some [])
  | fuel + 1 =>
    if l.isEmpty then (s, some [])
    else
      let n := min l.length (2048 - va % 2048)
      match s.translate t (s.asidOf t k) (BitVec.ofNat 64 va) ⟨false, true, false⟩ with
      | (s, .error _) => (s, none)
      | (s, .ok d) =>
        if s.partlyBad d n then (s, none)
        else
          let r := s.postBytes t k d (l.take n) none after
          match r.1.writeVa t k (va + n) (l.drop n) after fuel with
          | (s, some ids) => (s, some (r.2 :: ids))
          | (s, none) => (s, none)

/-- The header's place: bundle at which the context resumes or stopped. -/
def Ctx.resumeBundle (x : Ctx) : Nat := x.reissue.elim x.nextAddr Prod.fst

end Sys2Proof.Machine
end

