-- ==== Sys2Proof/Machine/Replies.lean ====
section
/-! DEFINITION. Fault replies (R141, R163, R326, R351), departed channel sets (R348), and the watchdog (R355). -/

namespace Sys2Proof.Machine

/-! ### An access of a hart that restarts (R72, R73, R141) -/

/-- What a parked access needs of its page. -/
def bodyNeed : Body → Need
  | .write _ _ _ _ => ⟨false, true, false⟩
  | .atomic _ _ _ _ _ _ _ => ⟨false, true, true⟩
  | _ => ⟨true, false, false⟩

def State.modParked (s : State) (t c : Nat) (f : List ParkedAccess → List ParkedAccess) : State :=
  s.modCtx t c fun x => { x with parkedHart := f x.parkedHart }

/-- The access leaves for its home under its own number; one that writes is a release and waits for the hart's earlier
accesses and for the writes it has acquired (R73, R74; assumption 22), and then ticks when it leaves. -/
def State.resend (s : State) (t c : Nat) (p : ParkedAccess) (d : Dest) : State :=
  let h := s.destHome d
  let src := s.dieOf t
  let reads : Bool := match p.msg with
    | .read _ _ _ _ => true
    | _ => false
  let after := if reads = true then [] else (s.outstanding t c ++ s.unperformedAcquired t c 6).filter (fun id => decide (id < p.id)) ++ s.tooFar src
  let s := s.modParked t c fun l => l.filter fun q => decide (q.id ≠ p.id)
  let s := if reads || !after.isEmpty then s else s.tickDie src
  { s with net := s.net ++ [{ s.newMsg src h.1 (p.msg.atAddr h.2.1 h.2.2) after (some (t, c)) p.va with id := p.id }] }

/-- A parked access is translated afresh: it leaves, or parks anew with a record of its own (R141). -/
def State.retryHart (s : State) (t c : Nat) (p : ParkedAccess) : State :=
  if !(s.hart t c).outst.contains p.id then s.modParked t c fun l => l.filter fun q => decide (q.id ≠ p.id)
  else
    match s.translate t (s.asidOf t c) p.va (bodyNeed p.msg) with
    | (s, .ok d) => s.resend t c p d
    | (s, .error f) =>
      let r : FaultRec := { arg := 0, lbmask := 0, sector := 0, va := p.va, wr := p.write, queue := 4, reason := f.reason, code := f.code }
      match s.park t c r 1 with
      | (s, some q) => s.modParked t c fun l => l.map fun x =>
          if x.id = p.id then { x with seq := q, code := f.code, reason := f.reason } else x
      | (s, none) => s

/-! ### One reply -/

/-- A parked fault, by the number of its record: its queue and entry, or a hart access. -/
inductive ParkedAt
  | entry (ch ord : Nat) (f : PFault)
  | hart (p : ParkedAccess)

/-- What a context has parked under a record number. -/
def Ctx.parkedAt (x : Ctx) (seq : W32) : Option ParkedAt :=
  match x.parkedHart.find? fun p => decide (p.seq = seq) with
  | some p => some (.hart p)
  | none => x.chans.findSome? fun e => e.2.findSome? fun n =>
      match n.parked with
      | some (_, f) => if n.parkSeq = some seq then some (.entry e.1 n.ord f) else none
      | none => none

/-- The fault a context has parked is no longer outstanding. -/
def State.settle (s : State) (t c : Nat) (seq : W32) : State :=
  s.modCtx t c fun x =>
    { x with parkedSeqs := x.parkedSeqs.filter (fun q => decide (q ≠ seq)), retryMap := x.retryMap.filter (fun q => decide (q ≠ seq)),
             abortMap := x.abortMap.filter fun q => decide (q ≠ seq) }

/-- A copy or stack command restarts at its first sector that has not landed (R141). DESIGN CHOICE, assumption 76: the spec's
landed-beyond mask ends at sector k + 16; a sector beyond that has landed is not started again either. -/
def Entry.resume (e : Entry) : Entry :=
  match e.parked with
  | some (n, _) => { e with parked := none, parkSeq := none, next := n }
  | none => e

/-- RETRY of a parked fault: it restarts, translating afresh (R141). -/
def State.serveRetry (s : State) (t c : Nat) (seq : W32) : State :=
  let x := s.ctx t c
  let s := s.settle t c seq
  match x.parkedAt seq with
  | some (.entry ch ord _) => s.modEntry t c ch ord Entry.resume
  | some (.hart p) => s.retryHart t c p
  | none => s

/-- ABORT of a parked fault: the context takes the recorded code as a fatal fault (R141). -/
def State.serveAbort (s : State) (t c : Nat) (seq : W32) : State :=
  let x := s.ctx t c
  let s := s.settle t c seq
  match x.parkedAt seq with
  | some (.entry _ _ f) => s.fatal t c { s.stopRec t c f.code with addr := f.va, reason := f.reason, src := 2 }
  | some (.hart p) => s.fatal t c { s.stopRec t c p.code with addr := p.va, reason := p.reason, src := 1, pc := (s.hart t c).pc, word := s.pcWord t c }
  | none => s

/-- The context of number n that a reply of function f with a record number is for (R163). -/
def State.replyTo (s : State) (f t n : Nat) (seq : W32) : Option Nat :=
  ((s.tile t).ctxs.find? fun e => decide (e.2.num = n) && s.owns f t e.1 && e.2.parkedSeqs.contains seq
    && !e.2.retryMap.contains seq && !e.2.abortMap.contains seq).map Prod.fst

/-- Section 12 of a saved context's area is written by the copy engine (R351). -/
def State.writeMaps (s : State) (t k : Nat) : State :=
  let dir := dirOf 256 (s.sections t k false)
  let l := s.secBytes t k 12
  (s.writeVa t k ((s.ctx t k).area + (dir.getD 12 (0, 0)).1) l [] (l.length + 1)).1

/-- A reply sets its bit in a map of the context (R351). -/
def Ctx.noteReply (x : Ctx) (seq : W32) (abort : Bool) : Ctx :=
  if abort then { x with abortMap := x.abortMap ++ [seq] } else { x with retryMap := x.retryMap ++ [seq] }

/-- Whether record seq is of a parked entry of a queue, not of an access of the hart. -/
def Ctx.entryParked (x : Ctx) (seq : W32) : Bool := match x.parkedAt seq with
  | some (.entry _ _ _) => true
  | _ => false

/-- A reply for a context that is saved or being saved: its bit is set in section 12. An ABORT of an entry whose set is still at
the tile acts at once; any other reply waits until its context is resident again (R141, R325, R351). -/
def State.replySaved (s : State) (t k : Nat) (seq : W32) (abort : Bool) : State :=
  let x := s.ctx t k
  let s := (s.modCtx t k fun x => x.noteReply seq abort).writeMaps t k
  if abort ∧ x.entryParked seq ∧ (x.departed ∨ x.st = .saving) then (s.serveAbort t k seq).modCtx t k fun x => x.noteReply seq abort else s

/-- A reply to a fault of function f's context; one that finds no outstanding fault is dropped (R141, R163, R351). -/
def State.reply (s : State) (f t n : Nat) (seq : W32) (abort : Bool) : State :=
  match s.replyTo f t n seq with
  | none => { s with frdrop := s.frdrop + 1 }
  | some k =>
    if (s.ctx t k).st = .saved ∨ (s.ctx t k).st = .saving then s.replySaved t k seq abort
    else if abort then s.serveAbort t k seq
    else s.serveRetry t k seq

/-- FAULT_REPLY_RETRY (R141, R163). -/
def execFaultReplyRetry (f t c : Nat) (seq : W32) (s : State) : Out := .next (s.reply f t c seq false)

/-- FAULT_REPLY_ABORT (R141, R163). -/
def execFaultReplyAbort (f t c : Nat) (seq : W32) (s : State) : Out := .next (s.reply f t c seq true)

/-! ### Restart after a save or a move (R326) -/

/-- The record numbers of what a context has parked, in queue order. -/
def Ctx.parkedOrder (x : Ctx) : List W32 :=
  let of (ch : Nat) : List W32 := (x.chan ch).filterMap fun e => e.parkSeq
  of 0 ++ of 1 ++ of 2 ++ of 3 ++ (x.parkedHart.map fun p => p.seq) ++ of 5

/-- The parked entries whose replies have come are served in queue order; an ABORT ends the restart (R326). -/
def State.serveMaps (s : State) (t c : Nat) : List W32 → State
  | [] => s
  | q :: l =>
    let x := s.ctx t c
    if x.abortMap.contains q then s.serveAbort t c q
    else if x.retryMap.contains q then (s.serveRetry t c q).serveMaps t c l
    else s.serveMaps t c l

/-- CONTEXT_RESTART: parked entries first; the replay buffer re-enters with the context's first bundle, the hart issues at
its saved pc (R326, R345). -/
def State.restart (s : State) (t c : Nat) : State :=
  let clk := (s.tile t).clk
  let s := s.modCtx t c fun x => { x with st := .resident, departed := false, area := 0, waitClk := 0, heldSince := none, heldReported := 0 }
  let s := s.modHart t c fun h => { h with readyAt := 0, regAt := [], nextAt := clk }
  s.serveMaps t c (s.ctx t c).parkedOrder

/-! ### Departed sets (R348) -/

/-- Whether no entry of a queue can progress: it is empty, or stands behind a parked entry. -/
def stuck (ch : Nat) (l : List Entry) : Bool :=
  l.isEmpty || (l.any (fun e => e.parked.isSome && e.parkSeq.isSome) && (workingEntry ch l).isNone)

/-- Whether the departed set of a context may be freed. -/
def State.setStuck (s : State) (t k : Nat) : Bool :=
  let x := s.ctx t k
  decide (x.st = .saved) && x.departed && decide (s.inflight t k = 0) && [0, 1, 2, 3, 5].all fun ch => stuck ch (x.chan ch)

/-- DEPARTED_SET_FLUSH: the remaining entries go into sections 10 and 11 of the area and the set is freed (R348). -/
def execDepartedSetFlush (t k : Nat) (s : State) : Out :=
  if !s.setStuck t k then .fault .notDue
  else
    let dir := dirOf 256 (s.sections t k false)
    let l := s.secBytes t k 10 ++ s.secBytes t k 11
    let s := (s.writeVa t k ((s.ctx t k).area + (dir.getD 10 (0, 0)).1) l [] (l.length + 1)).1
    .next (s.modCtx t k fun x => { x with departed := false })

/-! ### The watchdog (R355) -/

def watchPeriod : Nat := 2 ^ 30

/-- Whether a wait without a timeout is one the watchdog watches. -/
def Wait.watched (w : Wait) : Bool :=
  w.deadline.isNone && match w.instr with
    | .kSwait _ _ _ | .kJoin | .kHyield _ | .kBarw _ _ _ _ | .kFget _ _ => true
    | _ => false

/-- The periods a hart's wait has lasted, if one is to be reported. -/
def State.hartOverdue (s : State) (t c : Nat) : Option (Wait × Nat) :=
  match (s.hart t c).wait with
  | some w =>
    let n := (s.now - w.since) / watchPeriod
    if w.watched ∧ w.reported < n ∧ (s.ctx t c).st = .resident then some (w, n) else none
  | none => none

/-- The periods a context's bundle engine has been held, if one is to be reported. -/
def State.bundleOverdue (s : State) (t c : Nat) : Option Nat :=
  let x := s.ctx t c
  match x.heldSince with
  | some b =>
    let n := (s.now - b) / watchPeriod
    if x.heldReported < n ∧ x.st = .resident then some n else none
  | none => none

/-- ARG of a watchdog record. -/
def watchArg (gen : W16) (sem : Nat) (n : Nat) : W64 := BitVec.ofNat 32 n ++ (0 : BitVec 10) ++ BitVec.ofNat 6 sem ++ gen

/-- The semaphore and generation a context's bundle engine is held on: its swait's, or its run's WEN. -/
def State.heldOn (s : State) (t c : Nat) : Nat × W16 :=
  let x := s.ctx t c
  match x.nextRun? with
  | none => (0x3F, 0)
  | some e =>
    if !e.started && !e.passed then (rdWg e.desc, rdWgen e.desc)
    else
      let v := (s.preview t c 0).env t c 7
      match decodeSlot .mb v.word with
      | .swait g r => (g.toNat, (v.s r).setWidth 16)
      | _ => (0x3F, 0)

/-- WATCHDOG: an event record after each whole period of an uninterrupted wait; the wait goes on (R355). -/
def execWatchdog (s : State) : Out :=
  let t := s.focus.tile
  let c := s.focus.ctx
  match s.bundleOverdue t c with
  | some n =>
    let h := s.heldOn t c
    .next ((s.modCtx t c fun x => { x with heldReported := n }).event t c 0 1 (watchArg h.2 h.1 n))
  | none =>
    match s.hartOverdue t c with
    | none => .fault .notDue
    | some (w, n) =>
      let on : Nat × W16 := match w.what with
        | .sem g want => (g, want)
        | _ => (0x3F, 0)
      .next ((s.modHart t c fun h => { h with wait := h.wait.map fun w => { w with reported := n } }).event t c 0 1 (watchArg on.2 on.1 n))

end Sys2Proof.Machine
end

