-- ==== Sys2Proof/Machine/Preempt.lean ====
section
/-! DEFINITION. The commands of a function page (R346 to R350, R353, R354): pre-emption, resume, dumps. -/

namespace Sys2Proof.Machine

/-! ### The command at the front of a page (R346) -/

/-- The page without its oldest command of R346. -/
def dropCtl : List FnCmd → List FnCmd
  | [] => []
  | .ctl _ :: l => l
  | c :: l => c :: dropCtl l

/-- The row of a command. -/
def cmdRow (w : W64) : Instr :=
  if cmdOp w = 1 then .preempt
  else if cmdOp w = 2 then .resume
  else if cmdArea w ≠ 0 then .dump
  else if cmdKill w then .abort
  else .discard

/-- A command completes with a result (R346). -/
def State.complete (s : State) (f : Nat) (w : W64) (res : Byte) : State :=
  s.modPage f fun p =>
    { p with cmds := dropCtl p.cmds, busy := false, waits := none, cdone := p.cdone + 1, lastop := BitVec.ofNat 8 (cmdOp w), cres := res }

/-- The command that row i is due for, at page f. -/
def State.ctlDue (s : State) (f : Nat) (i : Instr) : Option W64 :=
  match (s.page f).ctl? with
  | some w => if cmdRow w = i ∧ !(s.page f).busy then some w else none
  | none => none

/-- The checks every command makes: reserved bits, then a context that the function owns (R346). -/
def State.withCommand (s : State) (i : Instr) (g : Nat → W64 → Nat → Nat → State) : Out :=
  let f := s.focus.fn
  match s.ctlDue f i with
  | none => .fault .notDue
  | some w =>
    let t := cmdTile w
    if cmdReserved w then .next (s.complete f w 5)
    else match s.owned? f t (cmdCtx w) with
      | none => .next (s.complete f w 1)
      | some k => .next (g f w t k)

/-- A command is under way: it has sent the writes of an area (R347, R353). -/
def State.await (s : State) (f : Nat) (header : Option Nat) (out : List Nat) : State :=
  s.modPage f fun p => { p with busy := true, waits := some { header := header, out := out, failed := false } }

/-- Whether the writes of an area have been performed. -/
def State.areaDone (s : State) (w : AreaWrite) : Bool := w.out.all fun id => (s.msg? id).isNone

/-! ### Keys of contexts -/

/-- Everything that names context key a of tile t names b. -/
def State.rekey (s : State) (t a b : Nat) : State :=
  let own (o : Nat × Nat) : Nat × Nat := if o = (t, a) then (t, b) else o
  let one (n : Nat) : Nat := if n = a then b else n
  let s := s.flushFreezeOf t a
  let x := s.ctx t a
  let s : State := { s with
    net := s.net.map fun m => { m with own := m.own.map own },
    sessions := s.sessions.map fun n =>
      { n with owner := own n.owner, contribs := n.contribs.map fun c => if c.tile = t then { c with ctx := one c.ctx } else c } }
  -- bundles that stand in the engine stay those of the context they were fetched for (R283)
  let s := s.modEngine t fun e =>
    { e with
      loopBuf := e.loopBuf.map fun b => (one b.1, b.2), fetched := e.fetched.map fun p => (one p.1, p.2) }
  s.modTile t fun y =>
    { y with
      ctxs := tabPut (tabDel y.ctxs a) b x, sectors := y.sectors.map fun n => { n with ctx := one n.ctx },
      rrCh := tabPut (tabDel y.rrCh a) b (tabGet 3 y.rrCh a) }

/-- A key for a saved context. -/
def State.savedKey (s : State) (t : Nat) : Nat :=
  ((List.range 64).map (fun n => n + 8)).find? (fun k => (s.ctx? t k).isNone) |>.getD 72

/-! ### The writes of an area (R347, R352, R353) -/

/-- Sections, each with its number, leave for their places in an area; none at a fault. -/
def State.writeSections (s : State) (t k area : Nat) (dir : List (Nat × Nat)) : List (Nat × List Byte) → State × Option (List Nat)
  | [] => (s, some [])
  | (n, b) :: l =>
    let p := padTo (roundUp64 b.length) b
    match s.writeVa t k (area + (dir.getD n (0, 0)).1) p [] (p.length + 1) with
    | (s, none) => (s, none)
    | (s, some ids) =>
      match s.writeSections t k area dir l with
      | (s, some more) => (s, some (ids ++ more))
      | (s, none) => (s, none)

/-! ### Pre-emption (R347) -/

/-- Departed sets of a tile (R348). -/
def State.departedSets (s : State) (t : Nat) : Nat := ((s.tile t).ctxs.filter fun e => e.2.departed).length

/-- The contexts of a tile whose areas are being written: their sets will depart (R348). -/
def State.savesBegun (s : State) (t : Nat) : Nat :=
  (s.pages.filter fun p => match p.2.ctl? with
    | some w => decide (cmdRow w = .preempt) && decide (cmdTile w = t) && p.2.busy && p.2.waits.isSome
        && decide ((s.ctx t (cmdCtx w)).st = .saving)
    | none => false).length

/-- Whether PREEMPT must wait: for the boundary behind an overflow freeze, and a stop that is to be taken there (R213, R347,
R356). -/
def State.preemptWaits (s : State) (t k : Nat) : Bool :=
  decide ((s.ctx t k).st = .resident) && (s.spilling t k || (s.ctx t k).dbg.pend.isSome)

/-- The context leaves the engine and the control core: items into the replay buffer, the hart at its boundary; the loop buffer
keeps its bundles until a switch re-aims it (R99, R283, R345). -/
def State.stopContext (s : State) (t k : Nat) : State :=
  (((s.flushFreezeOf t k).drainItems t k).leaveTurn t k).hartBoundary t k

/-- PREEMPT: the context stops and is being saved; a halt that was asked for is not made (R347, R377). -/
def execPreempt (s : State) : Out :=
  s.withCommand .preempt fun f w t k =>
    if (s.ctx t k).st ≠ .resident then s.complete f w 2
    else if s.preemptWaits t k then s
    else
      let s := (s.stopContext t k).flushCounters t k (s.ctx t k).launch
      let clock := s.dieClock (s.dieOf t)
      let now := s.now
      let s := s.modCtx t k fun x =>
        { x with st := .saving, area := cmdArea w, savedClock := clock, dumpBegan := some now,
                 dbg := { x.dbg with haltReq := false, stepping := none, quiesce := false } }
      s.modPage f fun p => { p with busy := true, waits := none }

/-- The header of a save (R352). -/
def State.saveHead (s : State) (t k : Nat) : AreaHead :=
  let x := s.ctx t k
  { clock := x.savedClock, tick := x.dumpBegan.getD s.now, delay := 0, state := 1, code := 0,
    done := match x.reissue with
      | some r => r.2
      | none => 0,
    baddr := x.resumeBundle, secn := 0 }

/-- A save meets a fault: the context is resident again at the same boundary, its items re-enter, nothing is freed (R347). -/
def State.abandonSave (s : State) (f : Nat) (w : W64) (t k : Nat) : State :=
  ((s.modCtx t k fun x => { x with dumpBegan := none }).restart t k).complete f w 3

/-- The save is complete: number and units are free, the channel set has departed (R347, R348). -/
def State.finishSave (s : State) (f : Nat) (w : W64) (t k : Nat) : State :=
  let s := s.modCtx t k fun x => { x with st := .saved, departed := true, dumpBegan := none }
  (s.rekey t k (s.savedKey t)).complete f w 0

/-- One move of a save: the sections leave once the tile has room for the departed set; when they have been performed the
header leaves, with STATE 1; when it has, the save is complete. -/
def State.saveMove (s : State) (f : Nat) (w : W64) (t k : Nat) : Option State :=
  let secs := s.sections t k false
  let dir := dirOf 256 secs
  match (s.page f).waits with
  | none =>
    if 8 ≤ s.departedSets t + s.savesBegun t then none
    else match s.bumpFree.writeSections t k (cmdArea w) dir ((List.range 16).zip secs) with
      | (s, some ids) => some (s.await f none ids)
      | (s, none) => some (s.abandonSave f w t k)
  | some a =>
    if !s.areaDone a then none
    else if a.failed then some (s.abandonSave f w t k)
    else if a.header.isSome then some (s.finishSave f w t k)
    else
      let head := s.headerBytes t k (s.saveHead t k) secs
      match s.writeVa t k (cmdArea w) head [] 257 with
      | (s, some ids) => some (s.await f (some 0) ids)
      | (s, none) => some (s.abandonSave f w t k)

/-- CONTEXT_SAVE: the next move of the save of page f. A fatal stop of the context meanwhile ends the command with CRES 2, a
TILEFAIL, which leaves it to be moved, with CRES 3 (R347, R356). -/
def execContextSave (s : State) : Out :=
  let f := s.focus.fn
  match (s.page f).ctl? with
  | none => .fault .notDue
  | some w =>
    let t := cmdTile w
    let k := cmdCtx w
    if cmdRow w ≠ .preempt ∨ !(s.page f).busy then .fault .notDue
    else if (s.ctx? t k).isSome ∧ (s.ctx t k).st = .saving then
      match s.saveMove f w t k with
      | some s => .next s
      | none => .fault .notDue
    else .next (s.complete f w (if (s.ctx? t k).isSome ∧ (s.ctx t k).st = .resident then 3 else 2))

/-! ### Resume (R350) -/

/-- The saved context a RESUME names: of its number, of the function; the one saved at the area, if there is one. -/
def State.savedFor (s : State) (f t n area : Nat) : Option Nat :=
  let l := (s.tile t).ctxs.filter fun e => decide (e.2.num = n) && decide (e.2.st = .saved) && s.owns f t e.1
  match l.find? fun e => decide (e.2.area = area) with
  | some e => some e.1
  | none => l.head?.map Prod.fst

/-- Whether a header is one a RESUME of the context accepts (R350, R352). -/
def headerFits (b : List Byte) (asid : W16) (t n : Nat) : Bool :=
  let w := wordAt b 56
  decide (fieldNat (wordAt b 0) 3 0 = 1) && decide (w.extractLsb' 48 16 = asid) && decide (fieldNat w 47 39 = t)
    && decide (fieldNat w 38 36 = n) && decide (fieldNat w 35 32 = 1)

/-- The clock a header holds. -/
def headerClock (b : List Byte) : Clock := (List.range 10).foldl (fun c j => c.setAt j (half b (216 + 4 * j))) Clock.zero

/-- Read sections ns of an area; 0 to 7 are loaded into the context. What the others stand for, items, queues, maps and hot
counts, is in the model's context as it was saved (assumption 18). None at a fault. -/
def State.readSections (s : State) (t k area : Nat) (head : List Byte) : List Nat → State × Bool
  | [] => (s, true)
  | n :: l =>
    let o := (half head (72 + 8 * n)).toNat
    let size := (half head (76 + 8 * n)).toNat
    if size = 0 then s.readSections t k area head l
    else match s.readVa t (s.asidOf t k) (area + o) size (size + 1) with
      | (s, none) => (s, false)
      | (s, some b) => (if n < 8 then s.modCtx t k fun x => x.loadSec n b else s).readSections t k area head l

/-- The launch's image is brought to a tile without one that fits; false at a fault or a wrong digest. -/
def State.bringImage (s : State) (t : Nat) (r : LaunchRec) : State × Bool :=
  let here := match (s.tile t).image with
    | some i => decide (i.hash = recHash r)
    | none => false
  if here then (s, true)
  else match s.readVa t (recAsid r) (recImageVa r) (recImageLen r) 1024 with
    | (s, some l) => if wordOf 512 (sha512 l) = recHash r then (s.modTile t fun y => y.loadImage r l, true) else (s, false)
    | (s, none) => (s, false)

/-- The sections that a RESUME reads: the queues in 10 and 11 where the set no longer stands at the tile (R348, R350). -/
def savedSections (departed : Bool) : List Nat :=
  [0, 1, 2, 3, 4, 5, 6, 7, 8, 9] ++ (if departed then [] else [10, 11]) ++ [12, 13]

/-- A context whose resources are free resumes from its area; the command ends when STATE 2 stands in the header (R326, R350). -/
def State.resumeFrom (s : State) (f : Nat) (w : W64) (t k : Nat) : State :=
  let r := s.recOf t k
  let area := cmdArea w
  match s.readVa t (s.asidOf t k) area 256 1024 with
  | (s, none) => s.complete f w 3
  | (s, some head) =>
    if !headerFits head (s.asidOf t k) t (cmdCtx w) then s.complete f w 4
    else if !(s.usable t && (s.tile t).failed.isNone && (s.freeCtxs t).contains (cmdCtx w) && s.unitsFit t r 1 && s.imageFits t (recHash r)) then
      s.complete f w 6
    else match s.bringImage t r with
      | (s, false) => s.complete f w 3
      | (s, true) =>
        let old := s.ctx t k
        match s.readSections t k area head (savedSections old.departed) with
        | (s, false) => (s.setCtx t k old).complete f w 3
        | (s, true) =>
          let s := (s.mergeDie (s.dieOf t) (headerClock head)).mergeDie (s.dieOf t) old.savedClock
          let state := (head.getD 60 0 &&& 0xF0) ||| 2
          match s.writeVa t k (area + 60) [state] [] 2 with
          | (s, none) => (s.setCtx t k old).complete f w 3
          | (s, some ids) => ((s.rekey t k (cmdCtx w)).restart t (cmdCtx w)).await f (some 0) ids

/-- RESUME (R350). -/
def execResume (s : State) : Out :=
  s.withCommand .resume fun f w t _ =>
    match s.savedFor f t (cmdCtx w) (cmdArea w) with
    | none => s.complete f w 2
    | some k => s.resumeFrom f w t k

/-! ### The end of a faulted context (R353, R354) -/

/-- The context of a number that a dump may act on: faulted or quarantined (R353). -/
def State.dumpable (s : State) (f t n : Nat) : Option Nat :=
  ((s.tile t).ctxs.find? fun e => decide (e.2.num = n) && (decide (e.2.st = .faulted) || decide (e.2.st = .quarantined))
    && s.owns f t e.1).map Prod.fst

/-- A context has been dumped or discarded: its block counters leave, its CSTATE is st, and it counts as retired once what it
has in flight has landed (R57, R353, R370). -/
def State.endContext (s : State) (t k st : Nat) : State :=
  let x := s.ctx t k
  let s := (s.flushCounters t k x.launch).modTile t fun y => { y with past := tabPut y.past x.num (st, x.lastCode) }
  let backs := s.backsOf t x.launch
  (s.modCtx t k fun x =>
    { x with st := if st = 7 then .dumpedIncomplete else .dumped, dumpAsked := none, dumpBegan := none, backs := backs }).finishEnd t k

/-- DUMP: the context waits for its dump to be written (R353). -/
def execDump (s : State) : Out :=
  s.withCommand .dump fun f w t _ =>
    match s.dumpable f t (cmdCtx w) with
    | none => s.complete f w 2
    | some k =>
      let now := s.now
      let s := s.modCtx t k fun x => { x with dumpAsked := some now }
      s.modPage f fun p => { p with busy := true, waits := none }

/-- The context whose dump page f waits for. -/
def State.dumped? (s : State) (f : Nat) (w : W64) : Option Nat :=
  ((s.tile (cmdTile w)).ctxs.find? fun e => decide (e.2.num = cmdCtx w) && e.2.dumpAsked.isSome && s.owns f (cmdTile w) e.1).map Prod.fst

/-- The header of a dump (R352 to R354). -/
def State.dumpHead (s : State) (t k : Nat) : AreaHead :=
  let x := s.ctx t k
  let r := x.stop.getD (s.stopRec t k 0)
  let began := x.dumpBegan.getD s.now
  { clock := s.dieClock (s.dieOf t), tick := began, delay := began - x.dumpAsked.getD began,
    state := if x.secn = 2 then 4 else 3, code := r.code, done := r.done,
    baddr := if r.src = 0 then r.baddr else x.resumeBundle, secn := x.secn }

/-- Sections ns of an area as memory holds them; none at a fault. -/
def State.areaSections (s : State) (t k area : Nat) (dir : List (Nat × Nat)) : List Nat → State × Option (List (Nat × List Byte))
  | [] => (s, some [])
  | n :: l =>
    let d := dir.getD n (0, 0)
    match s.readVa t (s.asidOf t k) (area + d.1) d.2 (d.2 + 1) with
    | (s, none) => (s, none)
    | (s, some b) =>
      match s.areaSections t k area dir l with
      | (s, some more) => (s, some ((n, b) :: more))
      | (s, none) => (s, none)

/-- The sections that a dump writes, but section 14: of a context that faulted while it was saved those of its save area (R353,
R356). -/
def State.dumpSections (s : State) (t k : Nat) (secs : List (List Byte)) : State × Option (List (Nat × List Byte)) :=
  let all := ((List.range 16).zip secs).filter fun e => decide (e.1 ≠ 14)
  if k < 8 then (s, some all)
  else
    let saved (n : Nat) : Bool := decide (n < 10) || decide (n = 13)
    match s.areaSections t k (s.ctx t k).area (dirOf 256 (s.sections t k false))
        ((List.range 16).filter fun n => saved n && !(secs.getD n []).isEmpty) with
    | (s, none) => (s, none)
    | (s, some l) => (s, some (l ++ all.filter fun e => !saved e.1))

/-- A fault in the area of a dump: the context is quarantined (R354). -/
def State.quarantine (s : State) (f : Nat) (w : W64) (t k : Nat) : State :=
  (s.modCtx t k fun x => { x with st := .quarantined, dumpAsked := none, dumpBegan := none }).complete f w 3

/-- One move of a dump: it begins when no dump of the tile stands before it; once the context's sectors have landed the sections
leave; when they have been performed the stop records and the header, again if a fault has met the dump meanwhile; when
they have, the dump is complete (R353, R354). -/
def State.dumpMove (s : State) (f : Nat) (w : W64) (t k : Nat) : Option State :=
  let secs := s.sections t k true
  let dir := dirOf 256 secs
  match (s.page f).waits with
  | none =>
    if (s.ctx t k).st ≠ .dumping then
      if s.dumpsAhead t k ≠ 0 then none
      else
        let now := s.now
        some (s.modCtx t k fun x => { x with st := .dumping, dumpBegan := some now })
    else if s.inflight t k ≠ 0 then none
    else match s.bumpFree.dumpSections t k secs with
      | (s, none) => some (s.quarantine f w t k)
      | (s, some l) => match s.writeSections t k (cmdArea w) dir l with
        | (s, some ids) => some (s.await f none ids)
        | (s, none) => some (s.quarantine f w t k)
  | some a =>
    if !s.areaDone a then none
    else if a.failed then some (s.quarantine f w t k)
    else if a.header = some (s.ctx t k).secn then
      some ((s.endContext t k (if (s.ctx t k).secn = 2 then 7 else 6)).complete f w 0)
    else
      let head := s.headerBytes t k (s.dumpHead t k) secs
      match s.writeSections t k (cmdArea w) dir [(14, s.secBytes t k 14)] with
      | (s, none) => some (s.quarantine f w t k)
      | (s, some ids) => match s.writeVa t k (cmdArea w) head [] 257 with
        | (s, some more) => some (s.await f (some (s.ctx t k).secn) (ids ++ more))
        | (s, none) => some (s.quarantine f w t k)

/-- DUMP_COMPLETE: the next move of the dump of page f; a context that has ended meanwhile leaves nothing to dump (R349,
R353). -/
def execDumpComplete (s : State) : Out :=
  let f := s.focus.fn
  match (s.page f).ctl? with
  | none => .fault .notDue
  | some w =>
    if cmdRow w ≠ .dump ∨ !(s.page f).busy then .fault .notDue
    else match s.dumped? f w with
      | none => .next (s.complete f w 2)
      | some k => match s.dumpMove f w (cmdTile w) k with
        | some s => .next s
        | none => .fault .notDue

/-- DISCARD: nothing is written and the command completes at once (R353). -/
def execDiscard (s : State) : Out :=
  s.withCommand .discard fun f w t _ =>
    match s.dumpable f t (cmdCtx w) with
    | none => s.complete f w 2
    | some k => (s.endContext t k 6).complete f w 0

/-- A RESUME whose STATE 2 has been performed completes (R350). -/
def State.resumeEnds (s : State) (f : Nat) : State :=
  match (s.page f).ctl?, (s.page f).waits with
  | some w, some a => if cmdRow w = .resume ∧ s.areaDone a then s.complete f w (if a.failed then 3 else 0) else s
  | _, _ => s

/-- ABORT: KILL of a resident or saved context (R346, R353). -/
def execAbort (s : State) : Out :=
  s.withCommand .abort fun f w t _ =>
    match (s.tile t).ctxs.find? fun e => decide (e.2.num = cmdCtx w) && (decide (e.2.st = .resident) || decide (e.2.st = .saved))
        && s.owns f t e.1 with
    | none => s.complete f w 2
    | some e => (s.kill t e.1).complete f w 0

end Sys2Proof.Machine
end

