-- ==== Sys2Proof/Machine/DebugCmds.lean ====
section
/-! DEFINITION. The debugger's commands (R320, R372 to R376): attach, halt, step, state access, breakpoints, watchpoints. -/

namespace Sys2Proof.Machine

/-! ### The command at the front of a page (R372) -/

/-- The oldest debug command of a page: word, DARG and DDATA as they stood at its write. -/
def FnPage.dbg? (p : FnPage) : Option (W64 × W64 × W64) := p.cmds.findSome? fun c => match c with
  | .debug w a d => some (w, a, d)
  | .ctl _ => none

def dropDebug : List FnCmd → List FnCmd
  | [] => []
  | .debug _ _ _ :: l => l
  | c :: l => c :: dropDebug l

def dbgOp (w : W64) : Nat := fieldNat w 63 60

/-- The row of a debug command; none for an OP that is no command. -/
def dbgRow (w : W64) : Option Instr := match dbgOp w with
  | 1 => some .attach
  | 2 => some .detach
  | 3 => some .halt
  | 4 => some .haltq
  | 5 => some .cont
  | 6 => some .step
  | 7 => some .rdst
  | 8 => some .wrst
  | 9 => some .cancel
  | 10 => some .setbp
  | 11 => some .setwp
  | 12 => some .catchStops
  | 13 => some .acct
  | _ => none

/-- A debug command completes with a result (R372). -/
def State.dbgDone (s : State) (f : Nat) (w : W64) (code : Byte) : State :=
  s.modPage f fun p =>
    { p with cmds := dropDebug p.cmds, dbusy := false, ddone := p.ddone + 1, dlastop := BitVec.ofNat 8 (dbgOp w), dcode := code,
             dstat := some (cmdTile w, cmdCtx w) }

/-- A debug command of an OP that is none completes with DCODE 3, with reserved bits 4 (R372, R373). -/
def State.badDebug (s : State) (f : Nat) : State :=
  match (s.page f).dbg? with
  | some (w, _, _) => if (dbgRow w).isNone then s.dbgDone f w (if fieldNat w 59 12 ≠ 0 then 4 else 3) else s
  | none => s

/-- The command that row i is due for at page f: word, DARG, DDATA. -/
def State.dbgDue (s : State) (f : Nat) (i : Instr) : Option (W64 × W64 × W64) :=
  match (s.page f).dbg? with
  | some (w, a, d) => if dbgRow w = some i ∧ !(s.page f).dbusy then some (w, a, d) else none
  | none => none

/-- The checks of a debug command: reserved bits, a task of an owned address space, attached, halted (R372, R373). g gives
the state after it and its DCODE; none: the command goes on. -/
def State.withDebug (s : State) (i : Instr) (attached halted : Bool)
    (g : Nat → W64 → W64 → Nat → Nat → State × Option Byte) : Out :=
  let f := s.focus.fn
  match s.dbgDue f i with
  | none => .fault .notDue
  | some (w, a, d) =>
    let t := cmdTile w
    let c := cmdCtx w
    let x := (s.ctx t c).dbg
    if fieldNat w 59 12 ≠ 0 then .next (s.dbgDone f w 4)
    else if !s.owns f t c then .next (s.dbgDone f w 1)
    else if (attached && !x.attached) || (halted && !(x.eh && x.hh && decide ((s.ctx t c).st = .resident))) then .next (s.dbgDone f w 2)
    else match g f a d t c with
      | (s, some code) => .next (s.dbgDone f w code)
      | (s, none) => .next (s.modPage f fun p => { p with dbusy := true })

/-! ### Attach, continue, halt (R373, R374) -/

/-- ATTACH (R373). -/
def execAttach (s : State) : Out :=
  s.withDebug .attach false false fun _ _ _ t c => (s.modDbg t c fun d => { d with attached := true }, some 0)

/-- The context runs on: the bundle reissues, the hart issues at its pc, held entries start again (R342, R373, R374). -/
def State.goOn (s : State) (t c : Nat) : State :=
  let clk := (s.tile t).clk
  let s := s.modDbg t c fun d => { d with eh := false, hh := false, haltReq := false, quiesce := false, stepping := none, pend := none, caught := false }
  s.modHart t c fun h => { h with readyAt := 0, nextAt := max h.nextAt (clk + 1) }

/-- DETACH: breakpoints, watchpoints and the catch mask are cleared; a halted context continues (R373). -/
def execDetach (s : State) : Out :=
  s.withDebug .detach false false fun _ _ _ t c =>
    let s := s.goOn t c
    (s.modDbg t c fun d => { d with attached := false, bps := [], wps := [], catchMask := 0 }, some 0)

/-- CONT (R373). -/
def execCont (s : State) : Out := s.withDebug .cont true false fun _ _ _ t c => (s.goOn t c, some 0)

/-- Whether the context may be halted: resident (R374, R377). -/
def State.haltable (s : State) (t c : Nat) : Bool := decide ((s.ctx t c).st = .resident)

/-- HALT: done at once on a halted context; else it takes effect at the boundaries (R373, R374). -/
def execHalt (s : State) : Out :=
  s.withDebug .halt true false fun _ _ _ t c =>
    let x := (s.ctx t c).dbg
    if x.eh && x.hh then (s, some 0)
    else if !s.haltable t c then (s, some 2)
    else (s.modDbg t c fun d => { d with haltReq := true }, none)

/-- HALTQ: a halt that also keeps further sectors and stack commands from starting (R374). -/
def execHaltq (s : State) : Out :=
  s.withDebug .haltq true false fun _ _ _ t c =>
    let x := (s.ctx t c).dbg
    if !s.haltable t c then (s, some 2)
    else (s.modDbg t c fun d => { d with haltReq := !(x.eh && x.hh), quiesce := true }, none)

/-- The page that waits for a halt of context c of tile t: its word, when its command is row i. -/
def State.waitingPage (s : State) (t c : Nat) (i : Instr) : Option (Nat × W64) :=
  let f := s.asidFn (s.asidOf t c)
  match (s.page f).dbg? with
  | some (w, _, _) =>
    if (s.page f).dbusy ∧ dbgRow w = some i ∧ cmdTile w = t ∧ cmdCtx w = c then some (f, w) else none
  | none => none

/-- HALT_TAKES_EFFECT: the context halts at its boundaries; the HALT or STEP that asked for it is done (R374). -/
def execHaltTakesEffect (s : State) : Out :=
  let t := s.focus.tile
  let c := s.focus.ctx
  if !(s.ctx t c).dbg.haltReq ∨ (s.ctx t c).st ≠ .resident ∨ s.spilling t c then .fault .notDue
  else
    let p := (s.ctx t c).dbg.pend.getD (0, 0, false)
    let s := s.haltNow t c p.1 p.2.1 p.2.2
    match s.waitingPage t c .halt with
    | some (f, w) => .next (s.dbgDone f w 0)
    | none => match s.waitingPage t c .step with
      | some (f, w) => .next (s.dbgDone f w 0)
      | none => .next s

/-- Whether HALTQ at page f is complete: halted, STABLE (R374). -/
def State.haltqDone (s : State) (f : Nat) : Option W64 :=
  match (s.page f).dbg? with
  | some (w, _, _) =>
    let t := cmdTile w
    let c := cmdCtx w
    let x := (s.ctx t c).dbg
    if (s.page f).dbusy ∧ dbgRow w = some .haltq ∧ x.eh ∧ x.hh ∧ s.stable t c then some w else none
  | none => none

/-- HALTQ_STABLE (R374). -/
def execHaltqStable (s : State) : Out :=
  let f := s.focus.fn
  match s.haltqDone f with
  | some w => .next (s.dbgDone f w 0)
  | none => .fault .notDue

/-- STEP: one bundle or one hart instruction is issued, then the context halts again (R373). -/
def execStep (s : State) : Out :=
  s.withDebug .step true true fun _ a _ t c =>
    let clk := (s.tile t).clk
    if a.getLsbD 0 then
      ((s.modDbg t c fun d => { d with stepping := some true }).modHart t c fun h => { h with readyAt := 0, nextAt := max h.nextAt (clk + 1) },
        none)
    else (s.modDbg t c fun d => { d with stepping := some false, eh := false }, none)

/-- A command under way whose context has halted again, or is no longer there to halt, is done (R373, R377). -/
def State.debugEnds (s : State) (f : Nat) : Option (W64 × Byte) :=
  match (s.page f).dbg? with
  | some (w, _, _) =>
    let t := cmdTile w
    let c := cmdCtx w
    let x := (s.ctx t c).dbg
    if !(s.page f).dbusy then none
    else if !s.owns f t c ∨ !s.haltable t c then some (w, 2)
    else if dbgRow w ≠ some .haltq ∧ x.eh ∧ x.hh ∧ x.stepping = none ∧ !x.haltReq then some (w, 0)
    else none
  | none => none

/-! ### State access (R373) -/

/-- RDST: 8 bytes of a section (R352, R373). -/
def execRdst (s : State) : Out :=
  s.withDebug .rdst true true fun f a _ t c =>
    let n := fieldNat a 3 0
    let o := 8 * fieldNat a 31 8
    if n = 15 then (s, some 3)
    else
      let l := s.secBytes t c n
      if l.length < o + 8 then (s, some 3)
      else (s.bumpFree.modPage f fun p => { p with ddata := wordAt l o }, some 0)

/-- WRST: 8 bytes of a section that may be written (R373). -/
def execWrst (s : State) : Out :=
  s.withDebug .wrst true true fun _ a d t c =>
    let n := fieldNat a 3 0
    let o := 8 * fieldNat a 31 8
    if n = 15 ∨ (8 ≤ n ∧ n ≤ 12) ∨ n = 14 then (s, some 3)
    else
      let l := s.secBytes t c n
      if l.length < o + 8 then (s, some 3) else (s.modCtx t c fun x => x.loadSec n (patchBytes l o d), some 0)

/-- What a cancelled entry leaves: the elements of an accumulator an mma was computing are unspecified, its KIND stays as set at
issue (R320). -/
def Bun.cancelled (b : Bun) (free : Nat) (l : List Item) : Bun :=
  l.foldl (fun b i => match i.kind with
    | .accPending a d => { b.putAcc a (d.open a free) with kind := b.kind }
    | _ => b) b

/-- Whether an item's mma adds to its accumulator. -/
def Item.accumulates (i : Item) : Bool := match decodeSlot (Place.ofSlot i.slot) i.word with
  | .mmaAcc _ => true
  | _ => false

/-- Whether the result of item i takes part in the accumulator of a cancelled mma: issued before it, or added to it (R320). -/
def Item.sharesAcc (i : Item) (code : Nat) (l : List Item) : Bool := l.any fun j => match j.kind with
  | .accPending a _ => accOverlap a code && (decide (i.issued < j.issued) || i.accumulates)
  | _ => false

/-- The n-th item of a replay buffer after entry l is cancelled: a chained result that takes part in the cancelled mma's
accumulator is unspecified too. -/
def Item.afterCancel (i : Item) (b : Bun) (free : Nat) (l : List Item) : Item := match i.kind with
  | .accPending a d =>
    if i.sharesAcc a l then { i with kind := .accPending a { d.open a free with kind := b.kindOf (if a < 20 then a else 10 * (a - 20)) } } else i
  | _ => i

/-- Entry l of the replay buffer is removed. -/
def Ctx.cancel (x : Ctx) (free : Nat) (l : List Item) : Ctx :=
  let rest := x.replay.filter fun i => !l.contains i
  { x with
    replay := ((List.range rest.length).zip rest).map fun e => e.2.afterCancel x.bun (free + 1 + e.1) l,
    bun := x.bun.cancelled free l }

/-- CANCEL: entry n of section 8 is removed; it never lands and never happens (R320, R373). -/
def execCancel (s : State) : Out :=
  s.withDebug .cancel true true fun _ a _ t c =>
    let x := s.ctx t c
    match (replayEntries x.replay)[fieldNat a 15 0]? with
    | none => (s, some 3)
    | some l =>
      let free := s.free
      let s : State := { s with free := free + 1 + x.replay.length }
      (s.modCtx t c fun x => x.cancel free l, some 0)

/-- SETBP (R375). -/
def execSetbp (s : State) : Out :=
  s.withDebug .setbp true false fun _ a _ t c =>
    let n := fieldNat a 1 0
    (s.modDbg t c fun d =>
      { d with bps := if a.getLsbD 2 then tabPut d.bps n (fieldNat a 18 6, fieldNat a 5 3) else tabDel d.bps n }, some 0)

/-- SETWP (R376). -/
def execSetwp (s : State) : Out :=
  s.withDebug .setwp true false fun _ a _ t c =>
    let w : Watch := { r := a.getLsbD 1, w := a.getLsbD 2, first := fieldNat a 24 3, last := fieldNat a 46 25 }
    (s.modDbg t c fun d => { d with wps := tabPut d.wps (fieldNat a 0 0) w }, some 0)

/-- CATCH (R373). -/
def execCatchStops (s : State) : Out :=
  s.withDebug .catchStops true false fun _ _ d t c => (s.modDbg t c fun x => { x with catchMask := d }, some 0)

/-- ACCT: a virtual function reads a counter of none, or of another function's context, as all ones (R373). -/
def execAcct (s : State) : Out :=
  s.withDebug .acct true false fun f a _ t _ =>
    match s.counter t a with
    | none => (s, some 3)
    | some v =>
      let owner := fieldNat a 19 16
      let mine := decide (f = 0) || decide (fieldNat a 4 0 = 31) || (decide (owner < 8) && s.owns f t owner)
      (s.modPage f fun p => { p with ddata := if mine then v.setWidth 64 else BitVec.allOnes 64 }, some 0)

end Sys2Proof.Machine
end

