-- ==== Sys2Proof/Machine/Rating.lean ====
section
/-! DEFINITION. Rating, power and the fleet (R28, R38 to R42, R274, R349, R379 to R388): late transitions and TILEFAIL, the
move of a logical number, rating steps, rate sheets, sparing, power. -/

namespace Sys2Proof.Machine

/-! ### Rate sheets and lifetime records (R383, R384, R386) -/

/-- The voltage point that v belongs to (R382). -/
def pointOf (v : Nat) : Nat := min 7 ((v - 540) / 20)

def sat32Nat (n : Nat) : Nat := min n 0xFFFFFFFF

/-- One more event at a voltage point. -/
def countPoint (l : Tab Nat) (v : Nat) : Tab Nat := tabPut l (pointOf v) (sat32Nat (tabGet 0 l (pointOf v) + 1))

/-- The sum of v over the present window runs up to tick now (R383). -/
def Site.noteV (x : Site) (now : Nat) : Site := { x with acc := x.acc + x.v * (now - x.accAt), accAt := now }

/-- The window of 2^20 ticks ends: its average of v, in 1/16 mV, stands until the next ends (R383; assumption 64). -/
def Site.endWindow (x : Site) (now : Nat) : Site :=
  let y := x.noteV now
  { y with avg := if y.winAt < now then 16 * y.acc / (now - y.winAt) else y.avg, acc := 0, winAt := now }

/-- DRIFT: the change of the window-averaged v since the sheet was last written, in 1/16 mV per 1,000 powered hours (R383). -/
def Site.driftNow (x : Site) (hours : Nat) : Int :=
  if hours ≤ x.sheet0.hours then x.sheet0.drift
  else max (-32768) (min 32767 ((Int.ofNat x.avg - Int.ofNat x.avg0) * 1000 / Int.ofNat (hours - x.sheet0.hours)))

/-- The sheet of a physical tile as a write of it now leaves it. -/
def Site.written (x : Site) (hours : Nat) : Sheet :=
  { x.sheet with hours := hours, vnow := x.v, drift := x.driftNow hours, valid := true }

/-- The on-die counters are folded into MRAM (R386). -/
def State.fold (s : State) : State := { s with mram := s.lifetime }

/-- A write of one copy of a physical tile's sheet (R384). -/
def State.writeCopy (s : State) (p n : Nat) : State :=
  let hours := s.lifetime.hours
  s.modSite p fun x =>
    if n = 0 then { x with sheet0 := x.written hours, avg0 := x.avg, first0 := x.first, second0 := x.second }
    else { x with sheet1 := { x.written hours with drift := x.sheet0.drift } }

/-- The row that writes copy n of the sheet of physical tile p. -/
def sheetRow (p n : Nat) : Work := .row .rateSheetWrite { tile := p, ctx := 0, slot := n, len := 4, fn := 0 }

/-- RATE_SHEET_WRITE: one copy of the sheet of the physical tile of the focus; the other follows (R384, R386). -/
def execRateSheetWrite (s : State) : Out :=
  let p := s.focus.tile
  let n := s.focus.slot
  let s := (s.writeCopy p n).fold
  .next (if n = 0 then s.later [sheetRow p 1] else s)

/-- Every sheet is written in both copies, as at a shutdown (R384). -/
def State.writeAllSheets (s : State) : State :=
  ((List.range 384).foldl (fun (u : State) p => (u.writeCopy p 0).writeCopy p 1) s).fold

/-- The copy that firmware takes at reset: a valid one, of higher HOURS; with none, the manufacturing sheet (R384). -/
def Site.bestSheet (x : Site) : Sheet :=
  match x.sheet0.valid, x.sheet1.valid with
  | true, true => if x.sheet0.hours < x.sheet1.hours then x.sheet1 else x.sheet0
  | true, false => x.sheet0
  | false, true => x.sheet1
  | false, false => Sheet.reset

def Sheet.fmax (x : Sheet) (k : Nat) : Nat := (x.points.getD k (0, 0)).1

/-! ### Late transitions (R65, R273, R274, R349, R379) -/

/-- Tile t as the clock cycle to be squashed would have found it: credits of its harts applied, runs past their tests (R280,
R358). -/
def State.cycleStart (s : State) (t : Nat) : State :=
  let s := (s.creditsDue t).foldl (fun (u : State) m => match m.body with
    | .credit v g n => u.creditSem v g n m.clock
    | _ => u) s
  (s.residents t).foldl (fun u c => u.passWen t c) s

/-- Tile t as the bundle engine would have stood in that cycle before it charged it: an overflow access that is done has ended,
runs that are complete have left, contexts that stop at their boundaries are out (R213, R284, R343). -/
def State.engineStart (s : State) (t : Nat) : State :=
  let s := if s.spillDone t then (s.endSpill t).getD s else s
  let s := (s.residents t).foldl (fun (u : State) c => if u.runDone t c then u.leaveRun t c else u) s
  let s := (s.residents t).foldl (fun u c => u.passWen t c) s
  (s.tile t).ctxs.foldl (fun (u : State) e =>
    if (u.boundaryOf t e.1 (u.ctx t e.1)).isSome then
      ((u.drainItems t e.1).leaveTurn t e.1).modDbg t e.1 fun d => { d with eh := true }
    else u) s

/-- The context that a cycle of the engine as it stands would be charged to, with its bundle; none without work (R273, R359). A
spent budget switches, a hold whose context has the budget spent as well. -/
def State.ownerNow (s : State) (t : Nat) : Option (Nat × Nat) :=
  let e := s.engine t
  let here (c : Nat) : Nat × Nat := (c, (s.ctx t c).nextAddr)
  let next (u : State) : Option (Nat × Nat) := match u.selected t with
    | some c => some (c, (u.ctx t c).nextAddr)
    | none => ((u.engine t).earliest).map fun i => (i.ctx, i.baddr)
  let turnOver (c : Nat) : State := s.modEngine t fun e =>
    { e with turn := if e.turn = some c then none else e.turn, turnStep := .idle,
             freezes := e.freezes.filter fun f => decide (f.cause ≠ .semwait) }
  match e.chargedFreeze with
  | some f =>
    if !s.hasWork t then none
    else if e.freezes.any fun g => decide (g.cause ≠ .semwait) then some (f.owner, f.pc)
    else if !s.eligible t f.owner then next (turnOver f.owner)
    else if s.budgetSpent t f.owner then next (s.forceSwitch t f.owner)
    else some (f.owner, f.pc)
  | none =>
    match e.turn with
    | some c =>
      if !s.eligible t c then next (turnOver c)
      else if e.turnStep = .ready ∧ (s.ctx t c).firstStep = .ready ∧ s.budgetSpent t c then next (s.forceSwitch t c)
      else some (here c)
    | none => next s

/-- The context that the squashed cycle of tile t would have been charged to. -/
def State.cycleOwner (s : State) (t : Nat) : Option (Nat × Nat) := ((s.cycleStart t).engineStart t).ownerNow t

/-- The squashed cycle of the bundle engine: REPLAY where it had work, else IDLE or STARVE (R274); which contexts were eligible
in it counts for their waits (R336). -/
def State.squash (s : State) (t : Nat) : State :=
  let l := (s.cycleStart t).eligibles t
  let s := s.modEngine t fun e => { e with eligible := l }
  match s.cycleOwner t with
  | some (c, a) =>
    (s.chargeAll t .replay c a).modEngine t fun e => { e with turnClk := if e.turn = some c then e.turnClk + 1 else e.turnClk }
  | none => s.starve t

/-- Tile t as its control core would have found it in the cycle to be squashed: the waits that end in it have ended. -/
def State.controlStart (s : State) (t : Nat) : State :=
  let u := s.cycleStart t
  let woken := (u.residents t).filter fun c => (u.wakeRow t c).isSome
  let u := woken.foldl (fun (u : State) c => u.modHart t c fun h =>
    { h with wait := none, pc := h.pc + BitVec.ofNat 64 (h.wait.elim 0 Wait.len) }) u
  (u.residents t).foldl (fun u c => u.noteReady t c) u

/-- The squashed cycle of the control core: REPLAY to the hart that would have issued (R65). -/
def State.squashHart (s : State) (t : Nat) : State :=
  let u := s.controlStart t
  let s := (s.residents t).foldl (fun u c => u.noteReady t c) s
  if (s.tile t).throttled then s.chargeControl t (some .throttle)
  else match u.pickHart t with
    | some c => s.charge t [8] .replay c (u.hart t c).pc.toNat
    | none => s.chargeControl t none

/-- The contexts bound to a tile. -/
def State.bound (s : State) (t : Nat) : List Nat := (s.holders t).map Prod.fst

/-- A context of a tile that is to be retired drains; behind an overflow freeze its items follow (R213, R345, R347, R349). -/
def State.drainCtx (s : State) (t c : Nat) : State :=
  let s := if s.spilling t c then (s.flushFreezeOf t c).hartBoundary t c else s.stopContext t c
  let s := s.flushCounters t c (s.ctx t c).launch
  let clock := s.dieClock (s.dieOf t)
  s.modCtx t c fun x => { x with savedClock := clock }

/-- Whether an overflow access of a resident context of tile t has not ended. -/
def State.spills (s : State) (t : Nat) : Bool := (s.residents t).any fun c => s.spilling t c

/-- What the resident contexts still had in the engine when their overflow freeze ended goes into their replay buffers. -/
def State.drainRest (s : State) (t : Nat) : State :=
  (s.residents t).foldl (fun (u : State) c => (u.drainItems t c).leaveTurn t c) s

/-- Every resident context of a tile that is to be retired drains (R345, R347, R349). -/
def State.drainTile (s : State) (t : Nat) : State :=
  let s := (s.residents t).foldl (fun (u : State) c => u.drainCtx t c) s
  -- a save under way is abandoned: its context moves with the others (R356)
  s.modTile t fun y => { y with ctxs := y.ctxs.map fun e => (e.1, if e.2.st = .saving then { e.2 with st := .resident, dumpBegan := none } else e.2) }

/-- The tile is to be retired: its contexts are saved for a move (R349, R387). -/
def State.failTile (s : State) (t cause : Nat) : State :=
  let now := s.now
  (s.drainTile t).modTile t fun x => { x with failed := some now, retireCause := cause }

/-- TILEFAIL: the safe ceiling, the count and the sheet, the save of every context (R349, R384). -/
def State.tileFail (s : State) (t : Nat) : State :=
  let p := s.siteOf t
  let now := s.now
  let s := s.modSite p fun x => { x.noteV now with v := 700, sheet := { x.sheet with tfail := min 255 (x.sheet.tfail + 1) } }
  let s : State := { s with safeCeiling := insNat p s.safeCeiling }
  (s.failTile t 0).later [sheetRow p 0]

/-- An error during the drain ends every context of the tile; its dump is incomplete (R349). -/
def State.endTile (s : State) (t : Nat) : State :=
  (s.bound t).foldl (fun (u : State) c =>
    (u.fatal t c { u.stopRec t c 0x20 with src := 3 }).endContext t c 7) s

/-- Error n of one clock cycle: the counts of the rating controller and of the lifetime records (R379, R386). -/
def State.countError (s : State) (t n : Nat) : State :=
  s.modSite (s.siteOf t) fun x =>
    if n = 1 then { x with r := x.r + 1, cr := x.cr + 1, first := countPoint x.first x.v }
    else if n = 2 then { x with second := countPoint x.second x.v }
    else x

/-- Whether the contexts of a failing tile are still draining: the move has not been tried (R349). -/
def Tile.drainingOut (x : Tile) : Bool := x.failed.isSome && decide (x.retireCause = 0) && x.moveWait.isNone

/-- What a clock cycle of the tile costs of its rate, in thousandths of a cycle: a repeated cycle runs at half, then quarter
rate, a stretched one is longer (R274, R379, R380). -/
def Tile.cost (x : Tile) : Nat :=
  (if x.errs = 0 ∧ x.failed.isNone then 1000 else if x.errs = 1 then 2000 else 4000) * (100 + x.stretched) / 100

/-- LATE_TRANSITION: the clock cycle of the tile is squashed and will be repeated at half, then quarter rate; the third
error of a cycle raises TILEFAIL (R274, R349, R379). The cycle and its issue cycle keep their sources and their ic. -/
def execLateTransition (s : State) : Out :=
  let t := s.focus.tile
  if !s.enabled t then .fault .notDue
  else if (s.tile t).drainingOut then .next (s.endTile t)
  else
    let n := (s.tile t).errs + 1
    let cost := (s.tile t).cost
    let s := (s.modTile t fun x => { x with errs := n, charges := [], phase := x.phase - cost }).countError t n
    let s := ((s.squash t).squashHart t).closeCycle t
    .next (if 3 ≤ n then (s.modTile t fun x => { x with errs := 0 }).tileFail t else s)

/-- CLOCK_STRETCH: the following cycles of tile t are longer by pct hundredths; none: the margin has recovered (R380). -/
def execClockStretch (t pct : Nat) (s : State) : Out :=
  if s.enabled t ∧ pct ≤ 50 then .next (s.modTile t fun x => { x with stretched := pct }) else .fault .notDue

/-! ### The move of a logical number (R10, R39, R40, R121, R349, R387) -/

/-- The links between neighbouring dies, by number; die 8 is IO0, 9 is IO1 (R27; assumption 69). -/
def linkEnds : List (Nat × Nat) :=
  [(0, 1), (1, 2), (2, 3), (4, 5), (5, 6), (6, 7), (0, 4), (1, 5), (2, 6), (3, 7), (8, 0), (8, 4), (9, 3), (9, 7)]

/-- Link n of the mesh of a die, 0 to 79, by the routers it joins: 44 along the rows, then 36 between them (R27; DESIGN CHOICE,
assumption 105). -/
def meshEnds (n : Nat) : Nat × Nat :=
  if n < 44 then (12 * (n / 11) + n % 11, 12 * (n / 11) + n % 11 + 1) else (n - 44, n - 44 + 12)

/-- The links that stand of a set of numbered ones. -/
def State.upLinks (s : State) (l : List (Nat × Nat × Nat)) : List (Nat × Nat) := (l.filter fun e => !s.deadLinks.contains e.1).map Prod.snd

/-- The nodes that a set of them reaches in n hops over links that stand. -/
def reachOver (up : List (Nat × Nat)) : Nat → List Nat → List Nat
  | 0, l => l
  | n + 1, l =>
    reachOver up n (up.foldl (fun l e => if l.contains e.1 then insNat e.2 l else if l.contains e.2 then insNat e.1 l else l) l)

/-- Whether a die has a working route to IO0 (R387, R388). -/
def State.routed (s : State) (die : Nat) : Bool :=
  s.deadLinks.isEmpty || (reachOver (s.upLinks ((List.range linkEnds.length).zip linkEnds)) 9 [8]).contains die

/-- The number of link n of the mesh of a die. -/
def meshLink (die n : Nat) : Nat := 14 + 80 * die + n

/-- Whether the router of physical tile p has a working route: to IO0 from its die, and within it to more than half of the
die's routers (R387, R388; assumption 105). -/
def State.linked (s : State) (p : Nat) : Bool :=
  let die := p / 48
  s.routed die && (!(s.deadLinks.any fun l => decide (meshLink die 0 ≤ l) && decide (l < meshLink die 80))
    || decide (24 < (reachOver (s.upLinks ((List.range 80).map fun n => (meshLink die n, meshEnds n))) 48 [p % 48]).length))

/-- Working physical tiles of a die that carry no enabled number. -/
def State.spares (s : State) (die : Nat) : List Nat :=
  let used := s.enabledTiles.map s.siteOf
  ((List.range 48).map fun i => 48 * die + i).filter fun p => (s.site p).working && s.linked p && !used.contains p

/-- The enabled tiles but t that carry no context, whose place R39 gives to t. DESIGN CHOICE, assumption 103: a context that has
faulted, is being dumped or is quarantined counts as resident for this choice, as it holds its resources; such a context of
the tile that is retired moves with its carve. -/
def State.emptyTiles (s : State) (t : Nat) : List Nat :=
  s.enabledTiles.filter fun u => decide (u ≠ t) && (s.holders u).isEmpty && (s.tile u).failed.isNone && s.linked (s.siteOf u)

/-- The choice of R39 for tile t: its number, the physical tile, the number that becomes fenced. -/
def State.moveChoice (s : State) (t : Nat) : Option (Nat × Nat × Option Nat) :=
  match s.spares (s.dieOf t) with
  | p :: _ => some (1, p, none)
  | [] =>
    let l := s.emptyTiles t
    match l.find? fun u => decide (s.dieOf u = s.dieOf t) with
    | some u => some (2, s.siteOf u, some u)
    | none => l.head?.map fun u => (3, s.siteOf u, some u)

/-- Whether an address of memory is not of slice t, or lies in a carve of t's contexts. -/
def State.kept (s : State) (t a : Nat) : Bool :=
  let base := sliceAddr t 0
  !(decide (base ≤ a) && decide (a < sliceAddr (t + 1) 0))
    || (s.tile t).ctxs.any fun e => let k := s.carve t e.1; decide (base + k.1 ≤ a) && decide (a < base + k.2)

/-- Zero what of slice t lies neither in a carve of t's contexts nor in the semaphore block; the new tile has no error there
(R39). -/
def State.keepCarves (s : State) (t : Nat) : State :=
  { s with mem := s.mem.filter (fun e => s.kept t e.1), ecc := s.ecc.filter fun u => s.kept t u }

/-- The logical tile on its new physical tile, which is too hot or not: no translations, no issue under way, no image without a
context. -/
def Tile.moved (hot : Bool) (x : Tile) : Tile :=
  let x := { x with
    tlb := [], failed := none, moveWait := none, retireCause := 0, errs := 0, throttled := hot, stretched := 0,
    engine := { Engine.reset with ic := x.engine.ic } }
  if (x.ctxs.filter fun e => decide (e.1 < 8)).isEmpty then { x with image := none, imem := [], bmem := [] } else x

/-- Number u is fenced: its physical tile carries t from now on (R39). DESIGN CHOICE, assumption 65: the spec does not say what
becomes of contexts saved under u; they stay saved under it, with their carves and semaphores, and cannot resume. -/
def State.fence (s : State) (u : Nat) : State :=
  let s : State := { s with fenced := insNat u s.fenced }
  if (s.tile u).ctxs.isEmpty then { (s.zeroLocal u 0 semBase) with tiles := tabDel s.tiles u }
  else (s.keepCarves u).modTile u (Tile.moved false)

/-- One more tile retired, by cause (R386). -/
def State.countRetirement (s : State) (cause : Nat) : State :=
  { s with lifetime := { s.lifetime with
      retiredBy := tabPut s.lifetime.retiredBy cause (min 255 (tabGet 0 s.lifetime.retiredBy cause + 1)) } }

/-- Firmware takes physical tile p out of service: it is fenced and its sheet says so (R39, R387). -/
def State.retireSite (s : State) (p cause : Nat) : State :=
  if !(s.site p).working then s
  else
    let s := s.modSite p fun x => { x with working := false, askRetire := false, sheet := { x.sheet with retired := true } }
    (s.countRetirement cause).later [sheetRow p 0]

/-- A moved context resumes on the new tile without a command, in the order of R326; its event record says which choice
was taken and how long it waited (R349). -/
def State.resumeMoved (s : State) (t choice waited : Nat) (c : Nat) : State :=
  let x := s.ctx t c
  if x.st ≠ .resident then s
  else ((s.mergeDie (s.dieOf t) x.savedClock).restart t c).event t c 0x20 choice (BitVec.ofNat 64 waited)

/-- Tile t moves to physical tile p by a choice of R39. -/
def State.moveTo (s : State) (t choice p : Nat) (u : Option Nat) : State :=
  let old := s.siteOf t
  let clock := s.dieClock (s.dieOf t)
  let waited := match (s.tile t).moveWait with
    | some b => s.now - b
    | none => 0
  let from' := s.site old
  let s := match u with
    | some u => s.fence u
    | none => s.modSite p fun x => { x with quad := from'.quad, pos := from'.pos }
  let s : State := { s with place := tabPut s.place t p }
  let s := ((s.keepCarves t).mergeDie (s.dieOf t) clock).modTile t (Tile.moved (s.site p).thermal)
  let s := (s.bound t).foldl (fun (v : State) c => v.resumeMoved t choice waited c) s
  s.later ((t :: u.toList).map (fun n => rowAt .distributorWeightUpdate n 0) ++ [rowAt .heldTrafficRelease t 0])

/-- TILE_MOVE: the physical tile that carries the number of the focus is fenced and the number moves; without a choice it
waits, and firmware tries again (R39, R40, R349). -/
def execTileMove (s : State) : Out :=
  let t := s.focus.tile
  let x := s.tile t
  if x.failed.isNone ∨ !x.sectors.isEmpty ∨ !s.enabled t ∨ s.spills t then .fault .notDue
  else
    let s := s.drainRest t
    let s : State := { s with holding := insNat t s.holding }
    let s := s.retireSite (s.siteOf t) x.retireCause
    match s.moveChoice t with
    | some (choice, p, u) => .next (s.moveTo t choice p u)
    | none =>
      let now := s.now
      .next ((s.modTile t fun x => { x with moveWait := some (x.moveWait.getD now) }).later [rowAt .distributorWeightUpdate t 0])

/-- HELD_TRAFFIC_RELEASE: the new map is loaded in every die: what was held for a moved tile is delivered, in its order; a
number that is there again may be what a waiting head needs (R40, R330). -/
def execHeldTrafficRelease (s : State) : Out :=
  let t := s.focus.tile
  if s.holding.contains t then .next ({ s with holding := s.holding.filter fun u => decide (u ≠ t) }.wantAttempt) else .fault .notDue

/-- RATE_FLOOR_RETIREMENT: the contexts of a tile whose retirement the controller requests are saved for a move, without
the supply change (R382, R387). -/
def execRateFloorRetirement (s : State) : Out :=
  let t := s.focus.tile
  if s.enabled t ∧ (s.site (s.siteOf t)).askRetire ∧ (s.tile t).failed.isNone then .next (s.failTile t 1) else .fault .notDue

/-! ### The rating controller (R382) -/

def setFmax3 (l : List (Nat × Nat)) (w : Nat) : List (Nat × Nat) :=
  match l[3]? with
  | some p => l.set 3 (min p.1 w, p.2)
  | none => l

/-- The rate learned at a voltage point: first errors per 10^9 bundles since v last changed (R382, R383). -/
def learn (l : List (Nat × Nat)) (k cb cr : Nat) : List (Nat × Nat) :=
  match l[k]? with
  | some p => if cb = 0 then l else l.set k (p.1, min 0xFFFFF (cr * 1000000000 / cb))
  | none => l

/-- The first two arms of the step of R382. -/
def Site.trim (x : Site) : Site :=
  if 1000000 ≤ x.b ∧ 2 * x.b < x.r * 1000000 then
    let y :=
      if x.v < 680 then { x with v := x.v + 5 }
      else if 1550 < x.w then { x with w := x.w - 5, sheet := { x.sheet with points := setFmax3 x.sheet.points (x.w - 5) } }
      else { x with askRetire := true }
    { y with cb := 0, cr := 0 }
  else if 2 ^ 32 ≤ x.cb ∧ x.cr * 1000000 ≤ x.cb / 2 then
    { x with v := if 540 < x.v then x.v - 5 else x.v, cb := 0, cr := 0 }
  else x

/-- The step of R382 for one tile and window. -/
def Site.step (x : Site) : Site :=
  let y := x.trim
  { y with b := 0, r := 0, sheet := { y.sheet with points := learn y.sheet.points (pointOf y.v) y.cb y.cr } }

/-- RATING_STEP: one step of the rating controller for the tile of the focus (R382). -/
def execRatingStep (s : State) : Out :=
  let t := s.focus.tile
  let p := s.siteOf t
  if !s.enabled t ∨ (s.tile t).failed.isSome then .fault .notDue
  else
    let w := s.weight t
    let now := s.now
    let s := s.modSite p fun x => (x.endWindow now).step
    let s := if s.weight t = w then s else s.later [rowAt .distributorWeightUpdate t 0]
    .next (if (s.site p).askRetire then s.later [rowAt .rateFloorRetirement t 0] else s)

/-! ### Heat and power (R4, R385, R386) -/

/-- THERMAL_THROTTLE: the junction of the tile of the focus exceeds 105 degrees C (R385). -/
def execThermalThrottle (s : State) : Out :=
  let t := s.focus.tile
  if !s.enabled t then .fault .notDue
  else .next ((s.modSite (s.siteOf t) fun x => { x with thermal := true }).modTile t fun x => { x with throttled := true })

/-- THERMAL_RECOVERY: it has fallen below 100 degrees C (R385). -/
def execThermalRecovery (s : State) : Out :=
  let t := s.focus.tile
  if !(s.enabled t && (s.site (s.siteOf t)).thermal) then .fault .notDue
  else .next ((s.modSite (s.siteOf t) fun x => { x with thermal := false }).modTile t fun x => { x with throttled := false })

/-- The enabled tiles of a die. -/
def State.tilesOn (s : State) (die : Nat) : List Nat := s.enabledTiles.filter fun t => decide (s.dieOf t = die)

/-- The tile of a die that withholds issue next, in rotation (R385). -/
def State.nextThrottled (s : State) (die : Nat) : Option Nat :=
  let l := s.tilesOn die
  match l.find? fun t => (s.tile t).throttled && !(s.site (s.siteOf t)).thermal with
  | some u => match l.find? fun t => decide (u < t) with
    | some t => some t
    | none => l.head?
  | none => l.head?

/-- POWER_LIMIT_THROTTLE: while a die is over its limit its tiles withhold issue in rotation (R385). -/
def execPowerLimitThrottle (die : Nat) (on : Bool) (s : State) : Out :=
  let next := if on then s.nextThrottled die else none
  .next ((s.tilesOn die).foldl (fun (u : State) t =>
    let hot := (u.site (u.siteOf t)).thermal
    u.modTile t fun x => { x with throttled := hot || decide (next = some t) }) s)

/-- A shutdown record; the last 64 are kept (R386). -/
def State.noteShutdown (s : State) (cause : Nat) : State :=
  let r : Shutdown := { tick := s.now, cause := cause, sensor := Config.hottest s.free }
  let l := s.lifetime.shutdowns ++ [r]
  { s with free := s.free + 1, lifetime := { s.lifetime with shutdowns := l.drop (l.length - 64) } }

/-- The package loses its power; what memory holds after power returns is not given (R4). -/
def State.powerDown (s : State) (b : Boot) : State :=
  { s with boot := b, micro := [], agenda := [], mem := [], ecc := [] }

/-- THERMAL_SHUTDOWN: a shutdown record, every sheet, then no power (R385). -/
def execThermalShutdown (s : State) : Out := .next (((s.noteShutdown 1).writeAllSheets).powerDown .off)

/-- ORDERLY_SHUTDOWN (R384, R386). -/
def execOrderlyShutdown (s : State) : Out := .next (((s.noteShutdown 0).writeAllSheets).powerDown .off)

/-- POWER_LOSS: power drops without warning; what MRAM holds stays (R384, R386). -/
def execPowerLoss (s : State) : Out := .next (s.powerDown .lost)

/-! ### Sparing (R28, R388) -/

/-- The tiles that are left without a working route and are not being retired yet (R387). -/
def State.cutOff (s : State) : List Nat :=
  s.enabledTiles.filter fun t => !s.linked (s.siteOf t) && (s.tile t).failed.isNone

/-- LANE_SWAP: a lane of a link is swapped for a spare of its module, as many as manufacture has left of four; the failure after
them disables the link, and tiles left without a working route are retired. A link of a die's mesh has no spare (R28, R387,
R388; assumptions 92 and 105). -/
def execLaneSwap (link : Nat) (s : State) : Out :=
  if s.deadLinks.contains link ∨ meshLink 8 0 ≤ link then .fault .notDue
  else if link < 14 ∧ s.lanesLeft link ≠ 0 then
    .next { s with
      lanesUsed := tabPut s.lanesUsed link (tabGet 0 s.lanesUsed link + 1),
      lifetime := { s.lifetime with lanesSpared := tabPut s.lifetime.lanesSpared link (min 255 (tabGet 0 s.lifetime.lanesSpared link + 1)) } }
  else
    let s : State := { s with
      deadLinks := s.deadLinks ++ [link],
      lifetime := if link < 14 then { s.lifetime with linksDisabled := min 255 (s.lifetime.linksDisabled + 1) } else s.lifetime }
    .next ((s.cutOff).foldl (fun (u : State) t => u.failTile t 2) s)

/-- LINK_RETRAIN changes latency only (R28). -/
def execLinkRetrain (_ : Nat) (s : State) : Out := .next s

/-- Whether a failing unit of a row has not been rewritten (R388). -/
def State.rowFails (s : State) (stack row : Nat) : Bool :=
  s.ecc.any fun a => let c := globalCell a; decide (c.1 = stack) && decide (Config.hbmRow stack c.2 = row)

/-- Spare rows of the row's bank that are used, at manufacture or by repairs (R388). -/
def State.bankUsed (s : State) (stack row : Nat) : Nat :=
  usedRows stack (Config.hbmBank stack row)
    + (s.repaired.filter fun e => decide (e.1 = stack) && decide (Config.hbmBank stack e.2 = Config.hbmBank stack row)).length

/-- A corrected error of HBM: it is counted for its stack and its row (R386, R388). -/
def State.noteCorrected (s : State) (e : Nat × Nat) : State :=
  if 24 ≤ e.1 then s
  else
    let c := tabGet (0, 0) s.lifetime.ecc e.1
    let n := match s.rowErrs.find? fun r => decide (r.1 = e.1) && decide (r.2.1 = e.2) with
      | some r => r.2.2
      | none => 0
    { s with
      rowErrs := (e.1, e.2, n + 1) :: s.rowErrs.filter fun r => !(decide (r.1 = e.1) && decide (r.2.1 = e.2)),
      lifetime := { s.lifetime with ecc := tabPut s.lifetime.ecc e.1 (sat32Nat (c.1 + 1), c.2) } }

/-- Whether a row has met 4 corrected errors since it was last repaired (R388). -/
def State.rowWorn (s : State) (stack row : Nat) : Bool :=
  s.rowErrs.any fun r => decide (r.1 = stack) && decide (r.2.1 = row) && decide (4 ≤ r.2.2)

/-- Whether a row is to be repaired: it is worn, or an uncorrectable error of it has been rewritten; no unit of it fails (R388). -/
def State.mayRepair (s : State) (stack row : Nat) : Bool :=
  (s.rowWorn stack row || s.rewritten.contains (stack, row)) && !s.rowFails stack row

/-- ROW_REPAIR: a row that has met 4 corrected errors, or whose failing units have been rewritten in full, moves to a spare row
of its bank, its stored bytes unchanged; with no spare left it stays in service (R388). -/
def execRowRepair (stack row : Nat) (s : State) : Out :=
  if 24 ≤ stack ∨ !s.mayRepair stack row then .fault .notDue
  else if 32 ≤ s.bankUsed stack row then .next s
  else
    .next { s with
      repaired := s.repaired ++ [(stack, row)], rewritten := s.rewritten.filter (fun e => decide (e ≠ (stack, row))),
      rowErrs := s.rowErrs.filter fun r => !(decide (r.1 = stack) && decide (r.2.1 = row)),
      lifetime := { s.lifetime with
        rowsUsed := tabPut s.lifetime.rowsUsed stack (min 65535 (tabGet 0 s.lifetime.rowsUsed stack + 1)) } }

/-! ### Package reset (R38, R382, R384, R389) -/

/-- The physical tiles firmware enables on a die: the first 40 that work and have a working route; none when fewer than 6 do
(R38; assumption 69). -/
def State.choose (s : State) (die : Nat) : List Nat :=
  let l := ((List.range 48).map fun i => 48 * die + i).filter fun p => (s.site p).working && s.linked p
  if l.length < 6 then [] else l.take 40

/-- The quad and position of the n-th tile of a die with e enabled tiles (R38). -/
def quadPos (e n : Nat) : Nat × Nat :=
  let q := (e + 3) / 4
  let four := e - 3 * q
  if n < 4 * four then (n / 4, n % 4) else (four + (n - 4 * four) / 3, (n - 4 * four) % 3)

/-- The tiles dealt, in ascending order of their numbers: physical tile, die, quad, position. -/
def State.deals (s : State) : List (Nat × Nat × Nat × Nat) :=
  (List.range 8).flatMap fun d =>
    let l := s.choose d
    ((List.range l.length).zip l).map fun e => (e.2, d, quadPos l.length e.1)

/-- A physical tile after its sheet has been read at reset (R382, R384). -/
def Site.atReset (x : Site) : Site :=
  let h := x.bestSheet
  { x with working := x.working && !h.retired, v := h.vnow, w := min 2300 (h.fmax 3) / 5 * 5, b := 0, r := 0, cb := 0, cr := 0,
           askRetire := false, thermal := false, sheet := h, first := x.first0, second := x.second0,
           avg := 16 * h.vnow, acc := 0, accAt := 0, winAt := 0 }

/-- What survives a package reset: MRAM, fuses, links and spares in use, memory outside the tiles' control with the address
spaces that last held its pages, the outside world. -/
def State.cleared (s : State) (b : Boot) : State :=
  { State.reset with
    boot := b, script := s.script, free := s.free, mem := s.mem, hostMem := s.hostMem, hostOut := s.hostOut, ecc := s.ecc, chosen := s.chosen,
    tiles := (s.tiles.filter fun e => !e.2.lastAsid.isEmpty).map fun (e : Nat × Tile) => (e.1, { Tile.reset with lastAsid := e.2.lastAsid }),
    rowErrs := s.rowErrs, sites := s.sites.map fun (e : Nat × Site) => (e.1, e.2.atReset),
    linkLanes := s.linkLanes, linkRate := s.linkRate, podDown := s.podDown, deadLinks := s.deadLinks, repaired := s.repaired,
    rewritten := s.rewritten, lanesUsed := s.lanesUsed, secVersion := s.secVersion, imageNo := s.imageNo,
    lifetime := s.mram, mram := s.mram, sideband := s.sideband }

/-- The physical tiles of a die that MRAM records as enabled at the latest package reset (R38). -/
def State.chosenOn (s : State) (die : Nat) : List Nat := tabGet ((List.range 40).map fun i => 48 * die + i) s.chosen die

/-- The choice is recorded, the numbers are dealt and the tables of the map are loaded (R38). -/
def State.deal (s : State) : State :=
  let l := s.deals
  let n := (List.range l.length).zip l
  let s := l.foldl (fun (u : State) e => u.modSite e.1 fun x => { x with quad := e.2.2.1, pos := e.2.2.2 }) s
  let chosen := (List.range 8).map fun d => (d, s.choose d)
  { s with n0 := l.length, chosen := chosen, place := n.map fun e => (e.1, e.2.1), dealt := n.map fun e => (e.1, e.2.2) }

/-- The checks of the boot ROM on firmware image n: its key has the fused digest and has signed it by ECDSA on P-521 over
SHA-512, its security version is not below the fused one (R389; assumption 106). -/
def State.imageValid (s : State) (n : Nat) : Bool :=
  let x := Config.firmware n
  decide (sha512 (sec1 x.key) = Config.fusedKeyDigest) && ecdsaVerify x.key (sha512 (x.bytes ++ beBytes 4 x.version)) x.sig
    && decide (s.secVersion ≤ x.version)

/-- PACKAGE_RESET: the boot ROM verifies the firmware image that the package holds now, which may raise the fused security
version; firmware reads the sheets, enables tiles and deals the numbers; clocks, counters and semaphores start at zero (R23,
R38, R105, R382, R384, R389). With a bad image the package stays in boot. A power loss is recorded now (R386). -/
def execPackageReset (s : State) : Out :=
  let n := s.free
  let ok := s.imageValid n
  let s : State := { s.bumpFree with
    imageNo := n, secVersion := if ok then max s.secVersion (Config.firmware n).version else s.secVersion }
  let s := if s.boot = .lost then ({ s with lifetime := s.mram }.noteShutdown 2).fold else s
  if ok then .next (s.cleared .running).deal
  else .next { s.cleared .inBoot with n0 := 0 }

end Sys2Proof.Machine
end

