-- ==== Sys2Proof/Machine/Spdm.lean ====
section
/-! DEFINITION. The sideband port (R389): SPDM 1.2 over MCTP, the certificate, the measurements of the attestation. -/

namespace Sys2Proof.Machine

/-! ### Rate sheets as bytes (R383) -/

def crcStep (c : W32) : W32 := if c.getLsbD 0 then (c >>> 1) ^^^ 0xEDB88320 else c >>> 1

def crcByte (c : W32) (b : Byte) : W32 :=
  crcStep (crcStep (crcStep (crcStep (crcStep (crcStep (crcStep (crcStep (c ^^^ b.setWidth 32))))))))

/-- CRC-32 of the IEEE 802.3 polynomial. -/
def crc32 (l : List Byte) : W32 := ~~~ (l.foldl crcByte (BitVec.allOnes 32))

/-- Bytes 0 to 59 of the sheet of physical tile p (R383). -/
def Sheet.body (x : Sheet) (p : Nat) : List Byte :=
  let points := (List.range 8).flatMap fun k =>
    let q := x.points.getD k (0, 0)
    bytesOf (BitVec.ofNat 12 q.1 ++ BitVec.ofNat 20 q.2) 4
  let id : BitVec 128 := (0 : BitVec 119) ++ BitVec.ofNat 3 (p / 48) ++ BitVec.ofNat 2 (p % 48 / 12) ++ BitVec.ofNat 4 (p % 12)
  let head : BitVec 128 := BitVec.ofNat 124 0 ++ (1 : BitVec 4)
  let tail : BitVec 96 := BitVec.ofNat 32 x.hours ++ BitVec.ofNat 8 x.tfail ++ (if x.retired then 1 else 0 : BitVec 1)
    ++ (0 : BitVec 13) ++ BitVec.ofNat 10 x.vnow ++ BitVec.ofInt 16 x.drift ++ (0 : BitVec 7) ++ id.extractLsb' 0 9
  points ++ bytesOf head 16 ++ bytesOf tail 12

/-- The 64 bytes of a sheet, CHECK in the last four (R383). -/
def Sheet.bytes (x : Sheet) (p : Nat) : List Byte :=
  let b := x.body p
  b ++ bytesOf (crc32 b) 4

/-! ### Measurements (R389) -/

/-- The key-agreement public key of R165, SEC1 uncompressed. -/
def agreementKey : List Byte :=
  match pointMul 521 Config.keyAgreementPrivate (some (p521Gx, p521Gy)) none with
  | some q => sec1 q
  | none => []

/-- The configuration of measurement 3: enabled-tile map, fenced numbers, spare counts. -/
def State.configNumbers (s : State) : List Nat :=
  s.enabledTiles.flatMap (fun t => [t, s.siteOf t]) ++ s.fenced ++ [s.capData 4]

def tabNumbers (l : Tab Nat) : List Nat := l.flatMap fun e => [e.1, e.2]

/-- The lifetime records as MRAM holds them (R386). -/
def State.lifetimeNumbers (s : State) : List Nat :=
  let m := s.mram
  m.hours :: (s.sites.flatMap (fun e => e.1 :: (tabNumbers e.2.first0 ++ tabNumbers e.2.second0)) ++ tabNumbers m.temps
    ++ m.ecc.flatMap (fun e => [e.1, e.2.1, e.2.2]) ++ tabNumbers m.rowsUsed ++ tabNumbers m.lanesSpared ++ [m.linksDisabled]
    ++ tabNumbers m.retiredBy ++ m.shutdowns.flatMap fun r => [r.tick, r.cause, r.sensor])

/-- Measurement n, as the state stands. -/
def State.measurement (s : State) (n : Nat) : List Byte :=
  if n = 1 then Config.romVersion ++ bytesOf (BitVec.ofNat 32 s.secVersion) 4
  else if n = 2 then sha512 (Config.firmware s.imageNo).bytes
  else if n = 3 then sha512 (Config.configLayout s.configNumbers)
  else if n = 4 then sha512 ((List.range 384).flatMap fun p => (s.site p).bestSheet.bytes p)
  else if n = 5 then agreementKey
  else Config.lifetimeLayout s.lifetimeNumbers

/-! ### Messages of SPDM 1.2 (R389; assumption 24) -/

/-- The header of a message: version, code, two parameters. -/
def spdmHead (version code p1 p2 : Nat) : List Byte := [version, code, p1, p2].map (BitVec.ofNat 8)

/-- A message of SPDM 1.2. -/
def spdm (code p1 p2 : Nat) (l : List Byte) : List Byte := spdmHead 0x12 code p1 p2 ++ l

/-- A request and its response enter the transcript; the response goes out on the sideband port. -/
def State.respondSpdm (s : State) (request response : List Byte) : Out :=
  .next { s with spdmLog := s.spdmLog ++ [request, response], sideband := s.sideband ++ [response] }

/-- A request that the connection is not ready for, or cannot be served. -/
def State.spdmError (s : State) (code : Nat) : Out := .next { s with sideband := s.sideband ++ [spdm 0x7F code 0 []] }

/-- Whether a message is of the start of the connection: versions, capabilities, algorithms. -/
def spdmStart (m : List Byte) : Bool := [0x84, 0x04, 0xE1, 0x61, 0xE3, 0x63].contains (m.getD 1 0).toNat

/-- A response that the identity key signs, over the messages before it and its own bytes; the transcript of the next signature
begins with the start of the connection. -/
def State.respondSigned (s : State) (before : List (List Byte)) (request response : List Byte) : Out :=
  let sig := Config.identitySign ((before ++ [request, response]).flatMap id)
  .next { s with spdmLog := s.spdmLog.filter spdmStart, sideband := s.sideband ++ [response ++ sig] }

/-- The responder's nonce, which the spec leaves free. -/
def State.spdmNonce (s : State) : List Byte := bytesOf (Config.spdmNonce s.free) 32

def le2 (n : Nat) : List Byte := bytesOf (BitVec.ofNat 16 n) 2

/-! ### Requests (R389) -/

/-- GET_VERSION: version 1.2; the connection starts anew. -/
def execGetVersion (s : State) : Out :=
  ({ s with spdmVersion := 1, spdmAlgs := false, spdmLog := [] } : State).respondSpdm (spdmHead 0x10 0x84 0 0)
    (spdmHead 0x10 0x04 0 0 ++ [0, 1, 0x00, 0x12])

/-- What the responder can do: certificates, challenges, signed measurements taken afresh. -/
def spdmFlags : W32 := 0x36

/-- GET_CAPABILITIES: reserved, CTExponent, reserved, flags, DataTransferSize, MaxSPDMmsgSize. -/
def execGetCapabilities (s : State) : Out :=
  if s.spdmVersion = 0 then s.spdmError 4
  else
    let x := bytesOf Config.spdmSizes 9
    ({ s.bumpFree with spdmVersion := 2 } : State).respondSpdm (spdm 0xE1 0 0 (Config.spdmRequester s.free))
      (spdm 0x61 0 0 ([0] ++ x.take 1 ++ [0, 0] ++ bytesOf spdmFlags 4 ++ x.drop 1))

/-- The bits of ECDSA P-521 and of SHA-512 in the algorithm masks, and of SHA-512 among the measurement hashes. -/
def asymP521 : W32 := 0x100
def hashSha512 : W32 := 0x4
def measureSha512 : W32 := 0x8

/-- The fixed part of NEGOTIATE_ALGORITHMS and of ALGORITHMS, without extended algorithms or tables: length, DMTF measurements,
the measurement hash, the masks. -/
def algorithmsBody (n : Nat) (measure : List Byte) (a h : W32) (tail : List Byte) : List Byte :=
  le2 n ++ [1, 0] ++ measure ++ bytesOf a 4 ++ bytesOf h 4 ++ List.replicate 12 0 ++ tail

/-- NEGOTIATE_ALGORITHMS: ECDSA P-521 and SHA-512 are the only ones offered. -/
def execNegotiateAlgorithms (asym hash : W32) (s : State) : Out :=
  if s.spdmVersion ≠ 2 then s.spdmError 4
  else
    let a := asym &&& asymP521
    let h := hash &&& hashSha512
    ({ s with spdmAlgs := decide (a ≠ 0 ∧ h ≠ 0) } : State).respondSpdm (spdm 0xE3 0 0 (algorithmsBody 32 [] asym hash [0, 0, 0, 0]))
      (spdm 0x63 0 0 (algorithmsBody 36 (bytesOf measureSha512 4) a h [0, 0, 0, 0]))

/-- GET_DIGESTS: the digest of the certificate chain of slot 0. -/
def execGetDigests (s : State) : Out :=
  if !s.spdmAlgs then s.spdmError 4 else s.respondSpdm (spdm 0x81 0 0 []) (spdm 0x01 0 1 (sha512 Config.certificate))

/-- GET_CERTIFICATE: a portion of the certificate chain, its length, and the length of what remains behind it. -/
def execGetCertificate (off len : Nat) (s : State) : Out :=
  if !s.spdmAlgs then s.spdmError 4
  else
    let l := (Config.certificate.drop off).take len
    s.respondSpdm (spdm 0x82 0 0 (le2 off ++ le2 len))
      (spdm 0x02 0 0 (le2 l.length ++ le2 (Config.certificate.length - off - l.length) ++ l))

/-- CHALLENGE: the digest of the certificate chain, a nonce, no summary of measurements, no opaque data, and a signature by the
fused identity key over the connection. -/
def execChallenge (nonce : BitVec 256) (s : State) : Out :=
  if !s.spdmAlgs then s.spdmError 4
  else
    s.bumpFree.respondSigned s.spdmLog (spdm 0x83 0 0 (bytesOf nonce 32))
      (spdm 0x03 0 1 (sha512 Config.certificate ++ s.spdmNonce ++ le2 0))

/-- The type of measurement n: ROM, firmware, configuration, all digests but 1, 5 and 6, which are raw. -/
def measurementType (n : Nat) : Nat :=
  if n = 1 then 0x80 else if n = 2 then 0x01 else if n = 3 ∨ n = 4 then 0x02 else 0x82

/-- One measurement as a block: its index, the DMTF form, its size; its type, length and value. -/
def measurementBlock (n : Nat) (l : List Byte) : List Byte :=
  [BitVec.ofNat 8 n, 1] ++ le2 (l.length + 3) ++ [BitVec.ofNat 8 (measurementType n)] ++ le2 l.length ++ l

/-- GET_MEASUREMENTS: index 0 the number of measurements, 255 all of them, 1 to 6 one; blocks, record, nonce, no opaque data,
signed; as the state stands at this moment. -/
def execGetMeasurements (index : Nat) (nonce : BitVec 256) (s : State) : Out :=
  if !s.spdmAlgs then s.spdmError 4
  else
    let answer (p1 : Nat) (l : List Nat) : Out :=
      let blocks := l.flatMap fun n => measurementBlock n (s.measurement n)
      s.bumpFree.respondSigned (s.spdmLog.filter spdmStart) (spdm 0xE0 1 index (bytesOf nonce 32 ++ [0]))
        (spdm 0x60 p1 0 ([BitVec.ofNat 8 l.length] ++ bytesOf (BitVec.ofNat 24 blocks.length) 3 ++ blocks ++ s.spdmNonce ++ le2 0))
    if index = 0 then answer 6 []
    else if index = 255 then answer 0 [1, 2, 3, 4, 5, 6]
    else if index ≤ 6 then answer 0 [index]
    else s.spdmError 1

end Sys2Proof.Machine
end

