-- ==== Sys2Proof/Machine/Dispatch.lean ====
section
/-! DEFINITION. One arm for every instruction and event: the meaning it calls. -/

namespace Sys2Proof.Machine

def exec (i : Instr) (s : State) : Host.Outcome State Fault Refusal :=
  match i with
  | .functionLevelReset f => Sys2Proof.Machine.execFunctionLevelReset f s
  | .inboundPostedWrite u => Sys2Proof.Machine.execInboundPostedWrite u s
  | .routeApply id => Sys2Proof.Machine.execRouteApply id s
  | .routeAck id => Sys2Proof.Machine.execRouteAck id s
  | .hostRead r => Sys2Proof.Machine.execHostRead r s
  | .registerWrite f off v => Sys2Proof.Machine.execRegisterWrite f off v s
  | .doorbell f q => Sys2Proof.Machine.execDoorbell f q s
  | .tlarmWrite f q v => Sys2Proof.Machine.execTlarmWrite f q v s
  | .qownWrite f q v => Sys2Proof.Machine.execQownWrite f q v s
  | .asidEntryWrite f a high v => Sys2Proof.Machine.execAsidEntryWrite f a high v s
  | .stalledClear f page => Sys2Proof.Machine.execStalledClear f page s
  | .regerrClear f page => Sys2Proof.Machine.execRegerrClear f page s
  | .invalidatePage f asid va => Sys2Proof.Machine.execInvalidatePage f asid va s
  | .invalidateAsid f asid => Sys2Proof.Machine.execInvalidateAsid f asid s
  | .invalidateAll f => Sys2Proof.Machine.execInvalidateAll f s
  | .invalidateNone f => Sys2Proof.Machine.execInvalidateNone f s
  | .faultReplyRetry f u c seq => Sys2Proof.Machine.execFaultReplyRetry f u c seq s
  | .faultReplyAbort f u c seq => Sys2Proof.Machine.execFaultReplyAbort f u c seq s
  | .keyLoad slot => Sys2Proof.Machine.execKeyLoad slot s
  | .keyClear slot => Sys2Proof.Machine.execKeyClear slot s
  | .departedSetFlush u k => Sys2Proof.Machine.execDepartedSetFlush u k s
  | .cquery f u c => Sys2Proof.Machine.execCquery f u c s
  | .negotiateAlgorithms asym hash => Sys2Proof.Machine.execNegotiateAlgorithms asym hash s
  | .getCertificate off len => Sys2Proof.Machine.execGetCertificate off len s
  | .challenge nonce => Sys2Proof.Machine.execChallenge nonce s
  | .getMeasurements index nonce => Sys2Proof.Machine.execGetMeasurements index nonce s
  | .launchHeadValidation q => Sys2Proof.Machine.execLaunchHeadValidation q s
  | .clockStretch u pct => Sys2Proof.Machine.execClockStretch u pct s
  | .laneSwap link => Sys2Proof.Machine.execLaneSwap link s
  | .linkRetrain link => Sys2Proof.Machine.execLinkRetrain link s
  | .rowRepair stack row => Sys2Proof.Machine.execRowRepair stack row s
  | .barrierArrival id => Sys2Proof.Machine.execBarrierArrival id s
  | .retirementMessage id => Sys2Proof.Machine.execRetirementMessage id s
  | .barrierCompletion id => Sys2Proof.Machine.execBarrierCompletion id s
  | .semaphoreCredit id => Sys2Proof.Machine.execSemaphoreCredit id s
  | .writeApply id => Sys2Proof.Machine.execWriteApply id s
  | .remoteAtomic id => Sys2Proof.Machine.execRemoteAtomic id s
  | .futurePutApply id => Sys2Proof.Machine.execFuturePutApply id s
  | .readServe id => Sys2Proof.Machine.execReadServe id s
  | .readResponse id => Sys2Proof.Machine.execReadResponse id s
  | .frontierMessage src home => Sys2Proof.Machine.execFrontierMessage src home s
  | .frontierRequest home src => Sys2Proof.Machine.execFrontierRequest home src s
  | .frontierUpdate id => Sys2Proof.Machine.execFrontierUpdate id s
  | .copyHeadCheck u k ch => Sys2Proof.Machine.execCopyHeadCheck u k ch s
  | .copyMove id => Sys2Proof.Machine.execCopyMove id s
  | .copyGather id => Sys2Proof.Machine.execCopyGather id s
  | .copyConvert id => Sys2Proof.Machine.execCopyConvert id s
  | .copyAccum id => Sys2Proof.Machine.execCopyAccum id s
  | .copyAccumk id => Sys2Proof.Machine.execCopyAccumk id s
  | .sectorLanded id => Sys2Proof.Machine.execSectorLanded id s
  | .stackGather u k ord => Sys2Proof.Machine.execStackGather u k ord s
  | .stackReduce u k ord => Sys2Proof.Machine.execStackReduce u k ord s
  | .stackConvert u k ord => Sys2Proof.Machine.execStackConvert u k ord s
  | .stackOpen u k ord => Sys2Proof.Machine.execStackOpen u k ord s
  | .sessionFold id stack => Sys2Proof.Machine.execSessionFold id stack s
  | .stackEntryLeave u k => Sys2Proof.Machine.execStackEntryLeave u k s
  | .podSectorTimeout id => Sys2Proof.Machine.execPodSectorTimeout id s
  | .csrr csr rd => Sys2Proof.Machine.execCsrr csr rd s
  | .csrWrite op csr rd rs => Sys2Proof.Machine.execCsrWrite op csr rd rs s
  | .controlLoad op rd rs1 imm => Sys2Proof.Machine.execControlLoad op rd rs1 imm s
  | .controlStore sz rs1 rs2 imm => Sys2Proof.Machine.execControlStore sz rs1 rs2 imm s
  | .lr dbl aq rl rd rs1 => Sys2Proof.Machine.execLr dbl aq rl rd rs1 s
  | .sc dbl aq rl rd rs1 rs2 => Sys2Proof.Machine.execSc dbl aq rl rd rs1 rs2 s
  | .controlAmo op dbl aq rl rd rs1 rs2 => Sys2Proof.Machine.execControlAmo op dbl aq rl rd rs1 rs2 s
  | .fence imm rs1 rd => Sys2Proof.Machine.execFence imm rs1 rd s
  | .fenceI imm rs1 rd => Sys2Proof.Machine.execFenceI imm rs1 rd s
  | .controlCompute op => Sys2Proof.Machine.execControlCompute op s
  | .kLda sz scope spad rd rs1 => Sys2Proof.Machine.execKLda sz scope spad rd rs1 s
  | .kStl sz scope spad rs1 rs2 => Sys2Proof.Machine.execKStl sz scope spad rs1 rs2 s
  | .kAmoW op scope spad rd rs1 rs2 => Sys2Proof.Machine.execKAmoW op scope spad rd rs1 rs2 s
  | .kAmoD op scope spad rd rs1 rs2 => Sys2Proof.Machine.execKAmoD op scope spad rd rs1 rs2 s
  | .kFence scope => Sys2Proof.Machine.execKFence scope s
  | .kSarm rs1 rs2 => Sys2Proof.Machine.execKSarm rs1 rs2 s
  | .kSarmZ rs1 rs2 => Sys2Proof.Machine.execKSarmZ rs1 rs2 s
  | .kSpost scope rs1 rs2 => Sys2Proof.Machine.execKSpost scope rs1 rs2 s
  | .kSwait rd rs1 rs2 => Sys2Proof.Machine.execKSwait rd rs1 rs2 s
  | .kSread rd rs1 => Sys2Proof.Machine.execKSread rd rs1 s
  | .kFput scope rs1 rs2 => Sys2Proof.Machine.execKFput scope rs1 rs2 s
  | .kFget rd rs1 => Sys2Proof.Machine.execKFget rd rs1 s
  | .kFtry rd rs1 => Sys2Proof.Machine.execKFtry rd rs1 s
  | .kRun rd rs1 => Sys2Proof.Machine.execKRun rd rs1 s
  | .kRuni rd rs1 rs2 => Sys2Proof.Machine.execKRuni rd rs1 rs2 s
  | .kCopy ch rd rs1 => Sys2Proof.Machine.execKCopy ch rd rs1 s
  | .kCopyiIn ch rd rs1 rs2 => Sys2Proof.Machine.execKCopyiIn ch rd rs1 rs2 s
  | .kCopyiOut ch rd rs1 rs2 => Sys2Proof.Machine.execKCopyiOut ch rd rs1 rs2 s
  | .kStk rd rs1 => Sys2Proof.Machine.execKStk rd rs1 s
  | .kMfence mask => Sys2Proof.Machine.execKMfence mask s
  | .kTlwait q rd rs1 rs2 => Sys2Proof.Machine.execKTlwait q rd rs1 rs2 s
  | .kTlread q rd => Sys2Proof.Machine.execKTlread q rd s
  | .kQstat q rd => Sys2Proof.Machine.execKQstat q rd s
  | .kParcel rd => Sys2Proof.Machine.execKParcel rd s
  | .kPinfo sel rd rs1 => Sys2Proof.Machine.execKPinfo sel rd rs1 s
  | .kBar scope rd rs1 rs2 => Sys2Proof.Machine.execKBar scope rd rs1 rs2 s
  | .kBarw scope rd rs1 rs2 => Sys2Proof.Machine.execKBarw scope rd rs1 rs2 s
  | .kClosure scope rd rs1 => Sys2Proof.Machine.execKClosure scope rd rs1 s
  | .kLaunch q rd rs1 rs2 => Sys2Proof.Machine.execKLaunch q rd rs1 rs2 s
  | .kHyield rs1 => Sys2Proof.Machine.execKHyield rs1 s
  | .kPause n => Sys2Proof.Machine.execKPause n s
  | .kStamp id rd => Sys2Proof.Machine.execKStamp id rd s
  | .kTrace id rs1 => Sys2Proof.Machine.execKTrace id rs1 s
  | .kAcct rd rs1 => Sys2Proof.Machine.execKAcct rd rs1 s
  | .kRaise rs1 => Sys2Proof.Machine.execKRaise rs1 s
  | .kRaiseF rs1 => Sys2Proof.Machine.execKRaiseF rs1 s
  | .add g => Sys2Proof.Machine.execAdd g s
  | .sub g => Sys2Proof.Machine.execSub g s
  | .mul g => Sys2Proof.Machine.execMul g s
  | .mulh g => Sys2Proof.Machine.execMulh g s
  | .mulhn g => Sys2Proof.Machine.execMulhn g s
  | .and g => Sys2Proof.Machine.execAnd g s
  | .or g => Sys2Proof.Machine.execOr g s
  | .xor g => Sys2Proof.Machine.execXor g s
  | .andn g => Sys2Proof.Machine.execAndn g s
  | .shl g => Sys2Proof.Machine.execShl g s
  | .shr g => Sys2Proof.Machine.execShr g s
  | .sra g => Sys2Proof.Machine.execSra g s
  | .rotl g => Sys2Proof.Machine.execRotl g s
  | .min g => Sys2Proof.Machine.execMin g s
  | .max g => Sys2Proof.Machine.execMax g s
  | .minn g => Sys2Proof.Machine.execMinn g s
  | .maxn g => Sys2Proof.Machine.execMaxn g s
  | .clz g => Sys2Proof.Machine.execClz g s
  | .popc g => Sys2Proof.Machine.execPopc g s
  | .sel g => Sys2Proof.Machine.execSel g s
  | .addi g => Sys2Proof.Machine.execAddi g s
  | .movi g => Sys2Proof.Machine.execMovi g s
  | .movhi g => Sys2Proof.Machine.execMovhi g s
  | .shlI g => Sys2Proof.Machine.execShlI g s
  | .shrI g => Sys2Proof.Machine.execShrI g s
  | .sraI g => Sys2Proof.Machine.execSraI g s
  | .rotlI g => Sys2Proof.Machine.execRotlI g s
  | .andI g => Sys2Proof.Machine.execAndI g s
  | .orI g => Sys2Proof.Machine.execOrI g s
  | .xorI g => Sys2Proof.Machine.execXorI g s
  | .ceq g => Sys2Proof.Machine.execCeq g s
  | .cne g => Sys2Proof.Machine.execCne g s
  | .clt g => Sys2Proof.Machine.execClt g s
  | .cle g => Sys2Proof.Machine.execCle g s
  | .cltn g => Sys2Proof.Machine.execCltn g s
  | .clen g => Sys2Proof.Machine.execClen g s
  | .ceqI g => Sys2Proof.Machine.execCeqI g s
  | .cneI g => Sys2Proof.Machine.execCneI g s
  | .cltI g => Sys2Proof.Machine.execCltI g s
  | .cleI g => Sys2Proof.Machine.execCleI g s
  | .cltnI g => Sys2Proof.Machine.execCltnI g s
  | .clenI g => Sys2Proof.Machine.execClenI g s
  | .kand g => Sys2Proof.Machine.execKand g s
  | .kor g => Sys2Proof.Machine.execKor g s
  | .kxor g => Sys2Proof.Machine.execKxor g s
  | .smov g => Sys2Proof.Machine.execSmov g s
  | .aset kc ad sa imm => Sys2Proof.Machine.execAset kc ad sa imm s
  | .aadd kc ad imm => Sys2Proof.Machine.execAadd kc ad imm s
  | .aget kc sd aa => Sys2Proof.Machine.execAget kc sd aa s
  | .bbc kc n => Sys2Proof.Machine.execBbc kc n s
  | .mark id => Sys2Proof.Machine.execMark id s
  | .fadd g => Sys2Proof.Machine.execFadd g s
  | .fsub g => Sys2Proof.Machine.execFsub g s
  | .fmul g => Sys2Proof.Machine.execFmul g s
  | .fma g => Sys2Proof.Machine.execFma g s
  | .fms g => Sys2Proof.Machine.execFms g s
  | .fnma g => Sys2Proof.Machine.execFnma g s
  | .fnms g => Sys2Proof.Machine.execFnms g s
  | .fmin g => Sys2Proof.Machine.execFmin g s
  | .fmax g => Sys2Proof.Machine.execFmax g s
  | .fminn g => Sys2Proof.Machine.execFminn g s
  | .fmaxn g => Sys2Proof.Machine.execFmaxn g s
  | .fceq g => Sys2Proof.Machine.execFceq g s
  | .fclt g => Sys2Proof.Machine.execFclt g s
  | .fcle g => Sys2Proof.Machine.execFcle g s
  | .fcun g => Sys2Proof.Machine.execFcun g s
  | .fclass g => Sys2Proof.Machine.execFclass g s
  | .vaddI32 g => Sys2Proof.Machine.execVaddI32 g s
  | .vsubI32 g => Sys2Proof.Machine.execVsubI32 g s
  | .vmulI32 g => Sys2Proof.Machine.execVmulI32 g s
  | .vand g => Sys2Proof.Machine.execVand g s
  | .vor g => Sys2Proof.Machine.execVor g s
  | .vxor g => Sys2Proof.Machine.execVxor g s
  | .vandn g => Sys2Proof.Machine.execVandn g s
  | .vshl g => Sys2Proof.Machine.execVshl g s
  | .vshr g => Sys2Proof.Machine.execVshr g s
  | .vsra g => Sys2Proof.Machine.execVsra g s
  | .vminI32 g => Sys2Proof.Machine.execVminI32 g s
  | .vmaxI32 g => Sys2Proof.Machine.execVmaxI32 g s
  | .vminN32 g => Sys2Proof.Machine.execVminN32 g s
  | .vmaxN32 g => Sys2Proof.Machine.execVmaxN32 g s
  | .vceqI32 g => Sys2Proof.Machine.execVceqI32 g s
  | .vcltI32 g => Sys2Proof.Machine.execVcltI32 g s
  | .vcltN32 g => Sys2Proof.Machine.execVcltN32 g s
  | .vmov g => Sys2Proof.Machine.execVmov g s
  | .vmovi g => Sys2Proof.Machine.execVmovi g s
  | .vbcs g => Sys2Proof.Machine.execVbcs g s
  | .vsel g => Sys2Proof.Machine.execVsel g s
  | .pack g => Sys2Proof.Machine.execPack g s
  | .unpack g => Sys2Proof.Machine.execUnpack g s
  | .perm g => Sys2Proof.Machine.execPerm g s
  | .bcl g => Sys2Proof.Machine.execBcl g s
  | .xcl g => Sys2Proof.Machine.execXcl g s
  | .vredAddF g => Sys2Proof.Machine.execVredAddF g s
  | .vredMaxF g => Sys2Proof.Machine.execVredMaxF g s
  | .vredAddI32 g => Sys2Proof.Machine.execVredAddI32 g s
  | .part g => Sys2Proof.Machine.execPart g s
  | .pand g => Sys2Proof.Machine.execPand g s
  | .por g => Sys2Proof.Machine.execPor g s
  | .pxor g => Sys2Proof.Machine.execPxor g s
  | .pandn g => Sys2Proof.Machine.execPandn g s
  | .ppop g => Sys2Proof.Machine.execPpop g s
  | .cvt g => Sys2Proof.Machine.execCvt g s
  | .rsqa g => Sys2Proof.Machine.execRsqa g s
  | .rcpa g => Sys2Proof.Machine.execRcpa g s
  | .exp2a g => Sys2Proof.Machine.execExp2a g s
  | .log2a g => Sys2Proof.Machine.execLog2a g s
  | .sina g => Sys2Proof.Machine.execSina g s
  | .cosa g => Sys2Proof.Machine.execCosa g s
  | .tanha g => Sys2Proof.Machine.execTanha g s
  | .mma g => Sys2Proof.Machine.execMma g s
  | .mmaAcc g => Sys2Proof.Machine.execMmaAcc g s
  | .mzero acc => Sys2Proof.Machine.execMzero acc s
  | .mdrain g => Sys2Proof.Machine.execMdrain g s
  | .msetF ent sr => Sys2Proof.Machine.execMsetF ent sr s
  | .msetC ent a => Sys2Proof.Machine.execMsetC ent a s
  | .msetS ent sr a => Sys2Proof.Machine.execMsetS ent sr a s
  | .rstat g => Sys2Proof.Machine.execRstat g s
  | .vld g => Sys2Proof.Machine.execVld g s
  | .vldB g => Sys2Proof.Machine.execVldB g s
  | .vldS g => Sys2Proof.Machine.execVldS g s
  | .vldx g => Sys2Proof.Machine.execVldx g s
  | .vst g => Sys2Proof.Machine.execVst g s
  | .vstS g => Sys2Proof.Machine.execVstS g s
  | .vstx g => Sys2Proof.Machine.execVstx g s
  | .sld g => Sys2Proof.Machine.execSld g s
  | .sst g => Sys2Proof.Machine.execSst g s
  | .spill g => Sys2Proof.Machine.execSpill g s
  | .fill g => Sys2Proof.Machine.execFill g s
  | .swait g sr => Sys2Proof.Machine.execSwait g sr s
  | .spost sr scope count => Sys2Proof.Machine.execSpost sr scope count s
  | .sarm g sr => Sys2Proof.Machine.execSarm g sr s
  | .sarmZ g sr => Sys2Proof.Machine.execSarmZ g sr s
  | .podLinkFailure io lane => Sys2Proof.Machine.execPodLinkFailure io lane s
  | .incomingPodAccess a => Sys2Proof.Machine.execIncomingPodAccess a s
  | .podAcknowledgement id => Sys2Proof.Machine.execPodAcknowledgement id s
  | .pcieLinkTraining lanes gts => Sys2Proof.Machine.execPcieLinkTraining lanes gts s
  | .msiXUnmask f v => Sys2Proof.Machine.execMsiXUnmask f v s
  | .powerLimitThrottle die on => Sys2Proof.Machine.execPowerLimitThrottle die on s
  | .illegalInstruction w => Sys2Proof.Machine.execIllegalInstruction w s
  | .ienc w => Sys2Proof.Machine.execIenc w s
  | .packageReset => Sys2Proof.Machine.execPackageReset s
  | .invalidationDone => Sys2Proof.Machine.execInvalidationDone s
  | .preempt => Sys2Proof.Machine.execPreempt s
  | .contextSave => Sys2Proof.Machine.execContextSave s
  | .resume => Sys2Proof.Machine.execResume s
  | .dump => Sys2Proof.Machine.execDump s
  | .discard => Sys2Proof.Machine.execDiscard s
  | .abort => Sys2Proof.Machine.execAbort s
  | .dumpComplete => Sys2Proof.Machine.execDumpComplete s
  | .attach => Sys2Proof.Machine.execAttach s
  | .detach => Sys2Proof.Machine.execDetach s
  | .halt => Sys2Proof.Machine.execHalt s
  | .haltq => Sys2Proof.Machine.execHaltq s
  | .haltTakesEffect => Sys2Proof.Machine.execHaltTakesEffect s
  | .haltqStable => Sys2Proof.Machine.execHaltqStable s
  | .cont => Sys2Proof.Machine.execCont s
  | .step => Sys2Proof.Machine.execStep s
  | .rdst => Sys2Proof.Machine.execRdst s
  | .wrst => Sys2Proof.Machine.execWrst s
  | .cancel => Sys2Proof.Machine.execCancel s
  | .setbp => Sys2Proof.Machine.execSetbp s
  | .setwp => Sys2Proof.Machine.execSetwp s
  | .catchStops => Sys2Proof.Machine.execCatchStops s
  | .acct => Sys2Proof.Machine.execAcct s
  | .getVersion => Sys2Proof.Machine.execGetVersion s
  | .getCapabilities => Sys2Proof.Machine.execGetCapabilities s
  | .getDigests => Sys2Proof.Machine.execGetDigests s
  | .allocationAttempt => Sys2Proof.Machine.execAllocationAttempt s
  | .blockingHead => Sys2Proof.Machine.execBlockingHead s
  | .taskRetirement => Sys2Proof.Machine.execTaskRetirement s
  | .tileMove => Sys2Proof.Machine.execTileMove s
  | .heldTrafficRelease => Sys2Proof.Machine.execHeldTrafficRelease s
  | .lateTransition => Sys2Proof.Machine.execLateTransition s
  | .ratingStep => Sys2Proof.Machine.execRatingStep s
  | .rateFloorRetirement => Sys2Proof.Machine.execRateFloorRetirement s
  | .distributorWeightUpdate => Sys2Proof.Machine.execDistributorWeightUpdate s
  | .rateSheetWrite => Sys2Proof.Machine.execRateSheetWrite s
  | .thermalThrottle => Sys2Proof.Machine.execThermalThrottle s
  | .thermalShutdown => Sys2Proof.Machine.execThermalShutdown s
  | .watchdog => Sys2Proof.Machine.execWatchdog s
  | .dealStep => Sys2Proof.Machine.execDealStep s
  | .reclaim => Sys2Proof.Machine.execReclaim s
  | .sectorStart => Sys2Proof.Machine.execSectorStart s
  | .contextSelect => Sys2Proof.Machine.execContextSelect s
  | .segmentBudgetSwitch => Sys2Proof.Machine.execSegmentBudgetSwitch s
  | .runStart => Sys2Proof.Machine.execRunStart s
  | .runComplete => Sys2Proof.Machine.execRunComplete s
  | .drainIssue => Sys2Proof.Machine.execDrainIssue s
  | .landing => Sys2Proof.Machine.execLanding s
  | .accessCycle => Sys2Proof.Machine.execAccessCycle s
  | .bankFreeze => Sys2Proof.Machine.execBankFreeze s
  | .spillAccessDone => Sys2Proof.Machine.execSpillAccessDone s
  | .fetchFreeze => Sys2Proof.Machine.execFetchFreeze s
  | .swaitRelease => Sys2Proof.Machine.execSwaitRelease s
  | .lateStop => Sys2Proof.Machine.execLateStop s
  | .sample => Sys2Proof.Machine.execSample s
  | .pauseEnd => Sys2Proof.Machine.execPauseEnd s
  | .kSwaitTimeout => Sys2Proof.Machine.execKSwaitTimeout s
  | .kTlwaitTimeout => Sys2Proof.Machine.execKTlwaitTimeout s
  | .kBarwTimeout => Sys2Proof.Machine.execKBarwTimeout s
  | .ecall => Sys2Proof.Machine.execEcall s
  | .ebreak => Sys2Proof.Machine.execEbreak s
  | .wfi => Sys2Proof.Machine.execWfi s
  | .kFret => Sys2Proof.Machine.execKFret s
  | .kJoin => Sys2Proof.Machine.execKJoin s
  | .kExit => Sys2Proof.Machine.execKExit s
  | .noOperation => Sys2Proof.Machine.execNoOperation s
  | .yield => Sys2Proof.Machine.execYield s
  | .powerLoss => Sys2Proof.Machine.execPowerLoss s
  | .orderlyShutdown => Sys2Proof.Machine.execOrderlyShutdown s
  | .thermalRecovery => Sys2Proof.Machine.execThermalRecovery s
  | .wcol => Sys2Proof.Machine.execWcol s

end Sys2Proof.Machine
end

