-- ==== Sys2Proof/Machine/Sched.lean ====
section
/-! DEFINITION. What the package does next: clock cycles, events that are due, the passing of time. Every step of the
package executes one row of the table, or makes one of the small bookkeeping moves below (assumptions 1 and 27). -/

namespace Sys2Proof.Machine

/-! ### One piece of work -/

/-- An event that is not there is no event: the state stays. -/
def absent (s : State) (o : Out) : Out :=
  match o with
  | .fault .notDue => .next s
  | .fault .noContext => .next s
  | o => o

/-- A row is executed for its focus. -/
def State.runRow (s : State) (i : Instr) (f : Focus) : Out := exec i { s with focus := f }

/-- A hart's issue: the instruction at its pc is fetched, decoded and executed (R61). -/
def State.runHart (s : State) (t c : Nat) : Out :=
  if (s.ctx? t c).isNone then .next s
  else match s.hartWork t c with
    | (s, none) => .next s
    | (s, some (i, len)) => s.runRow i { tile := t, ctx := c, slot := 8, len := len, fn := 0 }

/-- A slot of the bundle that issues (R170). -/
def State.runSlot (s : State) (t c n : Nat) : Out :=
  match s.slotWork t c n with
  | (s, none) => .next s
  | (s, some (i, m)) => s.runRow i { tile := t, ctx := c, slot := m, len := 4, fn := 0 }

/-- The rows of credits of tile t's harts to its own semaphores. -/
def State.localCredits (s : State) (t : Nat) : List Work := (s.creditsDue t).map fun m => rowAt (.semaphoreCredit m.id) t 0

/-- A clock cycle of tile t, while its rate pays for one (R12, R42): credits and waits that end, the bundle engine, the control
core, the copy engine (R115); then, if the rate pays for it, the next. -/
def State.runCycle (s : State) (t : Nat) : State :=
  let x := s.tile t
  let cost := x.cost
  if x.failed.isSome ∨ !s.enabled t ∨ x.phase < cost then s
  else
    let s := s.modTile t fun x => { x with phase := x.phase - cost, charges := [] }
    (s.push (s.localCredits t ++ [.wake t, .engine t, .control t, .copies t, .endCycle t])).later [.cycle t]

/-- The bundle engine's credits of this clock cycle to semaphores of its own tile, behind the control core (R115). -/
def State.engineCredits (s : State) (t : Nat) : State :=
  let l := (s.engine t).credits
  let s := s.modEngine t fun e => { e with credits := [] }
  l.foldl (fun (u : State) e => u.creditSem t e.1 e.2 (u.dieClock (u.dieOf t))) s

/-- Credits are applied; then the copy engine in its clock cycle: head checks, and at most one sector starts (R115, R131,
R133). -/
def State.copiesTurn (s : State) (t : Nat) : State :=
  let s := s.engineCredits t
  let checks := (tabKeys (s.tile t).ctxs).flatMap fun k =>
    ([0, 1, 2, 3].filter fun ch => !((s.ctx t k).chan ch).isEmpty && (s.mayStart t k)).map fun ch => rowAt (.copyHeadCheck t k ch) t k
  s.push (checks ++ [rowAt .sectorStart t 0])

/-- The end of a clock cycle; a cycle that was repeated without error ends the repeats (R379). -/
def State.finishCycle (s : State) (t : Nat) : State := (s.closeCycle t).modTile t fun x => { x with errs := 0 }

/-- The record of a halt: its code and DSTAT as it stands (R366, R372). -/
def State.haltRecord (s : State) (t c : Nat) : State :=
  let x := s.ctx t c
  s.ring (s.ringFn t c) t
    { kind := 6, id := 0, slot := 15, pc := x.hart.pc.toNat, cause := 31, ctx := x.num, data0 := BitVec.ofNat 64 x.dbg.code,
      data1 := s.dstatWord t x.num }

/-- Do one piece of work. -/
def State.runWork (s : State) (w : Work) : Out :=
  match w with
  | .row i f => absent s (s.runRow i f)
  | .hart t c => s.runHart t c
  | .slot t c n => s.runSlot t c n
  | .endBundle t _ => .next (s.endIssue t)
  | .cycle t => .next (s.runCycle t)
  | .wake t => .next (s.push (s.wakes t))
  | .engine t => .next (s.engineTurn t)
  | .control t => .next (s.controlTurn t)
  | .copies t => .next (s.copiesTurn t)
  | .endCycle t => .next (s.finishCycle t)
  | .haltRecord t c => .next (s.haltRecord t c)

/-! ### Events that are due -/

def row0 (i : Instr) : Work := .row i Focus.reset

/-- The row that applies a message. -/
def Msg.row (m : Msg) : Option Instr :=
  if m.isLocal then none
  else if m.home = .pod then some (.podAcknowledgement m.id)
  else match m.body with
    | .write _ _ _ (some _) => some (.routeApply m.id)
    | .write _ _ _ none | .post _ _ _ _ | .sector _ _ => some (.writeApply m.id)
    | .atomic _ _ _ _ _ _ _ | .count _ _ _ _ _ _ _ => some (.remoteAtomic m.id)
    | .read _ _ _ _ | .fetch _ _ _ => some (.readServe m.id)
    | .response _ _ => some (.readResponse m.id)
    | .put _ _ _ _ => some (.futurePutApply m.id)
    | .credit _ _ _ | .semErr _ _ => some (.semaphoreCredit m.id)
    | .frontier _ => some (.frontierUpdate m.id)
    | .arrival _ => some (.barrierArrival m.id)
    | .retired _ => some (.retirementMessage m.id)
    | .completion _ _ _ _ _ => some (.barrierCompletion m.id)

/-- Rows of messages, routes and host requests. -/
def State.dueTraffic (s : State) : List Work :=
  (s.net.filterMap fun m => m.row.map row0)
    ++ ((s.routes.filter fun r => r.home.isNone).map fun r => row0 (.routeApply r.id))
    ++ ((s.routes.filter fun r => r.applied).map fun r => row0 (.routeAck r.id))
    ++ s.pending.filterMap fun q => match q with
        | .read r _ _ => some (row0 (.hostRead r))
        | .write _ | .pod _ _ | .podWrite _ _ => none

/-- Rows of sectors: moves, parts that stack engines are still to send, landings, timeouts (R132, R168, R337). -/
def State.dueSectors (s : State) : List Work :=
  s.tiles.flatMap fun e => e.2.sectors.flatMap fun x =>
    if x.moved then [row0 (.sectorLanded x.id), row0 (.podSectorTimeout x.id)]
    else if !x.todo.isEmpty then [rowAt (stackRow e.1 x.ctx x.ord x.packet) e.1 x.ctx]
    else [rowAt (moveRow x.packet x.id) e.1 x.ctx, row0 (.podSectorTimeout x.id)]

/-- Rows of the contexts of tiles: stack queues, retirement, departed sets, the watchdog, moves. -/
def State.dueTiles (s : State) : List Work :=
  s.tiles.flatMap fun e =>
    (e.2.ctxs.flatMap fun x =>
      let stack := match workingEntry 5 (x.2.chan 5) with
        | some n => if n.checked then [rowAt (stackRow e.1 x.1 n.ord n.packet) e.1 x.1] else [rowAt (.copyHeadCheck e.1 x.1 5) e.1 x.1]
        | none => []
      stack ++ [rowAt (.stackEntryLeave e.1 x.1) e.1 x.1, rowAt .taskRetirement e.1 x.1, rowAt (.departedSetFlush e.1 x.1) e.1 x.1]
        ++ if (s.hartOverdue e.1 x.1).isSome ∨ (s.bundleOverdue e.1 x.1).isSome then [rowAt .watchdog e.1 x.1] else [])
    ++ (if e.2.failed.isSome ∧ s.spillDone e.1 then [rowAt .spillAccessDone e.1 0] else [])
    ++ if e.2.moveWait.isNone ∨ (s.moveChoice e.1).isSome then [rowAt .tileMove e.1 0] else []

/-- Rows of HBM that are to be repaired and that a spare row is left for (R388). -/
def State.dueRepairs (s : State) : List Work :=
  let rows := ((s.rowErrs.filterMap fun r => if 4 ≤ r.2.2 then some (r.1, r.2.1) else none) ++ s.rewritten).eraseDups
  (rows.filter fun r => s.mayRepair r.1 r.2 && decide (s.bankUsed r.1 r.2 < 32)).map fun r => row0 (.rowRepair r.1 r.2)

/-- Rows of the launch unit, the distributor and the sessions. -/
def State.dueLaunches (s : State) : List Work :=
  (s.queues.map fun e => row0 (.launchHeadValidation e.1)) ++ [row0 .blockingHead]
    ++ (s.reclaimsDue.map fun e => rowAt .reclaim e.2 0)
    ++ (s.sessions.flatMap fun x => x.engines.map fun h => row0 (.sessionFold x.id h))

/-- Whether a page's command must wait: PREEMPT for a boundary. -/
def State.ctlWaits (s : State) (f : Nat) (w : W64) : Bool :=
  match cmdRow w with
  | .preempt => match s.owned? f (cmdTile w) (cmdCtx w) with
    | some k => s.preemptWaits (cmdTile w) k
    | none => false
  | _ => false

/-- The row that takes a command under way further. -/
def busyRow (w : W64) (f : Nat) : List Work :=
  match cmdRow w with
  | .preempt => [rowFn .contextSave f]
  | .dump => [rowFn .dumpComplete f]
  | _ => []

/-- Rows of the function pages (R346, R372). -/
def State.duePages (s : State) : List Work :=
  (tabKeys s.pages).flatMap fun f =>
    let p := s.page f
    let ctl := match p.ctl? with
      | some w => if p.busy then busyRow w f else if s.ctlWaits f w then [] else [rowFn (cmdRow w) f]
      | none => []
    let dbg := match p.dbg? with
      | some (w, _, _) => if p.dbusy then [rowFn .haltqStable f] else ((dbgRow w).toList.map fun i => rowFn i f)
      | none => []
    ctl ++ dbg

/-- Whether a row answers a next state. -/
def State.isDue (s : State) (w : Work) : Bool := match w with
  | .row i f => match s.runRow i f with
    | .next _ => true
    | _ => false
  | _ => true

/-- Every event that is due, in a fixed order. -/
def State.due (s : State) : List Work :=
  (s.dueTraffic ++ s.dueSectors ++ s.dueTiles ++ s.dueLaunches ++ s.duePages ++ s.dueRepairs ++ [row0 .invalidationDone]).filter s.isDue

/-! ### Bookkeeping -/

/-- Commands of page f end: a RESUME whose write has been performed, a debug command that names no operation or whose
context has halted again. -/
def State.tidyPage (s : State) (f : Nat) : State :=
  let u := s.resumeEnds f
  let u := if (u.page f).dbusy then u else u.badDebug f
  match u.debugEnds f with
  | some (w, code) => u.dbgDone f w code
  | none => u

/-- Messages whose accesses are performed leave their tiles; writes the ordering point held pass it; waiting reads of other
packages are served; commands end. -/
def State.tidy (s : State) : State :=
  (tabKeys s.pages).foldl State.tidyPage (s.leaveTiles.admitHeld s.pending.length).servePods

/-! ### Time -/

/-- Components of clock v that a home's frontier does not cover, but component j. -/
def uncovered (f v : Clock) (j : Nat) : List Nat :=
  (List.range 10).filter fun k => decide (k ≠ j) && decide (2 ^ 31 ≤ (f.at k - v.at k).toNat)

/-- Whether a wait that began at a tick has lasted a whole number of 64 ticks (R118). -/
def asksAt (now since : Nat) : Bool := decide (since < now) && decide ((now - since) % 64 = 0)

/-- The reads of the folds that context k of tile t has due, with the clock they carry (R119, R147). -/
def State.foldWaits (s : State) (t k : Nat) : List (List Home × Clock) :=
  s.sessions.flatMap fun x =>
    if x.owner ≠ (t, k) then []
    else (x.engines.filter fun h => s.foldDue x h).filterMap fun h => match s.planOpen t k x.cmd with
      | (u, .ok (dst, aux)) => some ((foldReads x h dst aux).map Piece.home, u.stackClock t dst)
      | (_, .error _) => none

/-- The reads of the stack command that context k of tile t has next, with the clock they carry (R109, R119). -/
def State.stackWaits (s : State) (t k : Nat) : List Home × Clock :=
  match workingEntry 5 ((s.ctx t k).chan 5) with
  | none => ([], Clock.zero)
  | some e =>
    if !e.checked ∨ skOp e.packet = 4 then ([], Clock.zero)
    else match s.planStack t k e.packet e.nextSector with
      | (_, .error _) => ([], Clock.zero)
      | (u, .ok (blocks, dst)) => ((stackReads e.packet blocks dst).map Piece.home, u.stackClock t dst)

/-- Homes and the sources whose components something waits for: messages, sectors, stack commands, reads of the host and of
other packages, the last three asked for at every 64th tick (R118, R119; assumption 27). -/
def State.waitedFor (s : State) : List (Home × Nat) :=
  let msgs := s.net.flatMap fun m =>
    if m.after.isEmpty ∧ asksAt s.now m.sent then
      let j := if m.isRead then 10 else m.src
      if s.covered m then [] else (uncovered (s.frontier m.home) m.clock j).map fun k => (m.home, k)
    else []
  let sectors := s.tiles.flatMap fun e => e.2.sectors.flatMap fun x =>
    if !x.moved ∧ asksAt s.now x.started then
      x.src.flatMap fun y => (uncovered (s.frontier y.home) x.clock 10).map fun k => (y.home, k)
    else []
  let ask (hs : List Home) (k : Clock) : List (Home × Nat) := hs.flatMap fun h => (uncovered (s.frontier h) k 10).map fun j => (h, j)
  let reads := if s.now % 64 ≠ 0 then [] else s.pending.flatMap fun q => match q with
    | .read r _ k => if r.bar = .bar2 then ask ((s.readHomes r).map Prod.fst) k else []
    | .pod a k => ask ((s.cutHomes a.addr (List.replicate a.len none)).map Prod.fst) k
    | .write _ | .podWrite _ _ => []
  let commands := if s.now % 64 ≠ 0 then [] else s.tiles.flatMap fun e => e.2.ctxs.flatMap fun x =>
    if (x.2.chan 5).isEmpty then []
    else ask (s.stackWaits e.1 x.1).1 (s.stackWaits e.1 x.1).2 ++ (s.foldWaits e.1 x.1).flatMap fun w => ask w.1 w.2
  (msgs ++ sectors ++ reads ++ commands).eraseDups

/-- Every home, but the pod: stacks, tiles, barrier nodes, host memory (R110, R294). -/
def State.homes (s : State) : List Home :=
  (List.range 24).map Home.stack ++ (List.range s.n0).map Home.tile ++ (List.range 10).map Home.node ++ [.host]

/-- The frontier messages of a period: from every source to every home whose frontier does not show the source's component
as it stands; where it does, the message would change nothing (R118). -/
def State.frontierRows (s : State) : List Work :=
  s.homes.flatMap fun h =>
    let f := s.frontier h
    ((List.range 10).filter fun j => decide (f.at j ≠ (s.dieClock j).at j)).map fun j => row0 (.frontierMessage j (homeCode h))

/-- Rows that come with a tick: deal steps, attempts, frontier messages and requests, rating steps (R118, R291, R330, R382). -/
def State.tickRows (s : State) : List Work :=
  let n := s.now
  (if n % 2 = 0 ∧ s.hungryLaunches.any (fun l => match s.parcelsOf l with
      | some p => decide (p.next < p.total)
      | none => false) then [row0 .dealStep] else [])
    ++ (if n % 2 ^ 16 = 0 ∧ !s.heads.isEmpty then [row0 .allocationAttempt] else [])
    ++ (s.waitedFor.map fun e => row0 (.frontierRequest (homeCode e.1) e.2))
    ++ (if n % 256 = 0 then s.frontierRows else [])
    ++ (if n % 2 ^ 20 = 0 then (s.enabledTiles.filter fun t => (s.tile t).failed.isNone).map fun t => rowAt .ratingStep t 0 else [])

def ticksPerMinute : Nat := 60000000000
def ticksPerHour : Nat := 3600000000000

/-- One more powered minute of a die in a bin of the temperature histogram (R386). -/
def countMinute (free : Nat) (l : Tab Nat) (d : Nat) : Tab Nat :=
  let k := 16 * d + Config.tempBin (free + d) % 16
  tabPut l k (sat32Nat (tabGet 0 l k + 1))

/-- A powered minute: the temperatures, and the corrected errors met in it, which are free values (R386; assumption 68). -/
def State.minute (s : State) : State :=
  let temps := (List.range 10).foldl (countMinute s.free) s.lifetime.temps
  let met := Config.corrected s.free
  met.foldl State.noteCorrected { s with free := s.free + 10, lifetime := { s.lifetime with temps := temps } }

/-- A powered hour; the sheets are written every 24 (R384, R386). -/
def State.hour (s : State) : State :=
  let s : State := { s with lifetime := { s.lifetime with hours := sat32Nat (s.lifetime.hours + 1) } }
  if s.lifetime.hours % 24 = 0 then s.later ((List.range 384).map fun p => sheetRow p 0) else s

/-- Powered minutes and hours. -/
def State.age (s : State) : State :=
  let s := if s.now % ticksPerMinute = 0 then s.minute else s
  if s.now % ticksPerHour = 0 then s.hour else s

/-- One tick passes: every tile's rate pays for clock cycles (R42). -/
def State.tick (s : State) : State :=
  let s := { s with now := s.now + 1 }.age
  let live := s.enabledTiles.filter fun t => (s.tile t).failed.isNone
  let s := live.foldl (fun (u : State) t => u.modTile t fun x => { x with phase := x.phase + s.weight t }) s
  s.later (s.tickRows ++ live.map Work.cycle)

/-! ### One step -/

/-- The next choice of the outside world; none left: the oldest. -/
def State.draw (s : State) : Nat × State :=
  match s.script with
  | [] => (0, s)
  | v :: l => (v, { s with script := l })

/-- The next clock cycle under way in this tick. -/
def State.nextCycle (s : State) : Option Work := s.agenda.find? fun w => match w with
  | .cycle _ => true
  | _ => false

/-- The work chosen: from the agenda, then from what is due; none: a tick, once no clock cycle is left. -/
def State.choice (s : State) (v : Nat) : Option Work × State :=
  match s.agenda[v]? with
  | some w => (some w, { s with agenda := s.agenda.eraseIdx v })
  | none => match s.due[v - s.agenda.length]? with
    | some w => (some w, s)
    | none => match s.nextCycle with
      | some w => (some w, { s with agenda := s.agenda.erase w })
      | none => (none, s)

/-- What happens when nothing is under way. -/
def State.turn (s : State) : Out :=
  let d := s.tidy.draw
  match d.2.choice d.1 with
  | (some w, s) => s.runWork w
  | (none, s) => .next s.tick

/-- Without power nothing happens but a package reset (R4). -/
def State.unpowered (s : State) : Out :=
  match s.agenda.find? fun w => match w with
    | .row .packageReset _ => true
    | _ => false with
  | some w => { s with agenda := s.agenda.erase w }.runWork w
  | none => .fault .noPower

/-- One step of the package. -/
def State.proceed (s : State) : Out :=
  if s.boot = .off ∨ s.boot = .lost then s.unpowered
  else match s.micro with
    | w :: l => { s with micro := l }.runWork w
    | [] => s.turn

/-! ### A word in the place of the next instruction -/

/-- The launch that withFetchWord places: one context of one unit, a carve of 4 KiB. -/
def probeRecord : LaunchRec := BitVec.ofNat 2048 (2 ^ 16 + 2 ^ 320 + 2 ^ 368)

/-- Context 0 of tile 0 with a launch, as after a launch start (R53, R54). -/
def State.withProbe (s : State) : State :=
  if (s.ctx? 0 0).isSome then s
  else
    let l := s.nextLaunch
    let s : State := { s with nextLaunch := l + 1, launches := s.launches ++
      [{ Launch.none with id := l, record := probeRecord, tiles := [0], left := 1 }] }
    s.setCtx 0 0 (s.startCtx l probeRecord 0 0 0 0 1)

/-- The four bytes of w at the pc of hart 0 of tile 0, whose issue is what happens next. -/
def State.placeWord (s : State) (w : Nat) : State :=
  let s := s.withProbe
  let pc := (s.hart 0 0).pc.toNat
  let s := s.modTile 0 fun x => { x with imem := (List.range 4).foldl (fun m i =>
    cellWrite m (pc + i) (BitVec.ofNat 8 (w / 256 ^ i))) x.imem }
  { s with boot := .running, micro := [.hart 0 0] }

end Sys2Proof.Machine
end

