-- ==== Sys2Proof/Machine/Step.lean ====
section
/-! DEFINITION. One step of the package. -/

namespace Sys2Proof.Machine

/-- One step: the work under way, else an event that is due, else a tick. -/
def step (s : State) : Host.Outcome State Fault Refusal := s.proceed

/-- s with an instruction of the control core whose first nbits bits are w at the pc of hart 0 of tile 0, where the next step
fetches. A program comes to tile 0 by a launch; this stands for one (assumption 26). -/
def State.withFetchWord (s : State) (nbits w : Nat) : State := s.placeWord (w % 2 ^ nbits)

end Sys2Proof.Machine
end

