-- ==== Sys2Proof/Laws/State.lean ====
section
/-! SUPPORT. What each update of the state leaves as it was: one lemma for a field and an update, true by definition. -/

namespace Sys2Proof.Machine

/-! ### setTile -/

@[simp] theorem State.setTile_micro (s : State) (t : Nat) (x : Tile) : (s.setTile t x).micro = s.micro := rfl
@[simp] theorem State.setTile_agenda (s : State) (t : Nat) (x : Tile) : (s.setTile t x).agenda = s.agenda := rfl
@[simp] theorem State.setTile_script (s : State) (t : Nat) (x : Tile) : (s.setTile t x).script = s.script := rfl
@[simp] theorem State.setTile_free (s : State) (t : Nat) (x : Tile) : (s.setTile t x).free = s.free := rfl
@[simp] theorem State.setTile_focus (s : State) (t : Nat) (x : Tile) : (s.setTile t x).focus = s.focus := rfl
@[simp] theorem State.setTile_now (s : State) (t : Nat) (x : Tile) : (s.setTile t x).now = s.now := rfl
@[simp] theorem State.setTile_boot (s : State) (t : Nat) (x : Tile) : (s.setTile t x).boot = s.boot := rfl
@[simp] theorem State.setTile_cls (s : State) (t : Nat) (x : Tile) : (s.setTile t x).cls = s.cls := rfl
@[simp] theorem State.setTile_limits (s : State) (t : Nat) (x : Tile) : (s.setTile t x).limits = s.limits := rfl
@[simp] theorem State.setTile_mem (s : State) (t : Nat) (x : Tile) : (s.setTile t x).mem = s.mem := rfl
@[simp] theorem State.setTile_hostMem (s : State) (t : Nat) (x : Tile) : (s.setTile t x).hostMem = s.hostMem := rfl
@[simp] theorem State.setTile_hostOut (s : State) (t : Nat) (x : Tile) : (s.setTile t x).hostOut = s.hostOut := rfl
@[simp] theorem State.setTile_ecc (s : State) (t : Nat) (x : Tile) : (s.setTile t x).ecc = s.ecc := rfl
@[simp] theorem State.setTile_n0 (s : State) (t : Nat) (x : Tile) : (s.setTile t x).n0 = s.n0 := rfl
@[simp] theorem State.setTile_fenced (s : State) (t : Nat) (x : Tile) : (s.setTile t x).fenced = s.fenced := rfl
@[simp] theorem State.setTile_place (s : State) (t : Nat) (x : Tile) : (s.setTile t x).place = s.place := rfl
@[simp] theorem State.setTile_dealt (s : State) (t : Nat) (x : Tile) : (s.setTile t x).dealt = s.dealt := rfl
@[simp] theorem State.setTile_chosen (s : State) (t : Nat) (x : Tile) : (s.setTile t x).chosen = s.chosen := rfl
@[simp] theorem State.setTile_sites (s : State) (t : Nat) (x : Tile) : (s.setTile t x).sites = s.sites := rfl
@[simp] theorem State.setTile_holding (s : State) (t : Nat) (x : Tile) : (s.setTile t x).holding = s.holding := rfl
@[simp] theorem State.setTile_held (s : State) (t : Nat) (x : Tile) : (s.setTile t x).held = s.held := rfl
@[simp] theorem State.setTile_safeCeiling (s : State) (t : Nat) (x : Tile) : (s.setTile t x).safeCeiling = s.safeCeiling := rfl
@[simp] theorem State.setTile_dies (s : State) (t : Nat) (x : Tile) : (s.setTile t x).dies = s.dies := rfl
@[simp] theorem State.setTile_frontiers (s : State) (t : Nat) (x : Tile) : (s.setTile t x).frontiers = s.frontiers := rfl
@[simp] theorem State.setTile_lines (s : State) (t : Nat) (x : Tile) : (s.setTile t x).lines = s.lines := rfl
@[simp] theorem State.setTile_net (s : State) (t : Nat) (x : Tile) : (s.setTile t x).net = s.net := rfl
@[simp] theorem State.setTile_nextId (s : State) (t : Nat) (x : Tile) : (s.setTile t x).nextId = s.nextId := rfl
@[simp] theorem State.setTile_queues (s : State) (t : Nat) (x : Tile) : (s.setTile t x).queues = s.queues := rfl
@[simp] theorem State.setTile_launches (s : State) (t : Nat) (x : Tile) : (s.setTile t x).launches = s.launches := rfl
@[simp] theorem State.setTile_nextLaunch (s : State) (t : Nat) (x : Tile) : (s.setTile t x).nextLaunch = s.nextLaunch := rfl
@[simp] theorem State.setTile_parcels (s : State) (t : Nat) (x : Tile) : (s.setTile t x).parcels = s.parcels := rfl
@[simp] theorem State.setTile_rotation (s : State) (t : Nat) (x : Tile) : (s.setTile t x).rotation = s.rotation := rfl
@[simp] theorem State.setTile_episodes (s : State) (t : Nat) (x : Tile) : (s.setTile t x).episodes = s.episodes := rfl
@[simp] theorem State.setTile_reports (s : State) (t : Nat) (x : Tile) : (s.setTile t x).reports = s.reports := rfl
@[simp] theorem State.setTile_retiredTasks (s : State) (t : Nat) (x : Tile) : (s.setTile t x).retiredTasks = s.retiredTasks := rfl
@[simp] theorem State.setTile_pages (s : State) (t : Nat) (x : Tile) : (s.setTile t x).pages = s.pages := rfl
@[simp] theorem State.setTile_pending (s : State) (t : Nat) (x : Tile) : (s.setTile t x).pending = s.pending := rfl
@[simp] theorem State.setTile_writes (s : State) (t : Nat) (x : Tile) : (s.setTile t x).writes = s.writes := rfl
@[simp] theorem State.setTile_routes (s : State) (t : Nat) (x : Tile) : (s.setTile t x).routes = s.routes := rfl
@[simp] theorem State.setTile_completions (s : State) (t : Nat) (x : Tile) : (s.setTile t x).completions = s.completions := rfl
@[simp] theorem State.setTile_asids (s : State) (t : Nat) (x : Tile) : (s.setTile t x).asids = s.asids := rfl
@[simp] theorem State.setTile_asidHigh (s : State) (t : Nat) (x : Tile) : (s.setTile t x).asidHigh = s.asidHigh := rfl
@[simp] theorem State.setTile_invals (s : State) (t : Nat) (x : Tile) : (s.setTile t x).invals = s.invals := rfl
@[simp] theorem State.setTile_invdone (s : State) (t : Nat) (x : Tile) : (s.setTile t x).invdone = s.invdone := rfl
@[simp] theorem State.setTile_frdrop (s : State) (t : Nat) (x : Tile) : (s.setTile t x).frdrop = s.frdrop := rfl
@[simp] theorem State.setTile_keys (s : State) (t : Nat) (x : Tile) : (s.setTile t x).keys = s.keys := rfl
@[simp] theorem State.setTile_kstage (s : State) (t : Nat) (x : Tile) : (s.setTile t x).kstage = s.kstage := rfl
@[simp] theorem State.setTile_kdone (s : State) (t : Nat) (x : Tile) : (s.setTile t x).kdone = s.kdone := rfl
@[simp] theorem State.setTile_kres (s : State) (t : Nat) (x : Tile) : (s.setTile t x).kres = s.kres := rfl
@[simp] theorem State.setTile_podid (s : State) (t : Nat) (x : Tile) : (s.setTile t x).podid = s.podid := rfl
@[simp] theorem State.setTile_admission (s : State) (t : Nat) (x : Tile) : (s.setTile t x).admission = s.admission := rfl
@[simp] theorem State.setTile_sessions (s : State) (t : Nat) (x : Tile) : (s.setTile t x).sessions = s.sessions := rfl
@[simp] theorem State.setTile_stackTurn (s : State) (t : Nat) (x : Tile) : (s.setTile t x).stackTurn = s.stackTurn := rfl
@[simp] theorem State.setTile_linkLanes (s : State) (t : Nat) (x : Tile) : (s.setTile t x).linkLanes = s.linkLanes := rfl
@[simp] theorem State.setTile_linkRate (s : State) (t : Nat) (x : Tile) : (s.setTile t x).linkRate = s.linkRate := rfl
@[simp] theorem State.setTile_podDown (s : State) (t : Nat) (x : Tile) : (s.setTile t x).podDown = s.podDown := rfl
@[simp] theorem State.setTile_deadLinks (s : State) (t : Nat) (x : Tile) : (s.setTile t x).deadLinks = s.deadLinks := rfl
@[simp] theorem State.setTile_repaired (s : State) (t : Nat) (x : Tile) : (s.setTile t x).repaired = s.repaired := rfl
@[simp] theorem State.setTile_rowErrs (s : State) (t : Nat) (x : Tile) : (s.setTile t x).rowErrs = s.rowErrs := rfl
@[simp] theorem State.setTile_rewritten (s : State) (t : Nat) (x : Tile) : (s.setTile t x).rewritten = s.rewritten := rfl
@[simp] theorem State.setTile_lanesUsed (s : State) (t : Nat) (x : Tile) : (s.setTile t x).lanesUsed = s.lanesUsed := rfl
@[simp] theorem State.setTile_lifetime (s : State) (t : Nat) (x : Tile) : (s.setTile t x).lifetime = s.lifetime := rfl
@[simp] theorem State.setTile_mram (s : State) (t : Nat) (x : Tile) : (s.setTile t x).mram = s.mram := rfl
@[simp] theorem State.setTile_secVersion (s : State) (t : Nat) (x : Tile) : (s.setTile t x).secVersion = s.secVersion := rfl
@[simp] theorem State.setTile_imageNo (s : State) (t : Nat) (x : Tile) : (s.setTile t x).imageNo = s.imageNo := rfl
@[simp] theorem State.setTile_spdmVersion (s : State) (t : Nat) (x : Tile) : (s.setTile t x).spdmVersion = s.spdmVersion := rfl
@[simp] theorem State.setTile_spdmAlgs (s : State) (t : Nat) (x : Tile) : (s.setTile t x).spdmAlgs = s.spdmAlgs := rfl
@[simp] theorem State.setTile_spdmLog (s : State) (t : Nat) (x : Tile) : (s.setTile t x).spdmLog = s.spdmLog := rfl
@[simp] theorem State.setTile_sideband (s : State) (t : Nat) (x : Tile) : (s.setTile t x).sideband = s.sideband := rfl

/-! ### modTile -/

@[simp] theorem State.modTile_micro (s : State) (t : Nat) (f : Tile → Tile) : (s.modTile t f).micro = s.micro := rfl
@[simp] theorem State.modTile_agenda (s : State) (t : Nat) (f : Tile → Tile) : (s.modTile t f).agenda = s.agenda := rfl
@[simp] theorem State.modTile_script (s : State) (t : Nat) (f : Tile → Tile) : (s.modTile t f).script = s.script := rfl
@[simp] theorem State.modTile_free (s : State) (t : Nat) (f : Tile → Tile) : (s.modTile t f).free = s.free := rfl
@[simp] theorem State.modTile_focus (s : State) (t : Nat) (f : Tile → Tile) : (s.modTile t f).focus = s.focus := rfl
@[simp] theorem State.modTile_now (s : State) (t : Nat) (f : Tile → Tile) : (s.modTile t f).now = s.now := rfl
@[simp] theorem State.modTile_boot (s : State) (t : Nat) (f : Tile → Tile) : (s.modTile t f).boot = s.boot := rfl
@[simp] theorem State.modTile_cls (s : State) (t : Nat) (f : Tile → Tile) : (s.modTile t f).cls = s.cls := rfl
@[simp] theorem State.modTile_limits (s : State) (t : Nat) (f : Tile → Tile) : (s.modTile t f).limits = s.limits := rfl
@[simp] theorem State.modTile_mem (s : State) (t : Nat) (f : Tile → Tile) : (s.modTile t f).mem = s.mem := rfl
@[simp] theorem State.modTile_hostMem (s : State) (t : Nat) (f : Tile → Tile) : (s.modTile t f).hostMem = s.hostMem := rfl
@[simp] theorem State.modTile_hostOut (s : State) (t : Nat) (f : Tile → Tile) : (s.modTile t f).hostOut = s.hostOut := rfl
@[simp] theorem State.modTile_ecc (s : State) (t : Nat) (f : Tile → Tile) : (s.modTile t f).ecc = s.ecc := rfl
@[simp] theorem State.modTile_n0 (s : State) (t : Nat) (f : Tile → Tile) : (s.modTile t f).n0 = s.n0 := rfl
@[simp] theorem State.modTile_fenced (s : State) (t : Nat) (f : Tile → Tile) : (s.modTile t f).fenced = s.fenced := rfl
@[simp] theorem State.modTile_place (s : State) (t : Nat) (f : Tile → Tile) : (s.modTile t f).place = s.place := rfl
@[simp] theorem State.modTile_dealt (s : State) (t : Nat) (f : Tile → Tile) : (s.modTile t f).dealt = s.dealt := rfl
@[simp] theorem State.modTile_chosen (s : State) (t : Nat) (f : Tile → Tile) : (s.modTile t f).chosen = s.chosen := rfl
@[simp] theorem State.modTile_sites (s : State) (t : Nat) (f : Tile → Tile) : (s.modTile t f).sites = s.sites := rfl
@[simp] theorem State.modTile_holding (s : State) (t : Nat) (f : Tile → Tile) : (s.modTile t f).holding = s.holding := rfl
@[simp] theorem State.modTile_held (s : State) (t : Nat) (f : Tile → Tile) : (s.modTile t f).held = s.held := rfl
@[simp] theorem State.modTile_safeCeiling (s : State) (t : Nat) (f : Tile → Tile) : (s.modTile t f).safeCeiling = s.safeCeiling := rfl
@[simp] theorem State.modTile_dies (s : State) (t : Nat) (f : Tile → Tile) : (s.modTile t f).dies = s.dies := rfl
@[simp] theorem State.modTile_frontiers (s : State) (t : Nat) (f : Tile → Tile) : (s.modTile t f).frontiers = s.frontiers := rfl
@[simp] theorem State.modTile_lines (s : State) (t : Nat) (f : Tile → Tile) : (s.modTile t f).lines = s.lines := rfl
@[simp] theorem State.modTile_net (s : State) (t : Nat) (f : Tile → Tile) : (s.modTile t f).net = s.net := rfl
@[simp] theorem State.modTile_nextId (s : State) (t : Nat) (f : Tile → Tile) : (s.modTile t f).nextId = s.nextId := rfl
@[simp] theorem State.modTile_queues (s : State) (t : Nat) (f : Tile → Tile) : (s.modTile t f).queues = s.queues := rfl
@[simp] theorem State.modTile_launches (s : State) (t : Nat) (f : Tile → Tile) : (s.modTile t f).launches = s.launches := rfl
@[simp] theorem State.modTile_nextLaunch (s : State) (t : Nat) (f : Tile → Tile) : (s.modTile t f).nextLaunch = s.nextLaunch := rfl
@[simp] theorem State.modTile_parcels (s : State) (t : Nat) (f : Tile → Tile) : (s.modTile t f).parcels = s.parcels := rfl
@[simp] theorem State.modTile_rotation (s : State) (t : Nat) (f : Tile → Tile) : (s.modTile t f).rotation = s.rotation := rfl
@[simp] theorem State.modTile_episodes (s : State) (t : Nat) (f : Tile → Tile) : (s.modTile t f).episodes = s.episodes := rfl
@[simp] theorem State.modTile_reports (s : State) (t : Nat) (f : Tile → Tile) : (s.modTile t f).reports = s.reports := rfl
@[simp] theorem State.modTile_retiredTasks (s : State) (t : Nat) (f : Tile → Tile) : (s.modTile t f).retiredTasks = s.retiredTasks := rfl
@[simp] theorem State.modTile_pages (s : State) (t : Nat) (f : Tile → Tile) : (s.modTile t f).pages = s.pages := rfl
@[simp] theorem State.modTile_pending (s : State) (t : Nat) (f : Tile → Tile) : (s.modTile t f).pending = s.pending := rfl
@[simp] theorem State.modTile_writes (s : State) (t : Nat) (f : Tile → Tile) : (s.modTile t f).writes = s.writes := rfl
@[simp] theorem State.modTile_routes (s : State) (t : Nat) (f : Tile → Tile) : (s.modTile t f).routes = s.routes := rfl
@[simp] theorem State.modTile_completions (s : State) (t : Nat) (f : Tile → Tile) : (s.modTile t f).completions = s.completions := rfl
@[simp] theorem State.modTile_asids (s : State) (t : Nat) (f : Tile → Tile) : (s.modTile t f).asids = s.asids := rfl
@[simp] theorem State.modTile_asidHigh (s : State) (t : Nat) (f : Tile → Tile) : (s.modTile t f).asidHigh = s.asidHigh := rfl
@[simp] theorem State.modTile_invals (s : State) (t : Nat) (f : Tile → Tile) : (s.modTile t f).invals = s.invals := rfl
@[simp] theorem State.modTile_invdone (s : State) (t : Nat) (f : Tile → Tile) : (s.modTile t f).invdone = s.invdone := rfl
@[simp] theorem State.modTile_frdrop (s : State) (t : Nat) (f : Tile → Tile) : (s.modTile t f).frdrop = s.frdrop := rfl
@[simp] theorem State.modTile_keys (s : State) (t : Nat) (f : Tile → Tile) : (s.modTile t f).keys = s.keys := rfl
@[simp] theorem State.modTile_kstage (s : State) (t : Nat) (f : Tile → Tile) : (s.modTile t f).kstage = s.kstage := rfl
@[simp] theorem State.modTile_kdone (s : State) (t : Nat) (f : Tile → Tile) : (s.modTile t f).kdone = s.kdone := rfl
@[simp] theorem State.modTile_kres (s : State) (t : Nat) (f : Tile → Tile) : (s.modTile t f).kres = s.kres := rfl
@[simp] theorem State.modTile_podid (s : State) (t : Nat) (f : Tile → Tile) : (s.modTile t f).podid = s.podid := rfl
@[simp] theorem State.modTile_admission (s : State) (t : Nat) (f : Tile → Tile) : (s.modTile t f).admission = s.admission := rfl
@[simp] theorem State.modTile_sessions (s : State) (t : Nat) (f : Tile → Tile) : (s.modTile t f).sessions = s.sessions := rfl
@[simp] theorem State.modTile_stackTurn (s : State) (t : Nat) (f : Tile → Tile) : (s.modTile t f).stackTurn = s.stackTurn := rfl
@[simp] theorem State.modTile_linkLanes (s : State) (t : Nat) (f : Tile → Tile) : (s.modTile t f).linkLanes = s.linkLanes := rfl
@[simp] theorem State.modTile_linkRate (s : State) (t : Nat) (f : Tile → Tile) : (s.modTile t f).linkRate = s.linkRate := rfl
@[simp] theorem State.modTile_podDown (s : State) (t : Nat) (f : Tile → Tile) : (s.modTile t f).podDown = s.podDown := rfl
@[simp] theorem State.modTile_deadLinks (s : State) (t : Nat) (f : Tile → Tile) : (s.modTile t f).deadLinks = s.deadLinks := rfl
@[simp] theorem State.modTile_repaired (s : State) (t : Nat) (f : Tile → Tile) : (s.modTile t f).repaired = s.repaired := rfl
@[simp] theorem State.modTile_rowErrs (s : State) (t : Nat) (f : Tile → Tile) : (s.modTile t f).rowErrs = s.rowErrs := rfl
@[simp] theorem State.modTile_rewritten (s : State) (t : Nat) (f : Tile → Tile) : (s.modTile t f).rewritten = s.rewritten := rfl
@[simp] theorem State.modTile_lanesUsed (s : State) (t : Nat) (f : Tile → Tile) : (s.modTile t f).lanesUsed = s.lanesUsed := rfl
@[simp] theorem State.modTile_lifetime (s : State) (t : Nat) (f : Tile → Tile) : (s.modTile t f).lifetime = s.lifetime := rfl
@[simp] theorem State.modTile_mram (s : State) (t : Nat) (f : Tile → Tile) : (s.modTile t f).mram = s.mram := rfl
@[simp] theorem State.modTile_secVersion (s : State) (t : Nat) (f : Tile → Tile) : (s.modTile t f).secVersion = s.secVersion := rfl
@[simp] theorem State.modTile_imageNo (s : State) (t : Nat) (f : Tile → Tile) : (s.modTile t f).imageNo = s.imageNo := rfl
@[simp] theorem State.modTile_spdmVersion (s : State) (t : Nat) (f : Tile → Tile) : (s.modTile t f).spdmVersion = s.spdmVersion := rfl
@[simp] theorem State.modTile_spdmAlgs (s : State) (t : Nat) (f : Tile → Tile) : (s.modTile t f).spdmAlgs = s.spdmAlgs := rfl
@[simp] theorem State.modTile_spdmLog (s : State) (t : Nat) (f : Tile → Tile) : (s.modTile t f).spdmLog = s.spdmLog := rfl
@[simp] theorem State.modTile_sideband (s : State) (t : Nat) (f : Tile → Tile) : (s.modTile t f).sideband = s.sideband := rfl

/-! ### modEngine -/

@[simp] theorem State.modEngine_micro (s : State) (t : Nat) (f : Engine → Engine) : (s.modEngine t f).micro = s.micro := rfl
@[simp] theorem State.modEngine_agenda (s : State) (t : Nat) (f : Engine → Engine) : (s.modEngine t f).agenda = s.agenda := rfl
@[simp] theorem State.modEngine_script (s : State) (t : Nat) (f : Engine → Engine) : (s.modEngine t f).script = s.script := rfl
@[simp] theorem State.modEngine_free (s : State) (t : Nat) (f : Engine → Engine) : (s.modEngine t f).free = s.free := rfl
@[simp] theorem State.modEngine_focus (s : State) (t : Nat) (f : Engine → Engine) : (s.modEngine t f).focus = s.focus := rfl
@[simp] theorem State.modEngine_now (s : State) (t : Nat) (f : Engine → Engine) : (s.modEngine t f).now = s.now := rfl
@[simp] theorem State.modEngine_boot (s : State) (t : Nat) (f : Engine → Engine) : (s.modEngine t f).boot = s.boot := rfl
@[simp] theorem State.modEngine_cls (s : State) (t : Nat) (f : Engine → Engine) : (s.modEngine t f).cls = s.cls := rfl
@[simp] theorem State.modEngine_limits (s : State) (t : Nat) (f : Engine → Engine) : (s.modEngine t f).limits = s.limits := rfl
@[simp] theorem State.modEngine_mem (s : State) (t : Nat) (f : Engine → Engine) : (s.modEngine t f).mem = s.mem := rfl
@[simp] theorem State.modEngine_hostMem (s : State) (t : Nat) (f : Engine → Engine) : (s.modEngine t f).hostMem = s.hostMem := rfl
@[simp] theorem State.modEngine_hostOut (s : State) (t : Nat) (f : Engine → Engine) : (s.modEngine t f).hostOut = s.hostOut := rfl
@[simp] theorem State.modEngine_ecc (s : State) (t : Nat) (f : Engine → Engine) : (s.modEngine t f).ecc = s.ecc := rfl
@[simp] theorem State.modEngine_n0 (s : State) (t : Nat) (f : Engine → Engine) : (s.modEngine t f).n0 = s.n0 := rfl
@[simp] theorem State.modEngine_fenced (s : State) (t : Nat) (f : Engine → Engine) : (s.modEngine t f).fenced = s.fenced := rfl
@[simp] theorem State.modEngine_place (s : State) (t : Nat) (f : Engine → Engine) : (s.modEngine t f).place = s.place := rfl
@[simp] theorem State.modEngine_dealt (s : State) (t : Nat) (f : Engine → Engine) : (s.modEngine t f).dealt = s.dealt := rfl
@[simp] theorem State.modEngine_chosen (s : State) (t : Nat) (f : Engine → Engine) : (s.modEngine t f).chosen = s.chosen := rfl
@[simp] theorem State.modEngine_sites (s : State) (t : Nat) (f : Engine → Engine) : (s.modEngine t f).sites = s.sites := rfl
@[simp] theorem State.modEngine_holding (s : State) (t : Nat) (f : Engine → Engine) : (s.modEngine t f).holding = s.holding := rfl
@[simp] theorem State.modEngine_held (s : State) (t : Nat) (f : Engine → Engine) : (s.modEngine t f).held = s.held := rfl
@[simp] theorem State.modEngine_safeCeiling (s : State) (t : Nat) (f : Engine → Engine) : (s.modEngine t f).safeCeiling = s.safeCeiling := rfl
@[simp] theorem State.modEngine_dies (s : State) (t : Nat) (f : Engine → Engine) : (s.modEngine t f).dies = s.dies := rfl
@[simp] theorem State.modEngine_frontiers (s : State) (t : Nat) (f : Engine → Engine) : (s.modEngine t f).frontiers = s.frontiers := rfl
@[simp] theorem State.modEngine_lines (s : State) (t : Nat) (f : Engine → Engine) : (s.modEngine t f).lines = s.lines := rfl
@[simp] theorem State.modEngine_net (s : State) (t : Nat) (f : Engine → Engine) : (s.modEngine t f).net = s.net := rfl
@[simp] theorem State.modEngine_nextId (s : State) (t : Nat) (f : Engine → Engine) : (s.modEngine t f).nextId = s.nextId := rfl
@[simp] theorem State.modEngine_queues (s : State) (t : Nat) (f : Engine → Engine) : (s.modEngine t f).queues = s.queues := rfl
@[simp] theorem State.modEngine_launches (s : State) (t : Nat) (f : Engine → Engine) : (s.modEngine t f).launches = s.launches := rfl
@[simp] theorem State.modEngine_nextLaunch (s : State) (t : Nat) (f : Engine → Engine) : (s.modEngine t f).nextLaunch = s.nextLaunch := rfl
@[simp] theorem State.modEngine_parcels (s : State) (t : Nat) (f : Engine → Engine) : (s.modEngine t f).parcels = s.parcels := rfl
@[simp] theorem State.modEngine_rotation (s : State) (t : Nat) (f : Engine → Engine) : (s.modEngine t f).rotation = s.rotation := rfl
@[simp] theorem State.modEngine_episodes (s : State) (t : Nat) (f : Engine → Engine) : (s.modEngine t f).episodes = s.episodes := rfl
@[simp] theorem State.modEngine_reports (s : State) (t : Nat) (f : Engine → Engine) : (s.modEngine t f).reports = s.reports := rfl
@[simp] theorem State.modEngine_retiredTasks (s : State) (t : Nat) (f : Engine → Engine) : (s.modEngine t f).retiredTasks = s.retiredTasks := rfl
@[simp] theorem State.modEngine_pages (s : State) (t : Nat) (f : Engine → Engine) : (s.modEngine t f).pages = s.pages := rfl
@[simp] theorem State.modEngine_pending (s : State) (t : Nat) (f : Engine → Engine) : (s.modEngine t f).pending = s.pending := rfl
@[simp] theorem State.modEngine_writes (s : State) (t : Nat) (f : Engine → Engine) : (s.modEngine t f).writes = s.writes := rfl
@[simp] theorem State.modEngine_routes (s : State) (t : Nat) (f : Engine → Engine) : (s.modEngine t f).routes = s.routes := rfl
@[simp] theorem State.modEngine_completions (s : State) (t : Nat) (f : Engine → Engine) : (s.modEngine t f).completions = s.completions := rfl
@[simp] theorem State.modEngine_asids (s : State) (t : Nat) (f : Engine → Engine) : (s.modEngine t f).asids = s.asids := rfl
@[simp] theorem State.modEngine_asidHigh (s : State) (t : Nat) (f : Engine → Engine) : (s.modEngine t f).asidHigh = s.asidHigh := rfl
@[simp] theorem State.modEngine_invals (s : State) (t : Nat) (f : Engine → Engine) : (s.modEngine t f).invals = s.invals := rfl
@[simp] theorem State.modEngine_invdone (s : State) (t : Nat) (f : Engine → Engine) : (s.modEngine t f).invdone = s.invdone := rfl
@[simp] theorem State.modEngine_frdrop (s : State) (t : Nat) (f : Engine → Engine) : (s.modEngine t f).frdrop = s.frdrop := rfl
@[simp] theorem State.modEngine_keys (s : State) (t : Nat) (f : Engine → Engine) : (s.modEngine t f).keys = s.keys := rfl
@[simp] theorem State.modEngine_kstage (s : State) (t : Nat) (f : Engine → Engine) : (s.modEngine t f).kstage = s.kstage := rfl
@[simp] theorem State.modEngine_kdone (s : State) (t : Nat) (f : Engine → Engine) : (s.modEngine t f).kdone = s.kdone := rfl
@[simp] theorem State.modEngine_kres (s : State) (t : Nat) (f : Engine → Engine) : (s.modEngine t f).kres = s.kres := rfl
@[simp] theorem State.modEngine_podid (s : State) (t : Nat) (f : Engine → Engine) : (s.modEngine t f).podid = s.podid := rfl
@[simp] theorem State.modEngine_admission (s : State) (t : Nat) (f : Engine → Engine) : (s.modEngine t f).admission = s.admission := rfl
@[simp] theorem State.modEngine_sessions (s : State) (t : Nat) (f : Engine → Engine) : (s.modEngine t f).sessions = s.sessions := rfl
@[simp] theorem State.modEngine_stackTurn (s : State) (t : Nat) (f : Engine → Engine) : (s.modEngine t f).stackTurn = s.stackTurn := rfl
@[simp] theorem State.modEngine_linkLanes (s : State) (t : Nat) (f : Engine → Engine) : (s.modEngine t f).linkLanes = s.linkLanes := rfl
@[simp] theorem State.modEngine_linkRate (s : State) (t : Nat) (f : Engine → Engine) : (s.modEngine t f).linkRate = s.linkRate := rfl
@[simp] theorem State.modEngine_podDown (s : State) (t : Nat) (f : Engine → Engine) : (s.modEngine t f).podDown = s.podDown := rfl
@[simp] theorem State.modEngine_deadLinks (s : State) (t : Nat) (f : Engine → Engine) : (s.modEngine t f).deadLinks = s.deadLinks := rfl
@[simp] theorem State.modEngine_repaired (s : State) (t : Nat) (f : Engine → Engine) : (s.modEngine t f).repaired = s.repaired := rfl
@[simp] theorem State.modEngine_rowErrs (s : State) (t : Nat) (f : Engine → Engine) : (s.modEngine t f).rowErrs = s.rowErrs := rfl
@[simp] theorem State.modEngine_rewritten (s : State) (t : Nat) (f : Engine → Engine) : (s.modEngine t f).rewritten = s.rewritten := rfl
@[simp] theorem State.modEngine_lanesUsed (s : State) (t : Nat) (f : Engine → Engine) : (s.modEngine t f).lanesUsed = s.lanesUsed := rfl
@[simp] theorem State.modEngine_lifetime (s : State) (t : Nat) (f : Engine → Engine) : (s.modEngine t f).lifetime = s.lifetime := rfl
@[simp] theorem State.modEngine_mram (s : State) (t : Nat) (f : Engine → Engine) : (s.modEngine t f).mram = s.mram := rfl
@[simp] theorem State.modEngine_secVersion (s : State) (t : Nat) (f : Engine → Engine) : (s.modEngine t f).secVersion = s.secVersion := rfl
@[simp] theorem State.modEngine_imageNo (s : State) (t : Nat) (f : Engine → Engine) : (s.modEngine t f).imageNo = s.imageNo := rfl
@[simp] theorem State.modEngine_spdmVersion (s : State) (t : Nat) (f : Engine → Engine) : (s.modEngine t f).spdmVersion = s.spdmVersion := rfl
@[simp] theorem State.modEngine_spdmAlgs (s : State) (t : Nat) (f : Engine → Engine) : (s.modEngine t f).spdmAlgs = s.spdmAlgs := rfl
@[simp] theorem State.modEngine_spdmLog (s : State) (t : Nat) (f : Engine → Engine) : (s.modEngine t f).spdmLog = s.spdmLog := rfl
@[simp] theorem State.modEngine_sideband (s : State) (t : Nat) (f : Engine → Engine) : (s.modEngine t f).sideband = s.sideband := rfl

/-! ### setCtx -/

@[simp] theorem State.setCtx_micro (s : State) (t c : Nat) (x : Ctx) : (s.setCtx t c x).micro = s.micro := rfl
@[simp] theorem State.setCtx_agenda (s : State) (t c : Nat) (x : Ctx) : (s.setCtx t c x).agenda = s.agenda := rfl
@[simp] theorem State.setCtx_script (s : State) (t c : Nat) (x : Ctx) : (s.setCtx t c x).script = s.script := rfl
@[simp] theorem State.setCtx_free (s : State) (t c : Nat) (x : Ctx) : (s.setCtx t c x).free = s.free := rfl
@[simp] theorem State.setCtx_focus (s : State) (t c : Nat) (x : Ctx) : (s.setCtx t c x).focus = s.focus := rfl
@[simp] theorem State.setCtx_now (s : State) (t c : Nat) (x : Ctx) : (s.setCtx t c x).now = s.now := rfl
@[simp] theorem State.setCtx_boot (s : State) (t c : Nat) (x : Ctx) : (s.setCtx t c x).boot = s.boot := rfl
@[simp] theorem State.setCtx_cls (s : State) (t c : Nat) (x : Ctx) : (s.setCtx t c x).cls = s.cls := rfl
@[simp] theorem State.setCtx_limits (s : State) (t c : Nat) (x : Ctx) : (s.setCtx t c x).limits = s.limits := rfl
@[simp] theorem State.setCtx_mem (s : State) (t c : Nat) (x : Ctx) : (s.setCtx t c x).mem = s.mem := rfl
@[simp] theorem State.setCtx_hostMem (s : State) (t c : Nat) (x : Ctx) : (s.setCtx t c x).hostMem = s.hostMem := rfl
@[simp] theorem State.setCtx_hostOut (s : State) (t c : Nat) (x : Ctx) : (s.setCtx t c x).hostOut = s.hostOut := rfl
@[simp] theorem State.setCtx_ecc (s : State) (t c : Nat) (x : Ctx) : (s.setCtx t c x).ecc = s.ecc := rfl
@[simp] theorem State.setCtx_n0 (s : State) (t c : Nat) (x : Ctx) : (s.setCtx t c x).n0 = s.n0 := rfl
@[simp] theorem State.setCtx_fenced (s : State) (t c : Nat) (x : Ctx) : (s.setCtx t c x).fenced = s.fenced := rfl
@[simp] theorem State.setCtx_place (s : State) (t c : Nat) (x : Ctx) : (s.setCtx t c x).place = s.place := rfl
@[simp] theorem State.setCtx_dealt (s : State) (t c : Nat) (x : Ctx) : (s.setCtx t c x).dealt = s.dealt := rfl
@[simp] theorem State.setCtx_chosen (s : State) (t c : Nat) (x : Ctx) : (s.setCtx t c x).chosen = s.chosen := rfl
@[simp] theorem State.setCtx_sites (s : State) (t c : Nat) (x : Ctx) : (s.setCtx t c x).sites = s.sites := rfl
@[simp] theorem State.setCtx_holding (s : State) (t c : Nat) (x : Ctx) : (s.setCtx t c x).holding = s.holding := rfl
@[simp] theorem State.setCtx_held (s : State) (t c : Nat) (x : Ctx) : (s.setCtx t c x).held = s.held := rfl
@[simp] theorem State.setCtx_safeCeiling (s : State) (t c : Nat) (x : Ctx) : (s.setCtx t c x).safeCeiling = s.safeCeiling := rfl
@[simp] theorem State.setCtx_dies (s : State) (t c : Nat) (x : Ctx) : (s.setCtx t c x).dies = s.dies := rfl
@[simp] theorem State.setCtx_frontiers (s : State) (t c : Nat) (x : Ctx) : (s.setCtx t c x).frontiers = s.frontiers := rfl
@[simp] theorem State.setCtx_lines (s : State) (t c : Nat) (x : Ctx) : (s.setCtx t c x).lines = s.lines := rfl
@[simp] theorem State.setCtx_net (s : State) (t c : Nat) (x : Ctx) : (s.setCtx t c x).net = s.net := rfl
@[simp] theorem State.setCtx_nextId (s : State) (t c : Nat) (x : Ctx) : (s.setCtx t c x).nextId = s.nextId := rfl
@[simp] theorem State.setCtx_queues (s : State) (t c : Nat) (x : Ctx) : (s.setCtx t c x).queues = s.queues := rfl
@[simp] theorem State.setCtx_launches (s : State) (t c : Nat) (x : Ctx) : (s.setCtx t c x).launches = s.launches := rfl
@[simp] theorem State.setCtx_nextLaunch (s : State) (t c : Nat) (x : Ctx) : (s.setCtx t c x).nextLaunch = s.nextLaunch := rfl
@[simp] theorem State.setCtx_parcels (s : State) (t c : Nat) (x : Ctx) : (s.setCtx t c x).parcels = s.parcels := rfl
@[simp] theorem State.setCtx_rotation (s : State) (t c : Nat) (x : Ctx) : (s.setCtx t c x).rotation = s.rotation := rfl
@[simp] theorem State.setCtx_episodes (s : State) (t c : Nat) (x : Ctx) : (s.setCtx t c x).episodes = s.episodes := rfl
@[simp] theorem State.setCtx_reports (s : State) (t c : Nat) (x : Ctx) : (s.setCtx t c x).reports = s.reports := rfl
@[simp] theorem State.setCtx_retiredTasks (s : State) (t c : Nat) (x : Ctx) : (s.setCtx t c x).retiredTasks = s.retiredTasks := rfl
@[simp] theorem State.setCtx_pages (s : State) (t c : Nat) (x : Ctx) : (s.setCtx t c x).pages = s.pages := rfl
@[simp] theorem State.setCtx_pending (s : State) (t c : Nat) (x : Ctx) : (s.setCtx t c x).pending = s.pending := rfl
@[simp] theorem State.setCtx_writes (s : State) (t c : Nat) (x : Ctx) : (s.setCtx t c x).writes = s.writes := rfl
@[simp] theorem State.setCtx_routes (s : State) (t c : Nat) (x : Ctx) : (s.setCtx t c x).routes = s.routes := rfl
@[simp] theorem State.setCtx_completions (s : State) (t c : Nat) (x : Ctx) : (s.setCtx t c x).completions = s.completions := rfl
@[simp] theorem State.setCtx_asids (s : State) (t c : Nat) (x : Ctx) : (s.setCtx t c x).asids = s.asids := rfl
@[simp] theorem State.setCtx_asidHigh (s : State) (t c : Nat) (x : Ctx) : (s.setCtx t c x).asidHigh = s.asidHigh := rfl
@[simp] theorem State.setCtx_invals (s : State) (t c : Nat) (x : Ctx) : (s.setCtx t c x).invals = s.invals := rfl
@[simp] theorem State.setCtx_invdone (s : State) (t c : Nat) (x : Ctx) : (s.setCtx t c x).invdone = s.invdone := rfl
@[simp] theorem State.setCtx_frdrop (s : State) (t c : Nat) (x : Ctx) : (s.setCtx t c x).frdrop = s.frdrop := rfl
@[simp] theorem State.setCtx_keys (s : State) (t c : Nat) (x : Ctx) : (s.setCtx t c x).keys = s.keys := rfl
@[simp] theorem State.setCtx_kstage (s : State) (t c : Nat) (x : Ctx) : (s.setCtx t c x).kstage = s.kstage := rfl
@[simp] theorem State.setCtx_kdone (s : State) (t c : Nat) (x : Ctx) : (s.setCtx t c x).kdone = s.kdone := rfl
@[simp] theorem State.setCtx_kres (s : State) (t c : Nat) (x : Ctx) : (s.setCtx t c x).kres = s.kres := rfl
@[simp] theorem State.setCtx_podid (s : State) (t c : Nat) (x : Ctx) : (s.setCtx t c x).podid = s.podid := rfl
@[simp] theorem State.setCtx_admission (s : State) (t c : Nat) (x : Ctx) : (s.setCtx t c x).admission = s.admission := rfl
@[simp] theorem State.setCtx_sessions (s : State) (t c : Nat) (x : Ctx) : (s.setCtx t c x).sessions = s.sessions := rfl
@[simp] theorem State.setCtx_stackTurn (s : State) (t c : Nat) (x : Ctx) : (s.setCtx t c x).stackTurn = s.stackTurn := rfl
@[simp] theorem State.setCtx_linkLanes (s : State) (t c : Nat) (x : Ctx) : (s.setCtx t c x).linkLanes = s.linkLanes := rfl
@[simp] theorem State.setCtx_linkRate (s : State) (t c : Nat) (x : Ctx) : (s.setCtx t c x).linkRate = s.linkRate := rfl
@[simp] theorem State.setCtx_podDown (s : State) (t c : Nat) (x : Ctx) : (s.setCtx t c x).podDown = s.podDown := rfl
@[simp] theorem State.setCtx_deadLinks (s : State) (t c : Nat) (x : Ctx) : (s.setCtx t c x).deadLinks = s.deadLinks := rfl
@[simp] theorem State.setCtx_repaired (s : State) (t c : Nat) (x : Ctx) : (s.setCtx t c x).repaired = s.repaired := rfl
@[simp] theorem State.setCtx_rowErrs (s : State) (t c : Nat) (x : Ctx) : (s.setCtx t c x).rowErrs = s.rowErrs := rfl
@[simp] theorem State.setCtx_rewritten (s : State) (t c : Nat) (x : Ctx) : (s.setCtx t c x).rewritten = s.rewritten := rfl
@[simp] theorem State.setCtx_lanesUsed (s : State) (t c : Nat) (x : Ctx) : (s.setCtx t c x).lanesUsed = s.lanesUsed := rfl
@[simp] theorem State.setCtx_lifetime (s : State) (t c : Nat) (x : Ctx) : (s.setCtx t c x).lifetime = s.lifetime := rfl
@[simp] theorem State.setCtx_mram (s : State) (t c : Nat) (x : Ctx) : (s.setCtx t c x).mram = s.mram := rfl
@[simp] theorem State.setCtx_secVersion (s : State) (t c : Nat) (x : Ctx) : (s.setCtx t c x).secVersion = s.secVersion := rfl
@[simp] theorem State.setCtx_imageNo (s : State) (t c : Nat) (x : Ctx) : (s.setCtx t c x).imageNo = s.imageNo := rfl
@[simp] theorem State.setCtx_spdmVersion (s : State) (t c : Nat) (x : Ctx) : (s.setCtx t c x).spdmVersion = s.spdmVersion := rfl
@[simp] theorem State.setCtx_spdmAlgs (s : State) (t c : Nat) (x : Ctx) : (s.setCtx t c x).spdmAlgs = s.spdmAlgs := rfl
@[simp] theorem State.setCtx_spdmLog (s : State) (t c : Nat) (x : Ctx) : (s.setCtx t c x).spdmLog = s.spdmLog := rfl
@[simp] theorem State.setCtx_sideband (s : State) (t c : Nat) (x : Ctx) : (s.setCtx t c x).sideband = s.sideband := rfl

/-! ### modCtx -/

@[simp] theorem State.modCtx_micro (s : State) (t c : Nat) (f : Ctx → Ctx) : (s.modCtx t c f).micro = s.micro := rfl
@[simp] theorem State.modCtx_agenda (s : State) (t c : Nat) (f : Ctx → Ctx) : (s.modCtx t c f).agenda = s.agenda := rfl
@[simp] theorem State.modCtx_script (s : State) (t c : Nat) (f : Ctx → Ctx) : (s.modCtx t c f).script = s.script := rfl
@[simp] theorem State.modCtx_free (s : State) (t c : Nat) (f : Ctx → Ctx) : (s.modCtx t c f).free = s.free := rfl
@[simp] theorem State.modCtx_focus (s : State) (t c : Nat) (f : Ctx → Ctx) : (s.modCtx t c f).focus = s.focus := rfl
@[simp] theorem State.modCtx_now (s : State) (t c : Nat) (f : Ctx → Ctx) : (s.modCtx t c f).now = s.now := rfl
@[simp] theorem State.modCtx_boot (s : State) (t c : Nat) (f : Ctx → Ctx) : (s.modCtx t c f).boot = s.boot := rfl
@[simp] theorem State.modCtx_cls (s : State) (t c : Nat) (f : Ctx → Ctx) : (s.modCtx t c f).cls = s.cls := rfl
@[simp] theorem State.modCtx_limits (s : State) (t c : Nat) (f : Ctx → Ctx) : (s.modCtx t c f).limits = s.limits := rfl
@[simp] theorem State.modCtx_mem (s : State) (t c : Nat) (f : Ctx → Ctx) : (s.modCtx t c f).mem = s.mem := rfl
@[simp] theorem State.modCtx_hostMem (s : State) (t c : Nat) (f : Ctx → Ctx) : (s.modCtx t c f).hostMem = s.hostMem := rfl
@[simp] theorem State.modCtx_hostOut (s : State) (t c : Nat) (f : Ctx → Ctx) : (s.modCtx t c f).hostOut = s.hostOut := rfl
@[simp] theorem State.modCtx_ecc (s : State) (t c : Nat) (f : Ctx → Ctx) : (s.modCtx t c f).ecc = s.ecc := rfl
@[simp] theorem State.modCtx_n0 (s : State) (t c : Nat) (f : Ctx → Ctx) : (s.modCtx t c f).n0 = s.n0 := rfl
@[simp] theorem State.modCtx_fenced (s : State) (t c : Nat) (f : Ctx → Ctx) : (s.modCtx t c f).fenced = s.fenced := rfl
@[simp] theorem State.modCtx_place (s : State) (t c : Nat) (f : Ctx → Ctx) : (s.modCtx t c f).place = s.place := rfl
@[simp] theorem State.modCtx_dealt (s : State) (t c : Nat) (f : Ctx → Ctx) : (s.modCtx t c f).dealt = s.dealt := rfl
@[simp] theorem State.modCtx_chosen (s : State) (t c : Nat) (f : Ctx → Ctx) : (s.modCtx t c f).chosen = s.chosen := rfl
@[simp] theorem State.modCtx_sites (s : State) (t c : Nat) (f : Ctx → Ctx) : (s.modCtx t c f).sites = s.sites := rfl
@[simp] theorem State.modCtx_holding (s : State) (t c : Nat) (f : Ctx → Ctx) : (s.modCtx t c f).holding = s.holding := rfl
@[simp] theorem State.modCtx_held (s : State) (t c : Nat) (f : Ctx → Ctx) : (s.modCtx t c f).held = s.held := rfl
@[simp] theorem State.modCtx_safeCeiling (s : State) (t c : Nat) (f : Ctx → Ctx) : (s.modCtx t c f).safeCeiling = s.safeCeiling := rfl
@[simp] theorem State.modCtx_dies (s : State) (t c : Nat) (f : Ctx → Ctx) : (s.modCtx t c f).dies = s.dies := rfl
@[simp] theorem State.modCtx_frontiers (s : State) (t c : Nat) (f : Ctx → Ctx) : (s.modCtx t c f).frontiers = s.frontiers := rfl
@[simp] theorem State.modCtx_lines (s : State) (t c : Nat) (f : Ctx → Ctx) : (s.modCtx t c f).lines = s.lines := rfl
@[simp] theorem State.modCtx_net (s : State) (t c : Nat) (f : Ctx → Ctx) : (s.modCtx t c f).net = s.net := rfl
@[simp] theorem State.modCtx_nextId (s : State) (t c : Nat) (f : Ctx → Ctx) : (s.modCtx t c f).nextId = s.nextId := rfl
@[simp] theorem State.modCtx_queues (s : State) (t c : Nat) (f : Ctx → Ctx) : (s.modCtx t c f).queues = s.queues := rfl
@[simp] theorem State.modCtx_launches (s : State) (t c : Nat) (f : Ctx → Ctx) : (s.modCtx t c f).launches = s.launches := rfl
@[simp] theorem State.modCtx_nextLaunch (s : State) (t c : Nat) (f : Ctx → Ctx) : (s.modCtx t c f).nextLaunch = s.nextLaunch := rfl
@[simp] theorem State.modCtx_parcels (s : State) (t c : Nat) (f : Ctx → Ctx) : (s.modCtx t c f).parcels = s.parcels := rfl
@[simp] theorem State.modCtx_rotation (s : State) (t c : Nat) (f : Ctx → Ctx) : (s.modCtx t c f).rotation = s.rotation := rfl
@[simp] theorem State.modCtx_episodes (s : State) (t c : Nat) (f : Ctx → Ctx) : (s.modCtx t c f).episodes = s.episodes := rfl
@[simp] theorem State.modCtx_reports (s : State) (t c : Nat) (f : Ctx → Ctx) : (s.modCtx t c f).reports = s.reports := rfl
@[simp] theorem State.modCtx_retiredTasks (s : State) (t c : Nat) (f : Ctx → Ctx) : (s.modCtx t c f).retiredTasks = s.retiredTasks := rfl
@[simp] theorem State.modCtx_pages (s : State) (t c : Nat) (f : Ctx → Ctx) : (s.modCtx t c f).pages = s.pages := rfl
@[simp] theorem State.modCtx_pending (s : State) (t c : Nat) (f : Ctx → Ctx) : (s.modCtx t c f).pending = s.pending := rfl
@[simp] theorem State.modCtx_writes (s : State) (t c : Nat) (f : Ctx → Ctx) : (s.modCtx t c f).writes = s.writes := rfl
@[simp] theorem State.modCtx_routes (s : State) (t c : Nat) (f : Ctx → Ctx) : (s.modCtx t c f).routes = s.routes := rfl
@[simp] theorem State.modCtx_completions (s : State) (t c : Nat) (f : Ctx → Ctx) : (s.modCtx t c f).completions = s.completions := rfl
@[simp] theorem State.modCtx_asids (s : State) (t c : Nat) (f : Ctx → Ctx) : (s.modCtx t c f).asids = s.asids := rfl
@[simp] theorem State.modCtx_asidHigh (s : State) (t c : Nat) (f : Ctx → Ctx) : (s.modCtx t c f).asidHigh = s.asidHigh := rfl
@[simp] theorem State.modCtx_invals (s : State) (t c : Nat) (f : Ctx → Ctx) : (s.modCtx t c f).invals = s.invals := rfl
@[simp] theorem State.modCtx_invdone (s : State) (t c : Nat) (f : Ctx → Ctx) : (s.modCtx t c f).invdone = s.invdone := rfl
@[simp] theorem State.modCtx_frdrop (s : State) (t c : Nat) (f : Ctx → Ctx) : (s.modCtx t c f).frdrop = s.frdrop := rfl
@[simp] theorem State.modCtx_keys (s : State) (t c : Nat) (f : Ctx → Ctx) : (s.modCtx t c f).keys = s.keys := rfl
@[simp] theorem State.modCtx_kstage (s : State) (t c : Nat) (f : Ctx → Ctx) : (s.modCtx t c f).kstage = s.kstage := rfl
@[simp] theorem State.modCtx_kdone (s : State) (t c : Nat) (f : Ctx → Ctx) : (s.modCtx t c f).kdone = s.kdone := rfl
@[simp] theorem State.modCtx_kres (s : State) (t c : Nat) (f : Ctx → Ctx) : (s.modCtx t c f).kres = s.kres := rfl
@[simp] theorem State.modCtx_podid (s : State) (t c : Nat) (f : Ctx → Ctx) : (s.modCtx t c f).podid = s.podid := rfl
@[simp] theorem State.modCtx_admission (s : State) (t c : Nat) (f : Ctx → Ctx) : (s.modCtx t c f).admission = s.admission := rfl
@[simp] theorem State.modCtx_sessions (s : State) (t c : Nat) (f : Ctx → Ctx) : (s.modCtx t c f).sessions = s.sessions := rfl
@[simp] theorem State.modCtx_stackTurn (s : State) (t c : Nat) (f : Ctx → Ctx) : (s.modCtx t c f).stackTurn = s.stackTurn := rfl
@[simp] theorem State.modCtx_linkLanes (s : State) (t c : Nat) (f : Ctx → Ctx) : (s.modCtx t c f).linkLanes = s.linkLanes := rfl
@[simp] theorem State.modCtx_linkRate (s : State) (t c : Nat) (f : Ctx → Ctx) : (s.modCtx t c f).linkRate = s.linkRate := rfl
@[simp] theorem State.modCtx_podDown (s : State) (t c : Nat) (f : Ctx → Ctx) : (s.modCtx t c f).podDown = s.podDown := rfl
@[simp] theorem State.modCtx_deadLinks (s : State) (t c : Nat) (f : Ctx → Ctx) : (s.modCtx t c f).deadLinks = s.deadLinks := rfl
@[simp] theorem State.modCtx_repaired (s : State) (t c : Nat) (f : Ctx → Ctx) : (s.modCtx t c f).repaired = s.repaired := rfl
@[simp] theorem State.modCtx_rowErrs (s : State) (t c : Nat) (f : Ctx → Ctx) : (s.modCtx t c f).rowErrs = s.rowErrs := rfl
@[simp] theorem State.modCtx_rewritten (s : State) (t c : Nat) (f : Ctx → Ctx) : (s.modCtx t c f).rewritten = s.rewritten := rfl
@[simp] theorem State.modCtx_lanesUsed (s : State) (t c : Nat) (f : Ctx → Ctx) : (s.modCtx t c f).lanesUsed = s.lanesUsed := rfl
@[simp] theorem State.modCtx_lifetime (s : State) (t c : Nat) (f : Ctx → Ctx) : (s.modCtx t c f).lifetime = s.lifetime := rfl
@[simp] theorem State.modCtx_mram (s : State) (t c : Nat) (f : Ctx → Ctx) : (s.modCtx t c f).mram = s.mram := rfl
@[simp] theorem State.modCtx_secVersion (s : State) (t c : Nat) (f : Ctx → Ctx) : (s.modCtx t c f).secVersion = s.secVersion := rfl
@[simp] theorem State.modCtx_imageNo (s : State) (t c : Nat) (f : Ctx → Ctx) : (s.modCtx t c f).imageNo = s.imageNo := rfl
@[simp] theorem State.modCtx_spdmVersion (s : State) (t c : Nat) (f : Ctx → Ctx) : (s.modCtx t c f).spdmVersion = s.spdmVersion := rfl
@[simp] theorem State.modCtx_spdmAlgs (s : State) (t c : Nat) (f : Ctx → Ctx) : (s.modCtx t c f).spdmAlgs = s.spdmAlgs := rfl
@[simp] theorem State.modCtx_spdmLog (s : State) (t c : Nat) (f : Ctx → Ctx) : (s.modCtx t c f).spdmLog = s.spdmLog := rfl
@[simp] theorem State.modCtx_sideband (s : State) (t c : Nat) (f : Ctx → Ctx) : (s.modCtx t c f).sideband = s.sideband := rfl

/-! ### modHart -/

@[simp] theorem State.modHart_micro (s : State) (t c : Nat) (f : Hart → Hart) : (s.modHart t c f).micro = s.micro := rfl
@[simp] theorem State.modHart_agenda (s : State) (t c : Nat) (f : Hart → Hart) : (s.modHart t c f).agenda = s.agenda := rfl
@[simp] theorem State.modHart_script (s : State) (t c : Nat) (f : Hart → Hart) : (s.modHart t c f).script = s.script := rfl
@[simp] theorem State.modHart_free (s : State) (t c : Nat) (f : Hart → Hart) : (s.modHart t c f).free = s.free := rfl
@[simp] theorem State.modHart_focus (s : State) (t c : Nat) (f : Hart → Hart) : (s.modHart t c f).focus = s.focus := rfl
@[simp] theorem State.modHart_now (s : State) (t c : Nat) (f : Hart → Hart) : (s.modHart t c f).now = s.now := rfl
@[simp] theorem State.modHart_boot (s : State) (t c : Nat) (f : Hart → Hart) : (s.modHart t c f).boot = s.boot := rfl
@[simp] theorem State.modHart_cls (s : State) (t c : Nat) (f : Hart → Hart) : (s.modHart t c f).cls = s.cls := rfl
@[simp] theorem State.modHart_limits (s : State) (t c : Nat) (f : Hart → Hart) : (s.modHart t c f).limits = s.limits := rfl
@[simp] theorem State.modHart_mem (s : State) (t c : Nat) (f : Hart → Hart) : (s.modHart t c f).mem = s.mem := rfl
@[simp] theorem State.modHart_hostMem (s : State) (t c : Nat) (f : Hart → Hart) : (s.modHart t c f).hostMem = s.hostMem := rfl
@[simp] theorem State.modHart_hostOut (s : State) (t c : Nat) (f : Hart → Hart) : (s.modHart t c f).hostOut = s.hostOut := rfl
@[simp] theorem State.modHart_ecc (s : State) (t c : Nat) (f : Hart → Hart) : (s.modHart t c f).ecc = s.ecc := rfl
@[simp] theorem State.modHart_n0 (s : State) (t c : Nat) (f : Hart → Hart) : (s.modHart t c f).n0 = s.n0 := rfl
@[simp] theorem State.modHart_fenced (s : State) (t c : Nat) (f : Hart → Hart) : (s.modHart t c f).fenced = s.fenced := rfl
@[simp] theorem State.modHart_place (s : State) (t c : Nat) (f : Hart → Hart) : (s.modHart t c f).place = s.place := rfl
@[simp] theorem State.modHart_dealt (s : State) (t c : Nat) (f : Hart → Hart) : (s.modHart t c f).dealt = s.dealt := rfl
@[simp] theorem State.modHart_chosen (s : State) (t c : Nat) (f : Hart → Hart) : (s.modHart t c f).chosen = s.chosen := rfl
@[simp] theorem State.modHart_sites (s : State) (t c : Nat) (f : Hart → Hart) : (s.modHart t c f).sites = s.sites := rfl
@[simp] theorem State.modHart_holding (s : State) (t c : Nat) (f : Hart → Hart) : (s.modHart t c f).holding = s.holding := rfl
@[simp] theorem State.modHart_held (s : State) (t c : Nat) (f : Hart → Hart) : (s.modHart t c f).held = s.held := rfl
@[simp] theorem State.modHart_safeCeiling (s : State) (t c : Nat) (f : Hart → Hart) : (s.modHart t c f).safeCeiling = s.safeCeiling := rfl
@[simp] theorem State.modHart_dies (s : State) (t c : Nat) (f : Hart → Hart) : (s.modHart t c f).dies = s.dies := rfl
@[simp] theorem State.modHart_frontiers (s : State) (t c : Nat) (f : Hart → Hart) : (s.modHart t c f).frontiers = s.frontiers := rfl
@[simp] theorem State.modHart_lines (s : State) (t c : Nat) (f : Hart → Hart) : (s.modHart t c f).lines = s.lines := rfl
@[simp] theorem State.modHart_net (s : State) (t c : Nat) (f : Hart → Hart) : (s.modHart t c f).net = s.net := rfl
@[simp] theorem State.modHart_nextId (s : State) (t c : Nat) (f : Hart → Hart) : (s.modHart t c f).nextId = s.nextId := rfl
@[simp] theorem State.modHart_queues (s : State) (t c : Nat) (f : Hart → Hart) : (s.modHart t c f).queues = s.queues := rfl
@[simp] theorem State.modHart_launches (s : State) (t c : Nat) (f : Hart → Hart) : (s.modHart t c f).launches = s.launches := rfl
@[simp] theorem State.modHart_nextLaunch (s : State) (t c : Nat) (f : Hart → Hart) : (s.modHart t c f).nextLaunch = s.nextLaunch := rfl
@[simp] theorem State.modHart_parcels (s : State) (t c : Nat) (f : Hart → Hart) : (s.modHart t c f).parcels = s.parcels := rfl
@[simp] theorem State.modHart_rotation (s : State) (t c : Nat) (f : Hart → Hart) : (s.modHart t c f).rotation = s.rotation := rfl
@[simp] theorem State.modHart_episodes (s : State) (t c : Nat) (f : Hart → Hart) : (s.modHart t c f).episodes = s.episodes := rfl
@[simp] theorem State.modHart_reports (s : State) (t c : Nat) (f : Hart → Hart) : (s.modHart t c f).reports = s.reports := rfl
@[simp] theorem State.modHart_retiredTasks (s : State) (t c : Nat) (f : Hart → Hart) : (s.modHart t c f).retiredTasks = s.retiredTasks := rfl
@[simp] theorem State.modHart_pages (s : State) (t c : Nat) (f : Hart → Hart) : (s.modHart t c f).pages = s.pages := rfl
@[simp] theorem State.modHart_pending (s : State) (t c : Nat) (f : Hart → Hart) : (s.modHart t c f).pending = s.pending := rfl
@[simp] theorem State.modHart_writes (s : State) (t c : Nat) (f : Hart → Hart) : (s.modHart t c f).writes = s.writes := rfl
@[simp] theorem State.modHart_routes (s : State) (t c : Nat) (f : Hart → Hart) : (s.modHart t c f).routes = s.routes := rfl
@[simp] theorem State.modHart_completions (s : State) (t c : Nat) (f : Hart → Hart) : (s.modHart t c f).completions = s.completions := rfl
@[simp] theorem State.modHart_asids (s : State) (t c : Nat) (f : Hart → Hart) : (s.modHart t c f).asids = s.asids := rfl
@[simp] theorem State.modHart_asidHigh (s : State) (t c : Nat) (f : Hart → Hart) : (s.modHart t c f).asidHigh = s.asidHigh := rfl
@[simp] theorem State.modHart_invals (s : State) (t c : Nat) (f : Hart → Hart) : (s.modHart t c f).invals = s.invals := rfl
@[simp] theorem State.modHart_invdone (s : State) (t c : Nat) (f : Hart → Hart) : (s.modHart t c f).invdone = s.invdone := rfl
@[simp] theorem State.modHart_frdrop (s : State) (t c : Nat) (f : Hart → Hart) : (s.modHart t c f).frdrop = s.frdrop := rfl
@[simp] theorem State.modHart_keys (s : State) (t c : Nat) (f : Hart → Hart) : (s.modHart t c f).keys = s.keys := rfl
@[simp] theorem State.modHart_kstage (s : State) (t c : Nat) (f : Hart → Hart) : (s.modHart t c f).kstage = s.kstage := rfl
@[simp] theorem State.modHart_kdone (s : State) (t c : Nat) (f : Hart → Hart) : (s.modHart t c f).kdone = s.kdone := rfl
@[simp] theorem State.modHart_kres (s : State) (t c : Nat) (f : Hart → Hart) : (s.modHart t c f).kres = s.kres := rfl
@[simp] theorem State.modHart_podid (s : State) (t c : Nat) (f : Hart → Hart) : (s.modHart t c f).podid = s.podid := rfl
@[simp] theorem State.modHart_admission (s : State) (t c : Nat) (f : Hart → Hart) : (s.modHart t c f).admission = s.admission := rfl
@[simp] theorem State.modHart_sessions (s : State) (t c : Nat) (f : Hart → Hart) : (s.modHart t c f).sessions = s.sessions := rfl
@[simp] theorem State.modHart_stackTurn (s : State) (t c : Nat) (f : Hart → Hart) : (s.modHart t c f).stackTurn = s.stackTurn := rfl
@[simp] theorem State.modHart_linkLanes (s : State) (t c : Nat) (f : Hart → Hart) : (s.modHart t c f).linkLanes = s.linkLanes := rfl
@[simp] theorem State.modHart_linkRate (s : State) (t c : Nat) (f : Hart → Hart) : (s.modHart t c f).linkRate = s.linkRate := rfl
@[simp] theorem State.modHart_podDown (s : State) (t c : Nat) (f : Hart → Hart) : (s.modHart t c f).podDown = s.podDown := rfl
@[simp] theorem State.modHart_deadLinks (s : State) (t c : Nat) (f : Hart → Hart) : (s.modHart t c f).deadLinks = s.deadLinks := rfl
@[simp] theorem State.modHart_repaired (s : State) (t c : Nat) (f : Hart → Hart) : (s.modHart t c f).repaired = s.repaired := rfl
@[simp] theorem State.modHart_rowErrs (s : State) (t c : Nat) (f : Hart → Hart) : (s.modHart t c f).rowErrs = s.rowErrs := rfl
@[simp] theorem State.modHart_rewritten (s : State) (t c : Nat) (f : Hart → Hart) : (s.modHart t c f).rewritten = s.rewritten := rfl
@[simp] theorem State.modHart_lanesUsed (s : State) (t c : Nat) (f : Hart → Hart) : (s.modHart t c f).lanesUsed = s.lanesUsed := rfl
@[simp] theorem State.modHart_lifetime (s : State) (t c : Nat) (f : Hart → Hart) : (s.modHart t c f).lifetime = s.lifetime := rfl
@[simp] theorem State.modHart_mram (s : State) (t c : Nat) (f : Hart → Hart) : (s.modHart t c f).mram = s.mram := rfl
@[simp] theorem State.modHart_secVersion (s : State) (t c : Nat) (f : Hart → Hart) : (s.modHart t c f).secVersion = s.secVersion := rfl
@[simp] theorem State.modHart_imageNo (s : State) (t c : Nat) (f : Hart → Hart) : (s.modHart t c f).imageNo = s.imageNo := rfl
@[simp] theorem State.modHart_spdmVersion (s : State) (t c : Nat) (f : Hart → Hart) : (s.modHart t c f).spdmVersion = s.spdmVersion := rfl
@[simp] theorem State.modHart_spdmAlgs (s : State) (t c : Nat) (f : Hart → Hart) : (s.modHart t c f).spdmAlgs = s.spdmAlgs := rfl
@[simp] theorem State.modHart_spdmLog (s : State) (t c : Nat) (f : Hart → Hart) : (s.modHart t c f).spdmLog = s.spdmLog := rfl
@[simp] theorem State.modHart_sideband (s : State) (t c : Nat) (f : Hart → Hart) : (s.modHart t c f).sideband = s.sideband := rfl

/-! ### modBun -/

@[simp] theorem State.modBun_micro (s : State) (t c : Nat) (f : Bun → Bun) : (s.modBun t c f).micro = s.micro := rfl
@[simp] theorem State.modBun_agenda (s : State) (t c : Nat) (f : Bun → Bun) : (s.modBun t c f).agenda = s.agenda := rfl
@[simp] theorem State.modBun_script (s : State) (t c : Nat) (f : Bun → Bun) : (s.modBun t c f).script = s.script := rfl
@[simp] theorem State.modBun_free (s : State) (t c : Nat) (f : Bun → Bun) : (s.modBun t c f).free = s.free := rfl
@[simp] theorem State.modBun_focus (s : State) (t c : Nat) (f : Bun → Bun) : (s.modBun t c f).focus = s.focus := rfl
@[simp] theorem State.modBun_now (s : State) (t c : Nat) (f : Bun → Bun) : (s.modBun t c f).now = s.now := rfl
@[simp] theorem State.modBun_boot (s : State) (t c : Nat) (f : Bun → Bun) : (s.modBun t c f).boot = s.boot := rfl
@[simp] theorem State.modBun_cls (s : State) (t c : Nat) (f : Bun → Bun) : (s.modBun t c f).cls = s.cls := rfl
@[simp] theorem State.modBun_limits (s : State) (t c : Nat) (f : Bun → Bun) : (s.modBun t c f).limits = s.limits := rfl
@[simp] theorem State.modBun_mem (s : State) (t c : Nat) (f : Bun → Bun) : (s.modBun t c f).mem = s.mem := rfl
@[simp] theorem State.modBun_hostMem (s : State) (t c : Nat) (f : Bun → Bun) : (s.modBun t c f).hostMem = s.hostMem := rfl
@[simp] theorem State.modBun_hostOut (s : State) (t c : Nat) (f : Bun → Bun) : (s.modBun t c f).hostOut = s.hostOut := rfl
@[simp] theorem State.modBun_ecc (s : State) (t c : Nat) (f : Bun → Bun) : (s.modBun t c f).ecc = s.ecc := rfl
@[simp] theorem State.modBun_n0 (s : State) (t c : Nat) (f : Bun → Bun) : (s.modBun t c f).n0 = s.n0 := rfl
@[simp] theorem State.modBun_fenced (s : State) (t c : Nat) (f : Bun → Bun) : (s.modBun t c f).fenced = s.fenced := rfl
@[simp] theorem State.modBun_place (s : State) (t c : Nat) (f : Bun → Bun) : (s.modBun t c f).place = s.place := rfl
@[simp] theorem State.modBun_dealt (s : State) (t c : Nat) (f : Bun → Bun) : (s.modBun t c f).dealt = s.dealt := rfl
@[simp] theorem State.modBun_chosen (s : State) (t c : Nat) (f : Bun → Bun) : (s.modBun t c f).chosen = s.chosen := rfl
@[simp] theorem State.modBun_sites (s : State) (t c : Nat) (f : Bun → Bun) : (s.modBun t c f).sites = s.sites := rfl
@[simp] theorem State.modBun_holding (s : State) (t c : Nat) (f : Bun → Bun) : (s.modBun t c f).holding = s.holding := rfl
@[simp] theorem State.modBun_held (s : State) (t c : Nat) (f : Bun → Bun) : (s.modBun t c f).held = s.held := rfl
@[simp] theorem State.modBun_safeCeiling (s : State) (t c : Nat) (f : Bun → Bun) : (s.modBun t c f).safeCeiling = s.safeCeiling := rfl
@[simp] theorem State.modBun_dies (s : State) (t c : Nat) (f : Bun → Bun) : (s.modBun t c f).dies = s.dies := rfl
@[simp] theorem State.modBun_frontiers (s : State) (t c : Nat) (f : Bun → Bun) : (s.modBun t c f).frontiers = s.frontiers := rfl
@[simp] theorem State.modBun_lines (s : State) (t c : Nat) (f : Bun → Bun) : (s.modBun t c f).lines = s.lines := rfl
@[simp] theorem State.modBun_net (s : State) (t c : Nat) (f : Bun → Bun) : (s.modBun t c f).net = s.net := rfl
@[simp] theorem State.modBun_nextId (s : State) (t c : Nat) (f : Bun → Bun) : (s.modBun t c f).nextId = s.nextId := rfl
@[simp] theorem State.modBun_queues (s : State) (t c : Nat) (f : Bun → Bun) : (s.modBun t c f).queues = s.queues := rfl
@[simp] theorem State.modBun_launches (s : State) (t c : Nat) (f : Bun → Bun) : (s.modBun t c f).launches = s.launches := rfl
@[simp] theorem State.modBun_nextLaunch (s : State) (t c : Nat) (f : Bun → Bun) : (s.modBun t c f).nextLaunch = s.nextLaunch := rfl
@[simp] theorem State.modBun_parcels (s : State) (t c : Nat) (f : Bun → Bun) : (s.modBun t c f).parcels = s.parcels := rfl
@[simp] theorem State.modBun_rotation (s : State) (t c : Nat) (f : Bun → Bun) : (s.modBun t c f).rotation = s.rotation := rfl
@[simp] theorem State.modBun_episodes (s : State) (t c : Nat) (f : Bun → Bun) : (s.modBun t c f).episodes = s.episodes := rfl
@[simp] theorem State.modBun_reports (s : State) (t c : Nat) (f : Bun → Bun) : (s.modBun t c f).reports = s.reports := rfl
@[simp] theorem State.modBun_retiredTasks (s : State) (t c : Nat) (f : Bun → Bun) : (s.modBun t c f).retiredTasks = s.retiredTasks := rfl
@[simp] theorem State.modBun_pages (s : State) (t c : Nat) (f : Bun → Bun) : (s.modBun t c f).pages = s.pages := rfl
@[simp] theorem State.modBun_pending (s : State) (t c : Nat) (f : Bun → Bun) : (s.modBun t c f).pending = s.pending := rfl
@[simp] theorem State.modBun_writes (s : State) (t c : Nat) (f : Bun → Bun) : (s.modBun t c f).writes = s.writes := rfl
@[simp] theorem State.modBun_routes (s : State) (t c : Nat) (f : Bun → Bun) : (s.modBun t c f).routes = s.routes := rfl
@[simp] theorem State.modBun_completions (s : State) (t c : Nat) (f : Bun → Bun) : (s.modBun t c f).completions = s.completions := rfl
@[simp] theorem State.modBun_asids (s : State) (t c : Nat) (f : Bun → Bun) : (s.modBun t c f).asids = s.asids := rfl
@[simp] theorem State.modBun_asidHigh (s : State) (t c : Nat) (f : Bun → Bun) : (s.modBun t c f).asidHigh = s.asidHigh := rfl
@[simp] theorem State.modBun_invals (s : State) (t c : Nat) (f : Bun → Bun) : (s.modBun t c f).invals = s.invals := rfl
@[simp] theorem State.modBun_invdone (s : State) (t c : Nat) (f : Bun → Bun) : (s.modBun t c f).invdone = s.invdone := rfl
@[simp] theorem State.modBun_frdrop (s : State) (t c : Nat) (f : Bun → Bun) : (s.modBun t c f).frdrop = s.frdrop := rfl
@[simp] theorem State.modBun_keys (s : State) (t c : Nat) (f : Bun → Bun) : (s.modBun t c f).keys = s.keys := rfl
@[simp] theorem State.modBun_kstage (s : State) (t c : Nat) (f : Bun → Bun) : (s.modBun t c f).kstage = s.kstage := rfl
@[simp] theorem State.modBun_kdone (s : State) (t c : Nat) (f : Bun → Bun) : (s.modBun t c f).kdone = s.kdone := rfl
@[simp] theorem State.modBun_kres (s : State) (t c : Nat) (f : Bun → Bun) : (s.modBun t c f).kres = s.kres := rfl
@[simp] theorem State.modBun_podid (s : State) (t c : Nat) (f : Bun → Bun) : (s.modBun t c f).podid = s.podid := rfl
@[simp] theorem State.modBun_admission (s : State) (t c : Nat) (f : Bun → Bun) : (s.modBun t c f).admission = s.admission := rfl
@[simp] theorem State.modBun_sessions (s : State) (t c : Nat) (f : Bun → Bun) : (s.modBun t c f).sessions = s.sessions := rfl
@[simp] theorem State.modBun_stackTurn (s : State) (t c : Nat) (f : Bun → Bun) : (s.modBun t c f).stackTurn = s.stackTurn := rfl
@[simp] theorem State.modBun_linkLanes (s : State) (t c : Nat) (f : Bun → Bun) : (s.modBun t c f).linkLanes = s.linkLanes := rfl
@[simp] theorem State.modBun_linkRate (s : State) (t c : Nat) (f : Bun → Bun) : (s.modBun t c f).linkRate = s.linkRate := rfl
@[simp] theorem State.modBun_podDown (s : State) (t c : Nat) (f : Bun → Bun) : (s.modBun t c f).podDown = s.podDown := rfl
@[simp] theorem State.modBun_deadLinks (s : State) (t c : Nat) (f : Bun → Bun) : (s.modBun t c f).deadLinks = s.deadLinks := rfl
@[simp] theorem State.modBun_repaired (s : State) (t c : Nat) (f : Bun → Bun) : (s.modBun t c f).repaired = s.repaired := rfl
@[simp] theorem State.modBun_rowErrs (s : State) (t c : Nat) (f : Bun → Bun) : (s.modBun t c f).rowErrs = s.rowErrs := rfl
@[simp] theorem State.modBun_rewritten (s : State) (t c : Nat) (f : Bun → Bun) : (s.modBun t c f).rewritten = s.rewritten := rfl
@[simp] theorem State.modBun_lanesUsed (s : State) (t c : Nat) (f : Bun → Bun) : (s.modBun t c f).lanesUsed = s.lanesUsed := rfl
@[simp] theorem State.modBun_lifetime (s : State) (t c : Nat) (f : Bun → Bun) : (s.modBun t c f).lifetime = s.lifetime := rfl
@[simp] theorem State.modBun_mram (s : State) (t c : Nat) (f : Bun → Bun) : (s.modBun t c f).mram = s.mram := rfl
@[simp] theorem State.modBun_secVersion (s : State) (t c : Nat) (f : Bun → Bun) : (s.modBun t c f).secVersion = s.secVersion := rfl
@[simp] theorem State.modBun_imageNo (s : State) (t c : Nat) (f : Bun → Bun) : (s.modBun t c f).imageNo = s.imageNo := rfl
@[simp] theorem State.modBun_spdmVersion (s : State) (t c : Nat) (f : Bun → Bun) : (s.modBun t c f).spdmVersion = s.spdmVersion := rfl
@[simp] theorem State.modBun_spdmAlgs (s : State) (t c : Nat) (f : Bun → Bun) : (s.modBun t c f).spdmAlgs = s.spdmAlgs := rfl
@[simp] theorem State.modBun_spdmLog (s : State) (t c : Nat) (f : Bun → Bun) : (s.modBun t c f).spdmLog = s.spdmLog := rfl
@[simp] theorem State.modBun_sideband (s : State) (t c : Nat) (f : Bun → Bun) : (s.modBun t c f).sideband = s.sideband := rfl

/-! ### modDbg -/

@[simp] theorem State.modDbg_micro (s : State) (t c : Nat) (f : Debug → Debug) : (s.modDbg t c f).micro = s.micro := rfl
@[simp] theorem State.modDbg_agenda (s : State) (t c : Nat) (f : Debug → Debug) : (s.modDbg t c f).agenda = s.agenda := rfl
@[simp] theorem State.modDbg_script (s : State) (t c : Nat) (f : Debug → Debug) : (s.modDbg t c f).script = s.script := rfl
@[simp] theorem State.modDbg_free (s : State) (t c : Nat) (f : Debug → Debug) : (s.modDbg t c f).free = s.free := rfl
@[simp] theorem State.modDbg_focus (s : State) (t c : Nat) (f : Debug → Debug) : (s.modDbg t c f).focus = s.focus := rfl
@[simp] theorem State.modDbg_now (s : State) (t c : Nat) (f : Debug → Debug) : (s.modDbg t c f).now = s.now := rfl
@[simp] theorem State.modDbg_boot (s : State) (t c : Nat) (f : Debug → Debug) : (s.modDbg t c f).boot = s.boot := rfl
@[simp] theorem State.modDbg_cls (s : State) (t c : Nat) (f : Debug → Debug) : (s.modDbg t c f).cls = s.cls := rfl
@[simp] theorem State.modDbg_limits (s : State) (t c : Nat) (f : Debug → Debug) : (s.modDbg t c f).limits = s.limits := rfl
@[simp] theorem State.modDbg_mem (s : State) (t c : Nat) (f : Debug → Debug) : (s.modDbg t c f).mem = s.mem := rfl
@[simp] theorem State.modDbg_hostMem (s : State) (t c : Nat) (f : Debug → Debug) : (s.modDbg t c f).hostMem = s.hostMem := rfl
@[simp] theorem State.modDbg_hostOut (s : State) (t c : Nat) (f : Debug → Debug) : (s.modDbg t c f).hostOut = s.hostOut := rfl
@[simp] theorem State.modDbg_ecc (s : State) (t c : Nat) (f : Debug → Debug) : (s.modDbg t c f).ecc = s.ecc := rfl
@[simp] theorem State.modDbg_n0 (s : State) (t c : Nat) (f : Debug → Debug) : (s.modDbg t c f).n0 = s.n0 := rfl
@[simp] theorem State.modDbg_fenced (s : State) (t c : Nat) (f : Debug → Debug) : (s.modDbg t c f).fenced = s.fenced := rfl
@[simp] theorem State.modDbg_place (s : State) (t c : Nat) (f : Debug → Debug) : (s.modDbg t c f).place = s.place := rfl
@[simp] theorem State.modDbg_dealt (s : State) (t c : Nat) (f : Debug → Debug) : (s.modDbg t c f).dealt = s.dealt := rfl
@[simp] theorem State.modDbg_chosen (s : State) (t c : Nat) (f : Debug → Debug) : (s.modDbg t c f).chosen = s.chosen := rfl
@[simp] theorem State.modDbg_sites (s : State) (t c : Nat) (f : Debug → Debug) : (s.modDbg t c f).sites = s.sites := rfl
@[simp] theorem State.modDbg_holding (s : State) (t c : Nat) (f : Debug → Debug) : (s.modDbg t c f).holding = s.holding := rfl
@[simp] theorem State.modDbg_held (s : State) (t c : Nat) (f : Debug → Debug) : (s.modDbg t c f).held = s.held := rfl
@[simp] theorem State.modDbg_safeCeiling (s : State) (t c : Nat) (f : Debug → Debug) : (s.modDbg t c f).safeCeiling = s.safeCeiling := rfl
@[simp] theorem State.modDbg_dies (s : State) (t c : Nat) (f : Debug → Debug) : (s.modDbg t c f).dies = s.dies := rfl
@[simp] theorem State.modDbg_frontiers (s : State) (t c : Nat) (f : Debug → Debug) : (s.modDbg t c f).frontiers = s.frontiers := rfl
@[simp] theorem State.modDbg_lines (s : State) (t c : Nat) (f : Debug → Debug) : (s.modDbg t c f).lines = s.lines := rfl
@[simp] theorem State.modDbg_net (s : State) (t c : Nat) (f : Debug → Debug) : (s.modDbg t c f).net = s.net := rfl
@[simp] theorem State.modDbg_nextId (s : State) (t c : Nat) (f : Debug → Debug) : (s.modDbg t c f).nextId = s.nextId := rfl
@[simp] theorem State.modDbg_queues (s : State) (t c : Nat) (f : Debug → Debug) : (s.modDbg t c f).queues = s.queues := rfl
@[simp] theorem State.modDbg_launches (s : State) (t c : Nat) (f : Debug → Debug) : (s.modDbg t c f).launches = s.launches := rfl
@[simp] theorem State.modDbg_nextLaunch (s : State) (t c : Nat) (f : Debug → Debug) : (s.modDbg t c f).nextLaunch = s.nextLaunch := rfl
@[simp] theorem State.modDbg_parcels (s : State) (t c : Nat) (f : Debug → Debug) : (s.modDbg t c f).parcels = s.parcels := rfl
@[simp] theorem State.modDbg_rotation (s : State) (t c : Nat) (f : Debug → Debug) : (s.modDbg t c f).rotation = s.rotation := rfl
@[simp] theorem State.modDbg_episodes (s : State) (t c : Nat) (f : Debug → Debug) : (s.modDbg t c f).episodes = s.episodes := rfl
@[simp] theorem State.modDbg_reports (s : State) (t c : Nat) (f : Debug → Debug) : (s.modDbg t c f).reports = s.reports := rfl
@[simp] theorem State.modDbg_retiredTasks (s : State) (t c : Nat) (f : Debug → Debug) : (s.modDbg t c f).retiredTasks = s.retiredTasks := rfl
@[simp] theorem State.modDbg_pages (s : State) (t c : Nat) (f : Debug → Debug) : (s.modDbg t c f).pages = s.pages := rfl
@[simp] theorem State.modDbg_pending (s : State) (t c : Nat) (f : Debug → Debug) : (s.modDbg t c f).pending = s.pending := rfl
@[simp] theorem State.modDbg_writes (s : State) (t c : Nat) (f : Debug → Debug) : (s.modDbg t c f).writes = s.writes := rfl
@[simp] theorem State.modDbg_routes (s : State) (t c : Nat) (f : Debug → Debug) : (s.modDbg t c f).routes = s.routes := rfl
@[simp] theorem State.modDbg_completions (s : State) (t c : Nat) (f : Debug → Debug) : (s.modDbg t c f).completions = s.completions := rfl
@[simp] theorem State.modDbg_asids (s : State) (t c : Nat) (f : Debug → Debug) : (s.modDbg t c f).asids = s.asids := rfl
@[simp] theorem State.modDbg_asidHigh (s : State) (t c : Nat) (f : Debug → Debug) : (s.modDbg t c f).asidHigh = s.asidHigh := rfl
@[simp] theorem State.modDbg_invals (s : State) (t c : Nat) (f : Debug → Debug) : (s.modDbg t c f).invals = s.invals := rfl
@[simp] theorem State.modDbg_invdone (s : State) (t c : Nat) (f : Debug → Debug) : (s.modDbg t c f).invdone = s.invdone := rfl
@[simp] theorem State.modDbg_frdrop (s : State) (t c : Nat) (f : Debug → Debug) : (s.modDbg t c f).frdrop = s.frdrop := rfl
@[simp] theorem State.modDbg_keys (s : State) (t c : Nat) (f : Debug → Debug) : (s.modDbg t c f).keys = s.keys := rfl
@[simp] theorem State.modDbg_kstage (s : State) (t c : Nat) (f : Debug → Debug) : (s.modDbg t c f).kstage = s.kstage := rfl
@[simp] theorem State.modDbg_kdone (s : State) (t c : Nat) (f : Debug → Debug) : (s.modDbg t c f).kdone = s.kdone := rfl
@[simp] theorem State.modDbg_kres (s : State) (t c : Nat) (f : Debug → Debug) : (s.modDbg t c f).kres = s.kres := rfl
@[simp] theorem State.modDbg_podid (s : State) (t c : Nat) (f : Debug → Debug) : (s.modDbg t c f).podid = s.podid := rfl
@[simp] theorem State.modDbg_admission (s : State) (t c : Nat) (f : Debug → Debug) : (s.modDbg t c f).admission = s.admission := rfl
@[simp] theorem State.modDbg_sessions (s : State) (t c : Nat) (f : Debug → Debug) : (s.modDbg t c f).sessions = s.sessions := rfl
@[simp] theorem State.modDbg_stackTurn (s : State) (t c : Nat) (f : Debug → Debug) : (s.modDbg t c f).stackTurn = s.stackTurn := rfl
@[simp] theorem State.modDbg_linkLanes (s : State) (t c : Nat) (f : Debug → Debug) : (s.modDbg t c f).linkLanes = s.linkLanes := rfl
@[simp] theorem State.modDbg_linkRate (s : State) (t c : Nat) (f : Debug → Debug) : (s.modDbg t c f).linkRate = s.linkRate := rfl
@[simp] theorem State.modDbg_podDown (s : State) (t c : Nat) (f : Debug → Debug) : (s.modDbg t c f).podDown = s.podDown := rfl
@[simp] theorem State.modDbg_deadLinks (s : State) (t c : Nat) (f : Debug → Debug) : (s.modDbg t c f).deadLinks = s.deadLinks := rfl
@[simp] theorem State.modDbg_repaired (s : State) (t c : Nat) (f : Debug → Debug) : (s.modDbg t c f).repaired = s.repaired := rfl
@[simp] theorem State.modDbg_rowErrs (s : State) (t c : Nat) (f : Debug → Debug) : (s.modDbg t c f).rowErrs = s.rowErrs := rfl
@[simp] theorem State.modDbg_rewritten (s : State) (t c : Nat) (f : Debug → Debug) : (s.modDbg t c f).rewritten = s.rewritten := rfl
@[simp] theorem State.modDbg_lanesUsed (s : State) (t c : Nat) (f : Debug → Debug) : (s.modDbg t c f).lanesUsed = s.lanesUsed := rfl
@[simp] theorem State.modDbg_lifetime (s : State) (t c : Nat) (f : Debug → Debug) : (s.modDbg t c f).lifetime = s.lifetime := rfl
@[simp] theorem State.modDbg_mram (s : State) (t c : Nat) (f : Debug → Debug) : (s.modDbg t c f).mram = s.mram := rfl
@[simp] theorem State.modDbg_secVersion (s : State) (t c : Nat) (f : Debug → Debug) : (s.modDbg t c f).secVersion = s.secVersion := rfl
@[simp] theorem State.modDbg_imageNo (s : State) (t c : Nat) (f : Debug → Debug) : (s.modDbg t c f).imageNo = s.imageNo := rfl
@[simp] theorem State.modDbg_spdmVersion (s : State) (t c : Nat) (f : Debug → Debug) : (s.modDbg t c f).spdmVersion = s.spdmVersion := rfl
@[simp] theorem State.modDbg_spdmAlgs (s : State) (t c : Nat) (f : Debug → Debug) : (s.modDbg t c f).spdmAlgs = s.spdmAlgs := rfl
@[simp] theorem State.modDbg_spdmLog (s : State) (t c : Nat) (f : Debug → Debug) : (s.modDbg t c f).spdmLog = s.spdmLog := rfl
@[simp] theorem State.modDbg_sideband (s : State) (t c : Nat) (f : Debug → Debug) : (s.modDbg t c f).sideband = s.sideband := rfl

/-! ### delCtx -/

@[simp] theorem State.delCtx_micro (s : State) (t c : Nat) : (s.delCtx t c).micro = s.micro := rfl
@[simp] theorem State.delCtx_agenda (s : State) (t c : Nat) : (s.delCtx t c).agenda = s.agenda := rfl
@[simp] theorem State.delCtx_script (s : State) (t c : Nat) : (s.delCtx t c).script = s.script := rfl
@[simp] theorem State.delCtx_free (s : State) (t c : Nat) : (s.delCtx t c).free = s.free := rfl
@[simp] theorem State.delCtx_focus (s : State) (t c : Nat) : (s.delCtx t c).focus = s.focus := rfl
@[simp] theorem State.delCtx_now (s : State) (t c : Nat) : (s.delCtx t c).now = s.now := rfl
@[simp] theorem State.delCtx_boot (s : State) (t c : Nat) : (s.delCtx t c).boot = s.boot := rfl
@[simp] theorem State.delCtx_cls (s : State) (t c : Nat) : (s.delCtx t c).cls = s.cls := rfl
@[simp] theorem State.delCtx_limits (s : State) (t c : Nat) : (s.delCtx t c).limits = s.limits := rfl
@[simp] theorem State.delCtx_mem (s : State) (t c : Nat) : (s.delCtx t c).mem = s.mem := rfl
@[simp] theorem State.delCtx_hostMem (s : State) (t c : Nat) : (s.delCtx t c).hostMem = s.hostMem := rfl
@[simp] theorem State.delCtx_hostOut (s : State) (t c : Nat) : (s.delCtx t c).hostOut = s.hostOut := rfl
@[simp] theorem State.delCtx_ecc (s : State) (t c : Nat) : (s.delCtx t c).ecc = s.ecc := rfl
@[simp] theorem State.delCtx_n0 (s : State) (t c : Nat) : (s.delCtx t c).n0 = s.n0 := rfl
@[simp] theorem State.delCtx_fenced (s : State) (t c : Nat) : (s.delCtx t c).fenced = s.fenced := rfl
@[simp] theorem State.delCtx_place (s : State) (t c : Nat) : (s.delCtx t c).place = s.place := rfl
@[simp] theorem State.delCtx_dealt (s : State) (t c : Nat) : (s.delCtx t c).dealt = s.dealt := rfl
@[simp] theorem State.delCtx_chosen (s : State) (t c : Nat) : (s.delCtx t c).chosen = s.chosen := rfl
@[simp] theorem State.delCtx_sites (s : State) (t c : Nat) : (s.delCtx t c).sites = s.sites := rfl
@[simp] theorem State.delCtx_holding (s : State) (t c : Nat) : (s.delCtx t c).holding = s.holding := rfl
@[simp] theorem State.delCtx_held (s : State) (t c : Nat) : (s.delCtx t c).held = s.held := rfl
@[simp] theorem State.delCtx_safeCeiling (s : State) (t c : Nat) : (s.delCtx t c).safeCeiling = s.safeCeiling := rfl
@[simp] theorem State.delCtx_dies (s : State) (t c : Nat) : (s.delCtx t c).dies = s.dies := rfl
@[simp] theorem State.delCtx_frontiers (s : State) (t c : Nat) : (s.delCtx t c).frontiers = s.frontiers := rfl
@[simp] theorem State.delCtx_lines (s : State) (t c : Nat) : (s.delCtx t c).lines = s.lines := rfl
@[simp] theorem State.delCtx_net (s : State) (t c : Nat) : (s.delCtx t c).net = s.net := rfl
@[simp] theorem State.delCtx_nextId (s : State) (t c : Nat) : (s.delCtx t c).nextId = s.nextId := rfl
@[simp] theorem State.delCtx_queues (s : State) (t c : Nat) : (s.delCtx t c).queues = s.queues := rfl
@[simp] theorem State.delCtx_launches (s : State) (t c : Nat) : (s.delCtx t c).launches = s.launches := rfl
@[simp] theorem State.delCtx_nextLaunch (s : State) (t c : Nat) : (s.delCtx t c).nextLaunch = s.nextLaunch := rfl
@[simp] theorem State.delCtx_parcels (s : State) (t c : Nat) : (s.delCtx t c).parcels = s.parcels := rfl
@[simp] theorem State.delCtx_rotation (s : State) (t c : Nat) : (s.delCtx t c).rotation = s.rotation := rfl
@[simp] theorem State.delCtx_episodes (s : State) (t c : Nat) : (s.delCtx t c).episodes = s.episodes := rfl
@[simp] theorem State.delCtx_reports (s : State) (t c : Nat) : (s.delCtx t c).reports = s.reports := rfl
@[simp] theorem State.delCtx_retiredTasks (s : State) (t c : Nat) : (s.delCtx t c).retiredTasks = s.retiredTasks := rfl
@[simp] theorem State.delCtx_pages (s : State) (t c : Nat) : (s.delCtx t c).pages = s.pages := rfl
@[simp] theorem State.delCtx_pending (s : State) (t c : Nat) : (s.delCtx t c).pending = s.pending := rfl
@[simp] theorem State.delCtx_writes (s : State) (t c : Nat) : (s.delCtx t c).writes = s.writes := rfl
@[simp] theorem State.delCtx_routes (s : State) (t c : Nat) : (s.delCtx t c).routes = s.routes := rfl
@[simp] theorem State.delCtx_completions (s : State) (t c : Nat) : (s.delCtx t c).completions = s.completions := rfl
@[simp] theorem State.delCtx_asids (s : State) (t c : Nat) : (s.delCtx t c).asids = s.asids := rfl
@[simp] theorem State.delCtx_asidHigh (s : State) (t c : Nat) : (s.delCtx t c).asidHigh = s.asidHigh := rfl
@[simp] theorem State.delCtx_invals (s : State) (t c : Nat) : (s.delCtx t c).invals = s.invals := rfl
@[simp] theorem State.delCtx_invdone (s : State) (t c : Nat) : (s.delCtx t c).invdone = s.invdone := rfl
@[simp] theorem State.delCtx_frdrop (s : State) (t c : Nat) : (s.delCtx t c).frdrop = s.frdrop := rfl
@[simp] theorem State.delCtx_keys (s : State) (t c : Nat) : (s.delCtx t c).keys = s.keys := rfl
@[simp] theorem State.delCtx_kstage (s : State) (t c : Nat) : (s.delCtx t c).kstage = s.kstage := rfl
@[simp] theorem State.delCtx_kdone (s : State) (t c : Nat) : (s.delCtx t c).kdone = s.kdone := rfl
@[simp] theorem State.delCtx_kres (s : State) (t c : Nat) : (s.delCtx t c).kres = s.kres := rfl
@[simp] theorem State.delCtx_podid (s : State) (t c : Nat) : (s.delCtx t c).podid = s.podid := rfl
@[simp] theorem State.delCtx_admission (s : State) (t c : Nat) : (s.delCtx t c).admission = s.admission := rfl
@[simp] theorem State.delCtx_sessions (s : State) (t c : Nat) : (s.delCtx t c).sessions = s.sessions := rfl
@[simp] theorem State.delCtx_stackTurn (s : State) (t c : Nat) : (s.delCtx t c).stackTurn = s.stackTurn := rfl
@[simp] theorem State.delCtx_linkLanes (s : State) (t c : Nat) : (s.delCtx t c).linkLanes = s.linkLanes := rfl
@[simp] theorem State.delCtx_linkRate (s : State) (t c : Nat) : (s.delCtx t c).linkRate = s.linkRate := rfl
@[simp] theorem State.delCtx_podDown (s : State) (t c : Nat) : (s.delCtx t c).podDown = s.podDown := rfl
@[simp] theorem State.delCtx_deadLinks (s : State) (t c : Nat) : (s.delCtx t c).deadLinks = s.deadLinks := rfl
@[simp] theorem State.delCtx_repaired (s : State) (t c : Nat) : (s.delCtx t c).repaired = s.repaired := rfl
@[simp] theorem State.delCtx_rowErrs (s : State) (t c : Nat) : (s.delCtx t c).rowErrs = s.rowErrs := rfl
@[simp] theorem State.delCtx_rewritten (s : State) (t c : Nat) : (s.delCtx t c).rewritten = s.rewritten := rfl
@[simp] theorem State.delCtx_lanesUsed (s : State) (t c : Nat) : (s.delCtx t c).lanesUsed = s.lanesUsed := rfl
@[simp] theorem State.delCtx_lifetime (s : State) (t c : Nat) : (s.delCtx t c).lifetime = s.lifetime := rfl
@[simp] theorem State.delCtx_mram (s : State) (t c : Nat) : (s.delCtx t c).mram = s.mram := rfl
@[simp] theorem State.delCtx_secVersion (s : State) (t c : Nat) : (s.delCtx t c).secVersion = s.secVersion := rfl
@[simp] theorem State.delCtx_imageNo (s : State) (t c : Nat) : (s.delCtx t c).imageNo = s.imageNo := rfl
@[simp] theorem State.delCtx_spdmVersion (s : State) (t c : Nat) : (s.delCtx t c).spdmVersion = s.spdmVersion := rfl
@[simp] theorem State.delCtx_spdmAlgs (s : State) (t c : Nat) : (s.delCtx t c).spdmAlgs = s.spdmAlgs := rfl
@[simp] theorem State.delCtx_spdmLog (s : State) (t c : Nat) : (s.delCtx t c).spdmLog = s.spdmLog := rfl
@[simp] theorem State.delCtx_sideband (s : State) (t c : Nat) : (s.delCtx t c).sideband = s.sideband := rfl

/-! ### setSem -/

@[simp] theorem State.setSem_micro (s : State) (t g : Nat) (x : Sem) : (s.setSem t g x).micro = s.micro := rfl
@[simp] theorem State.setSem_agenda (s : State) (t g : Nat) (x : Sem) : (s.setSem t g x).agenda = s.agenda := rfl
@[simp] theorem State.setSem_script (s : State) (t g : Nat) (x : Sem) : (s.setSem t g x).script = s.script := rfl
@[simp] theorem State.setSem_free (s : State) (t g : Nat) (x : Sem) : (s.setSem t g x).free = s.free := rfl
@[simp] theorem State.setSem_focus (s : State) (t g : Nat) (x : Sem) : (s.setSem t g x).focus = s.focus := rfl
@[simp] theorem State.setSem_now (s : State) (t g : Nat) (x : Sem) : (s.setSem t g x).now = s.now := rfl
@[simp] theorem State.setSem_boot (s : State) (t g : Nat) (x : Sem) : (s.setSem t g x).boot = s.boot := rfl
@[simp] theorem State.setSem_cls (s : State) (t g : Nat) (x : Sem) : (s.setSem t g x).cls = s.cls := rfl
@[simp] theorem State.setSem_limits (s : State) (t g : Nat) (x : Sem) : (s.setSem t g x).limits = s.limits := rfl
@[simp] theorem State.setSem_mem (s : State) (t g : Nat) (x : Sem) : (s.setSem t g x).mem = s.mem := rfl
@[simp] theorem State.setSem_hostMem (s : State) (t g : Nat) (x : Sem) : (s.setSem t g x).hostMem = s.hostMem := rfl
@[simp] theorem State.setSem_hostOut (s : State) (t g : Nat) (x : Sem) : (s.setSem t g x).hostOut = s.hostOut := rfl
@[simp] theorem State.setSem_ecc (s : State) (t g : Nat) (x : Sem) : (s.setSem t g x).ecc = s.ecc := rfl
@[simp] theorem State.setSem_n0 (s : State) (t g : Nat) (x : Sem) : (s.setSem t g x).n0 = s.n0 := rfl
@[simp] theorem State.setSem_fenced (s : State) (t g : Nat) (x : Sem) : (s.setSem t g x).fenced = s.fenced := rfl
@[simp] theorem State.setSem_place (s : State) (t g : Nat) (x : Sem) : (s.setSem t g x).place = s.place := rfl
@[simp] theorem State.setSem_dealt (s : State) (t g : Nat) (x : Sem) : (s.setSem t g x).dealt = s.dealt := rfl
@[simp] theorem State.setSem_chosen (s : State) (t g : Nat) (x : Sem) : (s.setSem t g x).chosen = s.chosen := rfl
@[simp] theorem State.setSem_sites (s : State) (t g : Nat) (x : Sem) : (s.setSem t g x).sites = s.sites := rfl
@[simp] theorem State.setSem_holding (s : State) (t g : Nat) (x : Sem) : (s.setSem t g x).holding = s.holding := rfl
@[simp] theorem State.setSem_held (s : State) (t g : Nat) (x : Sem) : (s.setSem t g x).held = s.held := rfl
@[simp] theorem State.setSem_safeCeiling (s : State) (t g : Nat) (x : Sem) : (s.setSem t g x).safeCeiling = s.safeCeiling := rfl
@[simp] theorem State.setSem_dies (s : State) (t g : Nat) (x : Sem) : (s.setSem t g x).dies = s.dies := rfl
@[simp] theorem State.setSem_frontiers (s : State) (t g : Nat) (x : Sem) : (s.setSem t g x).frontiers = s.frontiers := rfl
@[simp] theorem State.setSem_lines (s : State) (t g : Nat) (x : Sem) : (s.setSem t g x).lines = s.lines := rfl
@[simp] theorem State.setSem_net (s : State) (t g : Nat) (x : Sem) : (s.setSem t g x).net = s.net := rfl
@[simp] theorem State.setSem_nextId (s : State) (t g : Nat) (x : Sem) : (s.setSem t g x).nextId = s.nextId := rfl
@[simp] theorem State.setSem_queues (s : State) (t g : Nat) (x : Sem) : (s.setSem t g x).queues = s.queues := rfl
@[simp] theorem State.setSem_launches (s : State) (t g : Nat) (x : Sem) : (s.setSem t g x).launches = s.launches := rfl
@[simp] theorem State.setSem_nextLaunch (s : State) (t g : Nat) (x : Sem) : (s.setSem t g x).nextLaunch = s.nextLaunch := rfl
@[simp] theorem State.setSem_parcels (s : State) (t g : Nat) (x : Sem) : (s.setSem t g x).parcels = s.parcels := rfl
@[simp] theorem State.setSem_rotation (s : State) (t g : Nat) (x : Sem) : (s.setSem t g x).rotation = s.rotation := rfl
@[simp] theorem State.setSem_episodes (s : State) (t g : Nat) (x : Sem) : (s.setSem t g x).episodes = s.episodes := rfl
@[simp] theorem State.setSem_reports (s : State) (t g : Nat) (x : Sem) : (s.setSem t g x).reports = s.reports := rfl
@[simp] theorem State.setSem_retiredTasks (s : State) (t g : Nat) (x : Sem) : (s.setSem t g x).retiredTasks = s.retiredTasks := rfl
@[simp] theorem State.setSem_pages (s : State) (t g : Nat) (x : Sem) : (s.setSem t g x).pages = s.pages := rfl
@[simp] theorem State.setSem_pending (s : State) (t g : Nat) (x : Sem) : (s.setSem t g x).pending = s.pending := rfl
@[simp] theorem State.setSem_writes (s : State) (t g : Nat) (x : Sem) : (s.setSem t g x).writes = s.writes := rfl
@[simp] theorem State.setSem_routes (s : State) (t g : Nat) (x : Sem) : (s.setSem t g x).routes = s.routes := rfl
@[simp] theorem State.setSem_completions (s : State) (t g : Nat) (x : Sem) : (s.setSem t g x).completions = s.completions := rfl
@[simp] theorem State.setSem_asids (s : State) (t g : Nat) (x : Sem) : (s.setSem t g x).asids = s.asids := rfl
@[simp] theorem State.setSem_asidHigh (s : State) (t g : Nat) (x : Sem) : (s.setSem t g x).asidHigh = s.asidHigh := rfl
@[simp] theorem State.setSem_invals (s : State) (t g : Nat) (x : Sem) : (s.setSem t g x).invals = s.invals := rfl
@[simp] theorem State.setSem_invdone (s : State) (t g : Nat) (x : Sem) : (s.setSem t g x).invdone = s.invdone := rfl
@[simp] theorem State.setSem_frdrop (s : State) (t g : Nat) (x : Sem) : (s.setSem t g x).frdrop = s.frdrop := rfl
@[simp] theorem State.setSem_keys (s : State) (t g : Nat) (x : Sem) : (s.setSem t g x).keys = s.keys := rfl
@[simp] theorem State.setSem_kstage (s : State) (t g : Nat) (x : Sem) : (s.setSem t g x).kstage = s.kstage := rfl
@[simp] theorem State.setSem_kdone (s : State) (t g : Nat) (x : Sem) : (s.setSem t g x).kdone = s.kdone := rfl
@[simp] theorem State.setSem_kres (s : State) (t g : Nat) (x : Sem) : (s.setSem t g x).kres = s.kres := rfl
@[simp] theorem State.setSem_podid (s : State) (t g : Nat) (x : Sem) : (s.setSem t g x).podid = s.podid := rfl
@[simp] theorem State.setSem_admission (s : State) (t g : Nat) (x : Sem) : (s.setSem t g x).admission = s.admission := rfl
@[simp] theorem State.setSem_sessions (s : State) (t g : Nat) (x : Sem) : (s.setSem t g x).sessions = s.sessions := rfl
@[simp] theorem State.setSem_stackTurn (s : State) (t g : Nat) (x : Sem) : (s.setSem t g x).stackTurn = s.stackTurn := rfl
@[simp] theorem State.setSem_linkLanes (s : State) (t g : Nat) (x : Sem) : (s.setSem t g x).linkLanes = s.linkLanes := rfl
@[simp] theorem State.setSem_linkRate (s : State) (t g : Nat) (x : Sem) : (s.setSem t g x).linkRate = s.linkRate := rfl
@[simp] theorem State.setSem_podDown (s : State) (t g : Nat) (x : Sem) : (s.setSem t g x).podDown = s.podDown := rfl
@[simp] theorem State.setSem_deadLinks (s : State) (t g : Nat) (x : Sem) : (s.setSem t g x).deadLinks = s.deadLinks := rfl
@[simp] theorem State.setSem_repaired (s : State) (t g : Nat) (x : Sem) : (s.setSem t g x).repaired = s.repaired := rfl
@[simp] theorem State.setSem_rowErrs (s : State) (t g : Nat) (x : Sem) : (s.setSem t g x).rowErrs = s.rowErrs := rfl
@[simp] theorem State.setSem_rewritten (s : State) (t g : Nat) (x : Sem) : (s.setSem t g x).rewritten = s.rewritten := rfl
@[simp] theorem State.setSem_lanesUsed (s : State) (t g : Nat) (x : Sem) : (s.setSem t g x).lanesUsed = s.lanesUsed := rfl
@[simp] theorem State.setSem_lifetime (s : State) (t g : Nat) (x : Sem) : (s.setSem t g x).lifetime = s.lifetime := rfl
@[simp] theorem State.setSem_mram (s : State) (t g : Nat) (x : Sem) : (s.setSem t g x).mram = s.mram := rfl
@[simp] theorem State.setSem_secVersion (s : State) (t g : Nat) (x : Sem) : (s.setSem t g x).secVersion = s.secVersion := rfl
@[simp] theorem State.setSem_imageNo (s : State) (t g : Nat) (x : Sem) : (s.setSem t g x).imageNo = s.imageNo := rfl
@[simp] theorem State.setSem_spdmVersion (s : State) (t g : Nat) (x : Sem) : (s.setSem t g x).spdmVersion = s.spdmVersion := rfl
@[simp] theorem State.setSem_spdmAlgs (s : State) (t g : Nat) (x : Sem) : (s.setSem t g x).spdmAlgs = s.spdmAlgs := rfl
@[simp] theorem State.setSem_spdmLog (s : State) (t g : Nat) (x : Sem) : (s.setSem t g x).spdmLog = s.spdmLog := rfl
@[simp] theorem State.setSem_sideband (s : State) (t g : Nat) (x : Sem) : (s.setSem t g x).sideband = s.sideband := rfl

/-! ### modPage -/

@[simp] theorem State.modPage_micro (s : State) (n : Nat) (f : FnPage → FnPage) : (s.modPage n f).micro = s.micro := rfl
@[simp] theorem State.modPage_agenda (s : State) (n : Nat) (f : FnPage → FnPage) : (s.modPage n f).agenda = s.agenda := rfl
@[simp] theorem State.modPage_script (s : State) (n : Nat) (f : FnPage → FnPage) : (s.modPage n f).script = s.script := rfl
@[simp] theorem State.modPage_free (s : State) (n : Nat) (f : FnPage → FnPage) : (s.modPage n f).free = s.free := rfl
@[simp] theorem State.modPage_focus (s : State) (n : Nat) (f : FnPage → FnPage) : (s.modPage n f).focus = s.focus := rfl
@[simp] theorem State.modPage_now (s : State) (n : Nat) (f : FnPage → FnPage) : (s.modPage n f).now = s.now := rfl
@[simp] theorem State.modPage_boot (s : State) (n : Nat) (f : FnPage → FnPage) : (s.modPage n f).boot = s.boot := rfl
@[simp] theorem State.modPage_cls (s : State) (n : Nat) (f : FnPage → FnPage) : (s.modPage n f).cls = s.cls := rfl
@[simp] theorem State.modPage_limits (s : State) (n : Nat) (f : FnPage → FnPage) : (s.modPage n f).limits = s.limits := rfl
@[simp] theorem State.modPage_mem (s : State) (n : Nat) (f : FnPage → FnPage) : (s.modPage n f).mem = s.mem := rfl
@[simp] theorem State.modPage_hostMem (s : State) (n : Nat) (f : FnPage → FnPage) : (s.modPage n f).hostMem = s.hostMem := rfl
@[simp] theorem State.modPage_hostOut (s : State) (n : Nat) (f : FnPage → FnPage) : (s.modPage n f).hostOut = s.hostOut := rfl
@[simp] theorem State.modPage_ecc (s : State) (n : Nat) (f : FnPage → FnPage) : (s.modPage n f).ecc = s.ecc := rfl
@[simp] theorem State.modPage_n0 (s : State) (n : Nat) (f : FnPage → FnPage) : (s.modPage n f).n0 = s.n0 := rfl
@[simp] theorem State.modPage_fenced (s : State) (n : Nat) (f : FnPage → FnPage) : (s.modPage n f).fenced = s.fenced := rfl
@[simp] theorem State.modPage_place (s : State) (n : Nat) (f : FnPage → FnPage) : (s.modPage n f).place = s.place := rfl
@[simp] theorem State.modPage_dealt (s : State) (n : Nat) (f : FnPage → FnPage) : (s.modPage n f).dealt = s.dealt := rfl
@[simp] theorem State.modPage_chosen (s : State) (n : Nat) (f : FnPage → FnPage) : (s.modPage n f).chosen = s.chosen := rfl
@[simp] theorem State.modPage_sites (s : State) (n : Nat) (f : FnPage → FnPage) : (s.modPage n f).sites = s.sites := rfl
@[simp] theorem State.modPage_tiles (s : State) (n : Nat) (f : FnPage → FnPage) : (s.modPage n f).tiles = s.tiles := rfl
@[simp] theorem State.modPage_holding (s : State) (n : Nat) (f : FnPage → FnPage) : (s.modPage n f).holding = s.holding := rfl
@[simp] theorem State.modPage_held (s : State) (n : Nat) (f : FnPage → FnPage) : (s.modPage n f).held = s.held := rfl
@[simp] theorem State.modPage_safeCeiling (s : State) (n : Nat) (f : FnPage → FnPage) : (s.modPage n f).safeCeiling = s.safeCeiling := rfl
@[simp] theorem State.modPage_dies (s : State) (n : Nat) (f : FnPage → FnPage) : (s.modPage n f).dies = s.dies := rfl
@[simp] theorem State.modPage_frontiers (s : State) (n : Nat) (f : FnPage → FnPage) : (s.modPage n f).frontiers = s.frontiers := rfl
@[simp] theorem State.modPage_lines (s : State) (n : Nat) (f : FnPage → FnPage) : (s.modPage n f).lines = s.lines := rfl
@[simp] theorem State.modPage_net (s : State) (n : Nat) (f : FnPage → FnPage) : (s.modPage n f).net = s.net := rfl
@[simp] theorem State.modPage_nextId (s : State) (n : Nat) (f : FnPage → FnPage) : (s.modPage n f).nextId = s.nextId := rfl
@[simp] theorem State.modPage_queues (s : State) (n : Nat) (f : FnPage → FnPage) : (s.modPage n f).queues = s.queues := rfl
@[simp] theorem State.modPage_launches (s : State) (n : Nat) (f : FnPage → FnPage) : (s.modPage n f).launches = s.launches := rfl
@[simp] theorem State.modPage_nextLaunch (s : State) (n : Nat) (f : FnPage → FnPage) : (s.modPage n f).nextLaunch = s.nextLaunch := rfl
@[simp] theorem State.modPage_parcels (s : State) (n : Nat) (f : FnPage → FnPage) : (s.modPage n f).parcels = s.parcels := rfl
@[simp] theorem State.modPage_rotation (s : State) (n : Nat) (f : FnPage → FnPage) : (s.modPage n f).rotation = s.rotation := rfl
@[simp] theorem State.modPage_episodes (s : State) (n : Nat) (f : FnPage → FnPage) : (s.modPage n f).episodes = s.episodes := rfl
@[simp] theorem State.modPage_reports (s : State) (n : Nat) (f : FnPage → FnPage) : (s.modPage n f).reports = s.reports := rfl
@[simp] theorem State.modPage_retiredTasks (s : State) (n : Nat) (f : FnPage → FnPage) : (s.modPage n f).retiredTasks = s.retiredTasks := rfl
@[simp] theorem State.modPage_pending (s : State) (n : Nat) (f : FnPage → FnPage) : (s.modPage n f).pending = s.pending := rfl
@[simp] theorem State.modPage_writes (s : State) (n : Nat) (f : FnPage → FnPage) : (s.modPage n f).writes = s.writes := rfl
@[simp] theorem State.modPage_routes (s : State) (n : Nat) (f : FnPage → FnPage) : (s.modPage n f).routes = s.routes := rfl
@[simp] theorem State.modPage_completions (s : State) (n : Nat) (f : FnPage → FnPage) : (s.modPage n f).completions = s.completions := rfl
@[simp] theorem State.modPage_asids (s : State) (n : Nat) (f : FnPage → FnPage) : (s.modPage n f).asids = s.asids := rfl
@[simp] theorem State.modPage_asidHigh (s : State) (n : Nat) (f : FnPage → FnPage) : (s.modPage n f).asidHigh = s.asidHigh := rfl
@[simp] theorem State.modPage_invals (s : State) (n : Nat) (f : FnPage → FnPage) : (s.modPage n f).invals = s.invals := rfl
@[simp] theorem State.modPage_invdone (s : State) (n : Nat) (f : FnPage → FnPage) : (s.modPage n f).invdone = s.invdone := rfl
@[simp] theorem State.modPage_frdrop (s : State) (n : Nat) (f : FnPage → FnPage) : (s.modPage n f).frdrop = s.frdrop := rfl
@[simp] theorem State.modPage_keys (s : State) (n : Nat) (f : FnPage → FnPage) : (s.modPage n f).keys = s.keys := rfl
@[simp] theorem State.modPage_kstage (s : State) (n : Nat) (f : FnPage → FnPage) : (s.modPage n f).kstage = s.kstage := rfl
@[simp] theorem State.modPage_kdone (s : State) (n : Nat) (f : FnPage → FnPage) : (s.modPage n f).kdone = s.kdone := rfl
@[simp] theorem State.modPage_kres (s : State) (n : Nat) (f : FnPage → FnPage) : (s.modPage n f).kres = s.kres := rfl
@[simp] theorem State.modPage_podid (s : State) (n : Nat) (f : FnPage → FnPage) : (s.modPage n f).podid = s.podid := rfl
@[simp] theorem State.modPage_admission (s : State) (n : Nat) (f : FnPage → FnPage) : (s.modPage n f).admission = s.admission := rfl
@[simp] theorem State.modPage_sessions (s : State) (n : Nat) (f : FnPage → FnPage) : (s.modPage n f).sessions = s.sessions := rfl
@[simp] theorem State.modPage_stackTurn (s : State) (n : Nat) (f : FnPage → FnPage) : (s.modPage n f).stackTurn = s.stackTurn := rfl
@[simp] theorem State.modPage_linkLanes (s : State) (n : Nat) (f : FnPage → FnPage) : (s.modPage n f).linkLanes = s.linkLanes := rfl
@[simp] theorem State.modPage_linkRate (s : State) (n : Nat) (f : FnPage → FnPage) : (s.modPage n f).linkRate = s.linkRate := rfl
@[simp] theorem State.modPage_podDown (s : State) (n : Nat) (f : FnPage → FnPage) : (s.modPage n f).podDown = s.podDown := rfl
@[simp] theorem State.modPage_deadLinks (s : State) (n : Nat) (f : FnPage → FnPage) : (s.modPage n f).deadLinks = s.deadLinks := rfl
@[simp] theorem State.modPage_repaired (s : State) (n : Nat) (f : FnPage → FnPage) : (s.modPage n f).repaired = s.repaired := rfl
@[simp] theorem State.modPage_rowErrs (s : State) (n : Nat) (f : FnPage → FnPage) : (s.modPage n f).rowErrs = s.rowErrs := rfl
@[simp] theorem State.modPage_rewritten (s : State) (n : Nat) (f : FnPage → FnPage) : (s.modPage n f).rewritten = s.rewritten := rfl
@[simp] theorem State.modPage_lanesUsed (s : State) (n : Nat) (f : FnPage → FnPage) : (s.modPage n f).lanesUsed = s.lanesUsed := rfl
@[simp] theorem State.modPage_lifetime (s : State) (n : Nat) (f : FnPage → FnPage) : (s.modPage n f).lifetime = s.lifetime := rfl
@[simp] theorem State.modPage_mram (s : State) (n : Nat) (f : FnPage → FnPage) : (s.modPage n f).mram = s.mram := rfl
@[simp] theorem State.modPage_secVersion (s : State) (n : Nat) (f : FnPage → FnPage) : (s.modPage n f).secVersion = s.secVersion := rfl
@[simp] theorem State.modPage_imageNo (s : State) (n : Nat) (f : FnPage → FnPage) : (s.modPage n f).imageNo = s.imageNo := rfl
@[simp] theorem State.modPage_spdmVersion (s : State) (n : Nat) (f : FnPage → FnPage) : (s.modPage n f).spdmVersion = s.spdmVersion := rfl
@[simp] theorem State.modPage_spdmAlgs (s : State) (n : Nat) (f : FnPage → FnPage) : (s.modPage n f).spdmAlgs = s.spdmAlgs := rfl
@[simp] theorem State.modPage_spdmLog (s : State) (n : Nat) (f : FnPage → FnPage) : (s.modPage n f).spdmLog = s.spdmLog := rfl
@[simp] theorem State.modPage_sideband (s : State) (n : Nat) (f : FnPage → FnPage) : (s.modPage n f).sideband = s.sideband := rfl

/-! ### modQueue -/

@[simp] theorem State.modQueue_micro (s : State) (q : Nat) (f : LQueue → LQueue) : (s.modQueue q f).micro = s.micro := rfl
@[simp] theorem State.modQueue_agenda (s : State) (q : Nat) (f : LQueue → LQueue) : (s.modQueue q f).agenda = s.agenda := rfl
@[simp] theorem State.modQueue_script (s : State) (q : Nat) (f : LQueue → LQueue) : (s.modQueue q f).script = s.script := rfl
@[simp] theorem State.modQueue_free (s : State) (q : Nat) (f : LQueue → LQueue) : (s.modQueue q f).free = s.free := rfl
@[simp] theorem State.modQueue_focus (s : State) (q : Nat) (f : LQueue → LQueue) : (s.modQueue q f).focus = s.focus := rfl
@[simp] theorem State.modQueue_now (s : State) (q : Nat) (f : LQueue → LQueue) : (s.modQueue q f).now = s.now := rfl
@[simp] theorem State.modQueue_boot (s : State) (q : Nat) (f : LQueue → LQueue) : (s.modQueue q f).boot = s.boot := rfl
@[simp] theorem State.modQueue_cls (s : State) (q : Nat) (f : LQueue → LQueue) : (s.modQueue q f).cls = s.cls := rfl
@[simp] theorem State.modQueue_limits (s : State) (q : Nat) (f : LQueue → LQueue) : (s.modQueue q f).limits = s.limits := rfl
@[simp] theorem State.modQueue_mem (s : State) (q : Nat) (f : LQueue → LQueue) : (s.modQueue q f).mem = s.mem := rfl
@[simp] theorem State.modQueue_hostMem (s : State) (q : Nat) (f : LQueue → LQueue) : (s.modQueue q f).hostMem = s.hostMem := rfl
@[simp] theorem State.modQueue_hostOut (s : State) (q : Nat) (f : LQueue → LQueue) : (s.modQueue q f).hostOut = s.hostOut := rfl
@[simp] theorem State.modQueue_ecc (s : State) (q : Nat) (f : LQueue → LQueue) : (s.modQueue q f).ecc = s.ecc := rfl
@[simp] theorem State.modQueue_n0 (s : State) (q : Nat) (f : LQueue → LQueue) : (s.modQueue q f).n0 = s.n0 := rfl
@[simp] theorem State.modQueue_fenced (s : State) (q : Nat) (f : LQueue → LQueue) : (s.modQueue q f).fenced = s.fenced := rfl
@[simp] theorem State.modQueue_place (s : State) (q : Nat) (f : LQueue → LQueue) : (s.modQueue q f).place = s.place := rfl
@[simp] theorem State.modQueue_dealt (s : State) (q : Nat) (f : LQueue → LQueue) : (s.modQueue q f).dealt = s.dealt := rfl
@[simp] theorem State.modQueue_chosen (s : State) (q : Nat) (f : LQueue → LQueue) : (s.modQueue q f).chosen = s.chosen := rfl
@[simp] theorem State.modQueue_sites (s : State) (q : Nat) (f : LQueue → LQueue) : (s.modQueue q f).sites = s.sites := rfl
@[simp] theorem State.modQueue_tiles (s : State) (q : Nat) (f : LQueue → LQueue) : (s.modQueue q f).tiles = s.tiles := rfl
@[simp] theorem State.modQueue_holding (s : State) (q : Nat) (f : LQueue → LQueue) : (s.modQueue q f).holding = s.holding := rfl
@[simp] theorem State.modQueue_held (s : State) (q : Nat) (f : LQueue → LQueue) : (s.modQueue q f).held = s.held := rfl
@[simp] theorem State.modQueue_safeCeiling (s : State) (q : Nat) (f : LQueue → LQueue) : (s.modQueue q f).safeCeiling = s.safeCeiling := rfl
@[simp] theorem State.modQueue_dies (s : State) (q : Nat) (f : LQueue → LQueue) : (s.modQueue q f).dies = s.dies := rfl
@[simp] theorem State.modQueue_frontiers (s : State) (q : Nat) (f : LQueue → LQueue) : (s.modQueue q f).frontiers = s.frontiers := rfl
@[simp] theorem State.modQueue_lines (s : State) (q : Nat) (f : LQueue → LQueue) : (s.modQueue q f).lines = s.lines := rfl
@[simp] theorem State.modQueue_net (s : State) (q : Nat) (f : LQueue → LQueue) : (s.modQueue q f).net = s.net := rfl
@[simp] theorem State.modQueue_nextId (s : State) (q : Nat) (f : LQueue → LQueue) : (s.modQueue q f).nextId = s.nextId := rfl
@[simp] theorem State.modQueue_launches (s : State) (q : Nat) (f : LQueue → LQueue) : (s.modQueue q f).launches = s.launches := rfl
@[simp] theorem State.modQueue_nextLaunch (s : State) (q : Nat) (f : LQueue → LQueue) : (s.modQueue q f).nextLaunch = s.nextLaunch := rfl
@[simp] theorem State.modQueue_parcels (s : State) (q : Nat) (f : LQueue → LQueue) : (s.modQueue q f).parcels = s.parcels := rfl
@[simp] theorem State.modQueue_rotation (s : State) (q : Nat) (f : LQueue → LQueue) : (s.modQueue q f).rotation = s.rotation := rfl
@[simp] theorem State.modQueue_episodes (s : State) (q : Nat) (f : LQueue → LQueue) : (s.modQueue q f).episodes = s.episodes := rfl
@[simp] theorem State.modQueue_reports (s : State) (q : Nat) (f : LQueue → LQueue) : (s.modQueue q f).reports = s.reports := rfl
@[simp] theorem State.modQueue_retiredTasks (s : State) (q : Nat) (f : LQueue → LQueue) : (s.modQueue q f).retiredTasks = s.retiredTasks := rfl
@[simp] theorem State.modQueue_pages (s : State) (q : Nat) (f : LQueue → LQueue) : (s.modQueue q f).pages = s.pages := rfl
@[simp] theorem State.modQueue_pending (s : State) (q : Nat) (f : LQueue → LQueue) : (s.modQueue q f).pending = s.pending := rfl
@[simp] theorem State.modQueue_writes (s : State) (q : Nat) (f : LQueue → LQueue) : (s.modQueue q f).writes = s.writes := rfl
@[simp] theorem State.modQueue_routes (s : State) (q : Nat) (f : LQueue → LQueue) : (s.modQueue q f).routes = s.routes := rfl
@[simp] theorem State.modQueue_completions (s : State) (q : Nat) (f : LQueue → LQueue) : (s.modQueue q f).completions = s.completions := rfl
@[simp] theorem State.modQueue_asids (s : State) (q : Nat) (f : LQueue → LQueue) : (s.modQueue q f).asids = s.asids := rfl
@[simp] theorem State.modQueue_asidHigh (s : State) (q : Nat) (f : LQueue → LQueue) : (s.modQueue q f).asidHigh = s.asidHigh := rfl
@[simp] theorem State.modQueue_invals (s : State) (q : Nat) (f : LQueue → LQueue) : (s.modQueue q f).invals = s.invals := rfl
@[simp] theorem State.modQueue_invdone (s : State) (q : Nat) (f : LQueue → LQueue) : (s.modQueue q f).invdone = s.invdone := rfl
@[simp] theorem State.modQueue_frdrop (s : State) (q : Nat) (f : LQueue → LQueue) : (s.modQueue q f).frdrop = s.frdrop := rfl
@[simp] theorem State.modQueue_keys (s : State) (q : Nat) (f : LQueue → LQueue) : (s.modQueue q f).keys = s.keys := rfl
@[simp] theorem State.modQueue_kstage (s : State) (q : Nat) (f : LQueue → LQueue) : (s.modQueue q f).kstage = s.kstage := rfl
@[simp] theorem State.modQueue_kdone (s : State) (q : Nat) (f : LQueue → LQueue) : (s.modQueue q f).kdone = s.kdone := rfl
@[simp] theorem State.modQueue_kres (s : State) (q : Nat) (f : LQueue → LQueue) : (s.modQueue q f).kres = s.kres := rfl
@[simp] theorem State.modQueue_podid (s : State) (q : Nat) (f : LQueue → LQueue) : (s.modQueue q f).podid = s.podid := rfl
@[simp] theorem State.modQueue_admission (s : State) (q : Nat) (f : LQueue → LQueue) : (s.modQueue q f).admission = s.admission := rfl
@[simp] theorem State.modQueue_sessions (s : State) (q : Nat) (f : LQueue → LQueue) : (s.modQueue q f).sessions = s.sessions := rfl
@[simp] theorem State.modQueue_stackTurn (s : State) (q : Nat) (f : LQueue → LQueue) : (s.modQueue q f).stackTurn = s.stackTurn := rfl
@[simp] theorem State.modQueue_linkLanes (s : State) (q : Nat) (f : LQueue → LQueue) : (s.modQueue q f).linkLanes = s.linkLanes := rfl
@[simp] theorem State.modQueue_linkRate (s : State) (q : Nat) (f : LQueue → LQueue) : (s.modQueue q f).linkRate = s.linkRate := rfl
@[simp] theorem State.modQueue_podDown (s : State) (q : Nat) (f : LQueue → LQueue) : (s.modQueue q f).podDown = s.podDown := rfl
@[simp] theorem State.modQueue_deadLinks (s : State) (q : Nat) (f : LQueue → LQueue) : (s.modQueue q f).deadLinks = s.deadLinks := rfl
@[simp] theorem State.modQueue_repaired (s : State) (q : Nat) (f : LQueue → LQueue) : (s.modQueue q f).repaired = s.repaired := rfl
@[simp] theorem State.modQueue_rowErrs (s : State) (q : Nat) (f : LQueue → LQueue) : (s.modQueue q f).rowErrs = s.rowErrs := rfl
@[simp] theorem State.modQueue_rewritten (s : State) (q : Nat) (f : LQueue → LQueue) : (s.modQueue q f).rewritten = s.rewritten := rfl
@[simp] theorem State.modQueue_lanesUsed (s : State) (q : Nat) (f : LQueue → LQueue) : (s.modQueue q f).lanesUsed = s.lanesUsed := rfl
@[simp] theorem State.modQueue_lifetime (s : State) (q : Nat) (f : LQueue → LQueue) : (s.modQueue q f).lifetime = s.lifetime := rfl
@[simp] theorem State.modQueue_mram (s : State) (q : Nat) (f : LQueue → LQueue) : (s.modQueue q f).mram = s.mram := rfl
@[simp] theorem State.modQueue_secVersion (s : State) (q : Nat) (f : LQueue → LQueue) : (s.modQueue q f).secVersion = s.secVersion := rfl
@[simp] theorem State.modQueue_imageNo (s : State) (q : Nat) (f : LQueue → LQueue) : (s.modQueue q f).imageNo = s.imageNo := rfl
@[simp] theorem State.modQueue_spdmVersion (s : State) (q : Nat) (f : LQueue → LQueue) : (s.modQueue q f).spdmVersion = s.spdmVersion := rfl
@[simp] theorem State.modQueue_spdmAlgs (s : State) (q : Nat) (f : LQueue → LQueue) : (s.modQueue q f).spdmAlgs = s.spdmAlgs := rfl
@[simp] theorem State.modQueue_spdmLog (s : State) (q : Nat) (f : LQueue → LQueue) : (s.modQueue q f).spdmLog = s.spdmLog := rfl
@[simp] theorem State.modQueue_sideband (s : State) (q : Nat) (f : LQueue → LQueue) : (s.modQueue q f).sideband = s.sideband := rfl

/-! ### modSite -/

@[simp] theorem State.modSite_micro (s : State) (p : Nat) (f : Site → Site) : (s.modSite p f).micro = s.micro := rfl
@[simp] theorem State.modSite_agenda (s : State) (p : Nat) (f : Site → Site) : (s.modSite p f).agenda = s.agenda := rfl
@[simp] theorem State.modSite_script (s : State) (p : Nat) (f : Site → Site) : (s.modSite p f).script = s.script := rfl
@[simp] theorem State.modSite_free (s : State) (p : Nat) (f : Site → Site) : (s.modSite p f).free = s.free := rfl
@[simp] theorem State.modSite_focus (s : State) (p : Nat) (f : Site → Site) : (s.modSite p f).focus = s.focus := rfl
@[simp] theorem State.modSite_now (s : State) (p : Nat) (f : Site → Site) : (s.modSite p f).now = s.now := rfl
@[simp] theorem State.modSite_boot (s : State) (p : Nat) (f : Site → Site) : (s.modSite p f).boot = s.boot := rfl
@[simp] theorem State.modSite_cls (s : State) (p : Nat) (f : Site → Site) : (s.modSite p f).cls = s.cls := rfl
@[simp] theorem State.modSite_limits (s : State) (p : Nat) (f : Site → Site) : (s.modSite p f).limits = s.limits := rfl
@[simp] theorem State.modSite_mem (s : State) (p : Nat) (f : Site → Site) : (s.modSite p f).mem = s.mem := rfl
@[simp] theorem State.modSite_hostMem (s : State) (p : Nat) (f : Site → Site) : (s.modSite p f).hostMem = s.hostMem := rfl
@[simp] theorem State.modSite_hostOut (s : State) (p : Nat) (f : Site → Site) : (s.modSite p f).hostOut = s.hostOut := rfl
@[simp] theorem State.modSite_ecc (s : State) (p : Nat) (f : Site → Site) : (s.modSite p f).ecc = s.ecc := rfl
@[simp] theorem State.modSite_n0 (s : State) (p : Nat) (f : Site → Site) : (s.modSite p f).n0 = s.n0 := rfl
@[simp] theorem State.modSite_fenced (s : State) (p : Nat) (f : Site → Site) : (s.modSite p f).fenced = s.fenced := rfl
@[simp] theorem State.modSite_place (s : State) (p : Nat) (f : Site → Site) : (s.modSite p f).place = s.place := rfl
@[simp] theorem State.modSite_dealt (s : State) (p : Nat) (f : Site → Site) : (s.modSite p f).dealt = s.dealt := rfl
@[simp] theorem State.modSite_chosen (s : State) (p : Nat) (f : Site → Site) : (s.modSite p f).chosen = s.chosen := rfl
@[simp] theorem State.modSite_tiles (s : State) (p : Nat) (f : Site → Site) : (s.modSite p f).tiles = s.tiles := rfl
@[simp] theorem State.modSite_holding (s : State) (p : Nat) (f : Site → Site) : (s.modSite p f).holding = s.holding := rfl
@[simp] theorem State.modSite_held (s : State) (p : Nat) (f : Site → Site) : (s.modSite p f).held = s.held := rfl
@[simp] theorem State.modSite_safeCeiling (s : State) (p : Nat) (f : Site → Site) : (s.modSite p f).safeCeiling = s.safeCeiling := rfl
@[simp] theorem State.modSite_dies (s : State) (p : Nat) (f : Site → Site) : (s.modSite p f).dies = s.dies := rfl
@[simp] theorem State.modSite_frontiers (s : State) (p : Nat) (f : Site → Site) : (s.modSite p f).frontiers = s.frontiers := rfl
@[simp] theorem State.modSite_lines (s : State) (p : Nat) (f : Site → Site) : (s.modSite p f).lines = s.lines := rfl
@[simp] theorem State.modSite_net (s : State) (p : Nat) (f : Site → Site) : (s.modSite p f).net = s.net := rfl
@[simp] theorem State.modSite_nextId (s : State) (p : Nat) (f : Site → Site) : (s.modSite p f).nextId = s.nextId := rfl
@[simp] theorem State.modSite_queues (s : State) (p : Nat) (f : Site → Site) : (s.modSite p f).queues = s.queues := rfl
@[simp] theorem State.modSite_launches (s : State) (p : Nat) (f : Site → Site) : (s.modSite p f).launches = s.launches := rfl
@[simp] theorem State.modSite_nextLaunch (s : State) (p : Nat) (f : Site → Site) : (s.modSite p f).nextLaunch = s.nextLaunch := rfl
@[simp] theorem State.modSite_parcels (s : State) (p : Nat) (f : Site → Site) : (s.modSite p f).parcels = s.parcels := rfl
@[simp] theorem State.modSite_rotation (s : State) (p : Nat) (f : Site → Site) : (s.modSite p f).rotation = s.rotation := rfl
@[simp] theorem State.modSite_episodes (s : State) (p : Nat) (f : Site → Site) : (s.modSite p f).episodes = s.episodes := rfl
@[simp] theorem State.modSite_reports (s : State) (p : Nat) (f : Site → Site) : (s.modSite p f).reports = s.reports := rfl
@[simp] theorem State.modSite_retiredTasks (s : State) (p : Nat) (f : Site → Site) : (s.modSite p f).retiredTasks = s.retiredTasks := rfl
@[simp] theorem State.modSite_pages (s : State) (p : Nat) (f : Site → Site) : (s.modSite p f).pages = s.pages := rfl
@[simp] theorem State.modSite_pending (s : State) (p : Nat) (f : Site → Site) : (s.modSite p f).pending = s.pending := rfl
@[simp] theorem State.modSite_writes (s : State) (p : Nat) (f : Site → Site) : (s.modSite p f).writes = s.writes := rfl
@[simp] theorem State.modSite_routes (s : State) (p : Nat) (f : Site → Site) : (s.modSite p f).routes = s.routes := rfl
@[simp] theorem State.modSite_completions (s : State) (p : Nat) (f : Site → Site) : (s.modSite p f).completions = s.completions := rfl
@[simp] theorem State.modSite_asids (s : State) (p : Nat) (f : Site → Site) : (s.modSite p f).asids = s.asids := rfl
@[simp] theorem State.modSite_asidHigh (s : State) (p : Nat) (f : Site → Site) : (s.modSite p f).asidHigh = s.asidHigh := rfl
@[simp] theorem State.modSite_invals (s : State) (p : Nat) (f : Site → Site) : (s.modSite p f).invals = s.invals := rfl
@[simp] theorem State.modSite_invdone (s : State) (p : Nat) (f : Site → Site) : (s.modSite p f).invdone = s.invdone := rfl
@[simp] theorem State.modSite_frdrop (s : State) (p : Nat) (f : Site → Site) : (s.modSite p f).frdrop = s.frdrop := rfl
@[simp] theorem State.modSite_keys (s : State) (p : Nat) (f : Site → Site) : (s.modSite p f).keys = s.keys := rfl
@[simp] theorem State.modSite_kstage (s : State) (p : Nat) (f : Site → Site) : (s.modSite p f).kstage = s.kstage := rfl
@[simp] theorem State.modSite_kdone (s : State) (p : Nat) (f : Site → Site) : (s.modSite p f).kdone = s.kdone := rfl
@[simp] theorem State.modSite_kres (s : State) (p : Nat) (f : Site → Site) : (s.modSite p f).kres = s.kres := rfl
@[simp] theorem State.modSite_podid (s : State) (p : Nat) (f : Site → Site) : (s.modSite p f).podid = s.podid := rfl
@[simp] theorem State.modSite_admission (s : State) (p : Nat) (f : Site → Site) : (s.modSite p f).admission = s.admission := rfl
@[simp] theorem State.modSite_sessions (s : State) (p : Nat) (f : Site → Site) : (s.modSite p f).sessions = s.sessions := rfl
@[simp] theorem State.modSite_stackTurn (s : State) (p : Nat) (f : Site → Site) : (s.modSite p f).stackTurn = s.stackTurn := rfl
@[simp] theorem State.modSite_linkLanes (s : State) (p : Nat) (f : Site → Site) : (s.modSite p f).linkLanes = s.linkLanes := rfl
@[simp] theorem State.modSite_linkRate (s : State) (p : Nat) (f : Site → Site) : (s.modSite p f).linkRate = s.linkRate := rfl
@[simp] theorem State.modSite_podDown (s : State) (p : Nat) (f : Site → Site) : (s.modSite p f).podDown = s.podDown := rfl
@[simp] theorem State.modSite_deadLinks (s : State) (p : Nat) (f : Site → Site) : (s.modSite p f).deadLinks = s.deadLinks := rfl
@[simp] theorem State.modSite_repaired (s : State) (p : Nat) (f : Site → Site) : (s.modSite p f).repaired = s.repaired := rfl
@[simp] theorem State.modSite_rowErrs (s : State) (p : Nat) (f : Site → Site) : (s.modSite p f).rowErrs = s.rowErrs := rfl
@[simp] theorem State.modSite_rewritten (s : State) (p : Nat) (f : Site → Site) : (s.modSite p f).rewritten = s.rewritten := rfl
@[simp] theorem State.modSite_lanesUsed (s : State) (p : Nat) (f : Site → Site) : (s.modSite p f).lanesUsed = s.lanesUsed := rfl
@[simp] theorem State.modSite_lifetime (s : State) (p : Nat) (f : Site → Site) : (s.modSite p f).lifetime = s.lifetime := rfl
@[simp] theorem State.modSite_mram (s : State) (p : Nat) (f : Site → Site) : (s.modSite p f).mram = s.mram := rfl
@[simp] theorem State.modSite_secVersion (s : State) (p : Nat) (f : Site → Site) : (s.modSite p f).secVersion = s.secVersion := rfl
@[simp] theorem State.modSite_imageNo (s : State) (p : Nat) (f : Site → Site) : (s.modSite p f).imageNo = s.imageNo := rfl
@[simp] theorem State.modSite_spdmVersion (s : State) (p : Nat) (f : Site → Site) : (s.modSite p f).spdmVersion = s.spdmVersion := rfl
@[simp] theorem State.modSite_spdmAlgs (s : State) (p : Nat) (f : Site → Site) : (s.modSite p f).spdmAlgs = s.spdmAlgs := rfl
@[simp] theorem State.modSite_spdmLog (s : State) (p : Nat) (f : Site → Site) : (s.modSite p f).spdmLog = s.spdmLog := rfl
@[simp] theorem State.modSite_sideband (s : State) (p : Nat) (f : Site → Site) : (s.modSite p f).sideband = s.sideband := rfl

/-! ### modLaunch -/

@[simp] theorem State.modLaunch_micro (s : State) (i : Nat) (f : Launch → Launch) : (s.modLaunch i f).micro = s.micro := rfl
@[simp] theorem State.modLaunch_agenda (s : State) (i : Nat) (f : Launch → Launch) : (s.modLaunch i f).agenda = s.agenda := rfl
@[simp] theorem State.modLaunch_script (s : State) (i : Nat) (f : Launch → Launch) : (s.modLaunch i f).script = s.script := rfl
@[simp] theorem State.modLaunch_free (s : State) (i : Nat) (f : Launch → Launch) : (s.modLaunch i f).free = s.free := rfl
@[simp] theorem State.modLaunch_focus (s : State) (i : Nat) (f : Launch → Launch) : (s.modLaunch i f).focus = s.focus := rfl
@[simp] theorem State.modLaunch_now (s : State) (i : Nat) (f : Launch → Launch) : (s.modLaunch i f).now = s.now := rfl
@[simp] theorem State.modLaunch_boot (s : State) (i : Nat) (f : Launch → Launch) : (s.modLaunch i f).boot = s.boot := rfl
@[simp] theorem State.modLaunch_cls (s : State) (i : Nat) (f : Launch → Launch) : (s.modLaunch i f).cls = s.cls := rfl
@[simp] theorem State.modLaunch_limits (s : State) (i : Nat) (f : Launch → Launch) : (s.modLaunch i f).limits = s.limits := rfl
@[simp] theorem State.modLaunch_mem (s : State) (i : Nat) (f : Launch → Launch) : (s.modLaunch i f).mem = s.mem := rfl
@[simp] theorem State.modLaunch_hostMem (s : State) (i : Nat) (f : Launch → Launch) : (s.modLaunch i f).hostMem = s.hostMem := rfl
@[simp] theorem State.modLaunch_hostOut (s : State) (i : Nat) (f : Launch → Launch) : (s.modLaunch i f).hostOut = s.hostOut := rfl
@[simp] theorem State.modLaunch_ecc (s : State) (i : Nat) (f : Launch → Launch) : (s.modLaunch i f).ecc = s.ecc := rfl
@[simp] theorem State.modLaunch_n0 (s : State) (i : Nat) (f : Launch → Launch) : (s.modLaunch i f).n0 = s.n0 := rfl
@[simp] theorem State.modLaunch_fenced (s : State) (i : Nat) (f : Launch → Launch) : (s.modLaunch i f).fenced = s.fenced := rfl
@[simp] theorem State.modLaunch_place (s : State) (i : Nat) (f : Launch → Launch) : (s.modLaunch i f).place = s.place := rfl
@[simp] theorem State.modLaunch_dealt (s : State) (i : Nat) (f : Launch → Launch) : (s.modLaunch i f).dealt = s.dealt := rfl
@[simp] theorem State.modLaunch_chosen (s : State) (i : Nat) (f : Launch → Launch) : (s.modLaunch i f).chosen = s.chosen := rfl
@[simp] theorem State.modLaunch_sites (s : State) (i : Nat) (f : Launch → Launch) : (s.modLaunch i f).sites = s.sites := rfl
@[simp] theorem State.modLaunch_tiles (s : State) (i : Nat) (f : Launch → Launch) : (s.modLaunch i f).tiles = s.tiles := rfl
@[simp] theorem State.modLaunch_holding (s : State) (i : Nat) (f : Launch → Launch) : (s.modLaunch i f).holding = s.holding := rfl
@[simp] theorem State.modLaunch_held (s : State) (i : Nat) (f : Launch → Launch) : (s.modLaunch i f).held = s.held := rfl
@[simp] theorem State.modLaunch_safeCeiling (s : State) (i : Nat) (f : Launch → Launch) : (s.modLaunch i f).safeCeiling = s.safeCeiling := rfl
@[simp] theorem State.modLaunch_dies (s : State) (i : Nat) (f : Launch → Launch) : (s.modLaunch i f).dies = s.dies := rfl
@[simp] theorem State.modLaunch_frontiers (s : State) (i : Nat) (f : Launch → Launch) : (s.modLaunch i f).frontiers = s.frontiers := rfl
@[simp] theorem State.modLaunch_lines (s : State) (i : Nat) (f : Launch → Launch) : (s.modLaunch i f).lines = s.lines := rfl
@[simp] theorem State.modLaunch_net (s : State) (i : Nat) (f : Launch → Launch) : (s.modLaunch i f).net = s.net := rfl
@[simp] theorem State.modLaunch_nextId (s : State) (i : Nat) (f : Launch → Launch) : (s.modLaunch i f).nextId = s.nextId := rfl
@[simp] theorem State.modLaunch_queues (s : State) (i : Nat) (f : Launch → Launch) : (s.modLaunch i f).queues = s.queues := rfl
@[simp] theorem State.modLaunch_nextLaunch (s : State) (i : Nat) (f : Launch → Launch) : (s.modLaunch i f).nextLaunch = s.nextLaunch := rfl
@[simp] theorem State.modLaunch_parcels (s : State) (i : Nat) (f : Launch → Launch) : (s.modLaunch i f).parcels = s.parcels := rfl
@[simp] theorem State.modLaunch_rotation (s : State) (i : Nat) (f : Launch → Launch) : (s.modLaunch i f).rotation = s.rotation := rfl
@[simp] theorem State.modLaunch_episodes (s : State) (i : Nat) (f : Launch → Launch) : (s.modLaunch i f).episodes = s.episodes := rfl
@[simp] theorem State.modLaunch_reports (s : State) (i : Nat) (f : Launch → Launch) : (s.modLaunch i f).reports = s.reports := rfl
@[simp] theorem State.modLaunch_retiredTasks (s : State) (i : Nat) (f : Launch → Launch) : (s.modLaunch i f).retiredTasks = s.retiredTasks := rfl
@[simp] theorem State.modLaunch_pages (s : State) (i : Nat) (f : Launch → Launch) : (s.modLaunch i f).pages = s.pages := rfl
@[simp] theorem State.modLaunch_pending (s : State) (i : Nat) (f : Launch → Launch) : (s.modLaunch i f).pending = s.pending := rfl
@[simp] theorem State.modLaunch_writes (s : State) (i : Nat) (f : Launch → Launch) : (s.modLaunch i f).writes = s.writes := rfl
@[simp] theorem State.modLaunch_routes (s : State) (i : Nat) (f : Launch → Launch) : (s.modLaunch i f).routes = s.routes := rfl
@[simp] theorem State.modLaunch_completions (s : State) (i : Nat) (f : Launch → Launch) : (s.modLaunch i f).completions = s.completions := rfl
@[simp] theorem State.modLaunch_asids (s : State) (i : Nat) (f : Launch → Launch) : (s.modLaunch i f).asids = s.asids := rfl
@[simp] theorem State.modLaunch_asidHigh (s : State) (i : Nat) (f : Launch → Launch) : (s.modLaunch i f).asidHigh = s.asidHigh := rfl
@[simp] theorem State.modLaunch_invals (s : State) (i : Nat) (f : Launch → Launch) : (s.modLaunch i f).invals = s.invals := rfl
@[simp] theorem State.modLaunch_invdone (s : State) (i : Nat) (f : Launch → Launch) : (s.modLaunch i f).invdone = s.invdone := rfl
@[simp] theorem State.modLaunch_frdrop (s : State) (i : Nat) (f : Launch → Launch) : (s.modLaunch i f).frdrop = s.frdrop := rfl
@[simp] theorem State.modLaunch_keys (s : State) (i : Nat) (f : Launch → Launch) : (s.modLaunch i f).keys = s.keys := rfl
@[simp] theorem State.modLaunch_kstage (s : State) (i : Nat) (f : Launch → Launch) : (s.modLaunch i f).kstage = s.kstage := rfl
@[simp] theorem State.modLaunch_kdone (s : State) (i : Nat) (f : Launch → Launch) : (s.modLaunch i f).kdone = s.kdone := rfl
@[simp] theorem State.modLaunch_kres (s : State) (i : Nat) (f : Launch → Launch) : (s.modLaunch i f).kres = s.kres := rfl
@[simp] theorem State.modLaunch_podid (s : State) (i : Nat) (f : Launch → Launch) : (s.modLaunch i f).podid = s.podid := rfl
@[simp] theorem State.modLaunch_admission (s : State) (i : Nat) (f : Launch → Launch) : (s.modLaunch i f).admission = s.admission := rfl
@[simp] theorem State.modLaunch_sessions (s : State) (i : Nat) (f : Launch → Launch) : (s.modLaunch i f).sessions = s.sessions := rfl
@[simp] theorem State.modLaunch_stackTurn (s : State) (i : Nat) (f : Launch → Launch) : (s.modLaunch i f).stackTurn = s.stackTurn := rfl
@[simp] theorem State.modLaunch_linkLanes (s : State) (i : Nat) (f : Launch → Launch) : (s.modLaunch i f).linkLanes = s.linkLanes := rfl
@[simp] theorem State.modLaunch_linkRate (s : State) (i : Nat) (f : Launch → Launch) : (s.modLaunch i f).linkRate = s.linkRate := rfl
@[simp] theorem State.modLaunch_podDown (s : State) (i : Nat) (f : Launch → Launch) : (s.modLaunch i f).podDown = s.podDown := rfl
@[simp] theorem State.modLaunch_deadLinks (s : State) (i : Nat) (f : Launch → Launch) : (s.modLaunch i f).deadLinks = s.deadLinks := rfl
@[simp] theorem State.modLaunch_repaired (s : State) (i : Nat) (f : Launch → Launch) : (s.modLaunch i f).repaired = s.repaired := rfl
@[simp] theorem State.modLaunch_rowErrs (s : State) (i : Nat) (f : Launch → Launch) : (s.modLaunch i f).rowErrs = s.rowErrs := rfl
@[simp] theorem State.modLaunch_rewritten (s : State) (i : Nat) (f : Launch → Launch) : (s.modLaunch i f).rewritten = s.rewritten := rfl
@[simp] theorem State.modLaunch_lanesUsed (s : State) (i : Nat) (f : Launch → Launch) : (s.modLaunch i f).lanesUsed = s.lanesUsed := rfl
@[simp] theorem State.modLaunch_lifetime (s : State) (i : Nat) (f : Launch → Launch) : (s.modLaunch i f).lifetime = s.lifetime := rfl
@[simp] theorem State.modLaunch_mram (s : State) (i : Nat) (f : Launch → Launch) : (s.modLaunch i f).mram = s.mram := rfl
@[simp] theorem State.modLaunch_secVersion (s : State) (i : Nat) (f : Launch → Launch) : (s.modLaunch i f).secVersion = s.secVersion := rfl
@[simp] theorem State.modLaunch_imageNo (s : State) (i : Nat) (f : Launch → Launch) : (s.modLaunch i f).imageNo = s.imageNo := rfl
@[simp] theorem State.modLaunch_spdmVersion (s : State) (i : Nat) (f : Launch → Launch) : (s.modLaunch i f).spdmVersion = s.spdmVersion := rfl
@[simp] theorem State.modLaunch_spdmAlgs (s : State) (i : Nat) (f : Launch → Launch) : (s.modLaunch i f).spdmAlgs = s.spdmAlgs := rfl
@[simp] theorem State.modLaunch_spdmLog (s : State) (i : Nat) (f : Launch → Launch) : (s.modLaunch i f).spdmLog = s.spdmLog := rfl
@[simp] theorem State.modLaunch_sideband (s : State) (i : Nat) (f : Launch → Launch) : (s.modLaunch i f).sideband = s.sideband := rfl

/-! ### bumpFree -/

@[simp] theorem State.bumpFree_micro (s : State) : (s.bumpFree).micro = s.micro := rfl
@[simp] theorem State.bumpFree_agenda (s : State) : (s.bumpFree).agenda = s.agenda := rfl
@[simp] theorem State.bumpFree_script (s : State) : (s.bumpFree).script = s.script := rfl
@[simp] theorem State.bumpFree_focus (s : State) : (s.bumpFree).focus = s.focus := rfl
@[simp] theorem State.bumpFree_now (s : State) : (s.bumpFree).now = s.now := rfl
@[simp] theorem State.bumpFree_boot (s : State) : (s.bumpFree).boot = s.boot := rfl
@[simp] theorem State.bumpFree_cls (s : State) : (s.bumpFree).cls = s.cls := rfl
@[simp] theorem State.bumpFree_limits (s : State) : (s.bumpFree).limits = s.limits := rfl
@[simp] theorem State.bumpFree_mem (s : State) : (s.bumpFree).mem = s.mem := rfl
@[simp] theorem State.bumpFree_hostMem (s : State) : (s.bumpFree).hostMem = s.hostMem := rfl
@[simp] theorem State.bumpFree_hostOut (s : State) : (s.bumpFree).hostOut = s.hostOut := rfl
@[simp] theorem State.bumpFree_ecc (s : State) : (s.bumpFree).ecc = s.ecc := rfl
@[simp] theorem State.bumpFree_n0 (s : State) : (s.bumpFree).n0 = s.n0 := rfl
@[simp] theorem State.bumpFree_fenced (s : State) : (s.bumpFree).fenced = s.fenced := rfl
@[simp] theorem State.bumpFree_place (s : State) : (s.bumpFree).place = s.place := rfl
@[simp] theorem State.bumpFree_dealt (s : State) : (s.bumpFree).dealt = s.dealt := rfl
@[simp] theorem State.bumpFree_chosen (s : State) : (s.bumpFree).chosen = s.chosen := rfl
@[simp] theorem State.bumpFree_sites (s : State) : (s.bumpFree).sites = s.sites := rfl
@[simp] theorem State.bumpFree_tiles (s : State) : (s.bumpFree).tiles = s.tiles := rfl
@[simp] theorem State.bumpFree_holding (s : State) : (s.bumpFree).holding = s.holding := rfl
@[simp] theorem State.bumpFree_held (s : State) : (s.bumpFree).held = s.held := rfl
@[simp] theorem State.bumpFree_safeCeiling (s : State) : (s.bumpFree).safeCeiling = s.safeCeiling := rfl
@[simp] theorem State.bumpFree_dies (s : State) : (s.bumpFree).dies = s.dies := rfl
@[simp] theorem State.bumpFree_frontiers (s : State) : (s.bumpFree).frontiers = s.frontiers := rfl
@[simp] theorem State.bumpFree_lines (s : State) : (s.bumpFree).lines = s.lines := rfl
@[simp] theorem State.bumpFree_net (s : State) : (s.bumpFree).net = s.net := rfl
@[simp] theorem State.bumpFree_nextId (s : State) : (s.bumpFree).nextId = s.nextId := rfl
@[simp] theorem State.bumpFree_queues (s : State) : (s.bumpFree).queues = s.queues := rfl
@[simp] theorem State.bumpFree_launches (s : State) : (s.bumpFree).launches = s.launches := rfl
@[simp] theorem State.bumpFree_nextLaunch (s : State) : (s.bumpFree).nextLaunch = s.nextLaunch := rfl
@[simp] theorem State.bumpFree_parcels (s : State) : (s.bumpFree).parcels = s.parcels := rfl
@[simp] theorem State.bumpFree_rotation (s : State) : (s.bumpFree).rotation = s.rotation := rfl
@[simp] theorem State.bumpFree_episodes (s : State) : (s.bumpFree).episodes = s.episodes := rfl
@[simp] theorem State.bumpFree_reports (s : State) : (s.bumpFree).reports = s.reports := rfl
@[simp] theorem State.bumpFree_retiredTasks (s : State) : (s.bumpFree).retiredTasks = s.retiredTasks := rfl
@[simp] theorem State.bumpFree_pages (s : State) : (s.bumpFree).pages = s.pages := rfl
@[simp] theorem State.bumpFree_pending (s : State) : (s.bumpFree).pending = s.pending := rfl
@[simp] theorem State.bumpFree_writes (s : State) : (s.bumpFree).writes = s.writes := rfl
@[simp] theorem State.bumpFree_routes (s : State) : (s.bumpFree).routes = s.routes := rfl
@[simp] theorem State.bumpFree_completions (s : State) : (s.bumpFree).completions = s.completions := rfl
@[simp] theorem State.bumpFree_asids (s : State) : (s.bumpFree).asids = s.asids := rfl
@[simp] theorem State.bumpFree_asidHigh (s : State) : (s.bumpFree).asidHigh = s.asidHigh := rfl
@[simp] theorem State.bumpFree_invals (s : State) : (s.bumpFree).invals = s.invals := rfl
@[simp] theorem State.bumpFree_invdone (s : State) : (s.bumpFree).invdone = s.invdone := rfl
@[simp] theorem State.bumpFree_frdrop (s : State) : (s.bumpFree).frdrop = s.frdrop := rfl
@[simp] theorem State.bumpFree_keys (s : State) : (s.bumpFree).keys = s.keys := rfl
@[simp] theorem State.bumpFree_kstage (s : State) : (s.bumpFree).kstage = s.kstage := rfl
@[simp] theorem State.bumpFree_kdone (s : State) : (s.bumpFree).kdone = s.kdone := rfl
@[simp] theorem State.bumpFree_kres (s : State) : (s.bumpFree).kres = s.kres := rfl
@[simp] theorem State.bumpFree_podid (s : State) : (s.bumpFree).podid = s.podid := rfl
@[simp] theorem State.bumpFree_admission (s : State) : (s.bumpFree).admission = s.admission := rfl
@[simp] theorem State.bumpFree_sessions (s : State) : (s.bumpFree).sessions = s.sessions := rfl
@[simp] theorem State.bumpFree_stackTurn (s : State) : (s.bumpFree).stackTurn = s.stackTurn := rfl
@[simp] theorem State.bumpFree_linkLanes (s : State) : (s.bumpFree).linkLanes = s.linkLanes := rfl
@[simp] theorem State.bumpFree_linkRate (s : State) : (s.bumpFree).linkRate = s.linkRate := rfl
@[simp] theorem State.bumpFree_podDown (s : State) : (s.bumpFree).podDown = s.podDown := rfl
@[simp] theorem State.bumpFree_deadLinks (s : State) : (s.bumpFree).deadLinks = s.deadLinks := rfl
@[simp] theorem State.bumpFree_repaired (s : State) : (s.bumpFree).repaired = s.repaired := rfl
@[simp] theorem State.bumpFree_rowErrs (s : State) : (s.bumpFree).rowErrs = s.rowErrs := rfl
@[simp] theorem State.bumpFree_rewritten (s : State) : (s.bumpFree).rewritten = s.rewritten := rfl
@[simp] theorem State.bumpFree_lanesUsed (s : State) : (s.bumpFree).lanesUsed = s.lanesUsed := rfl
@[simp] theorem State.bumpFree_lifetime (s : State) : (s.bumpFree).lifetime = s.lifetime := rfl
@[simp] theorem State.bumpFree_mram (s : State) : (s.bumpFree).mram = s.mram := rfl
@[simp] theorem State.bumpFree_secVersion (s : State) : (s.bumpFree).secVersion = s.secVersion := rfl
@[simp] theorem State.bumpFree_imageNo (s : State) : (s.bumpFree).imageNo = s.imageNo := rfl
@[simp] theorem State.bumpFree_spdmVersion (s : State) : (s.bumpFree).spdmVersion = s.spdmVersion := rfl
@[simp] theorem State.bumpFree_spdmAlgs (s : State) : (s.bumpFree).spdmAlgs = s.spdmAlgs := rfl
@[simp] theorem State.bumpFree_spdmLog (s : State) : (s.bumpFree).spdmLog = s.spdmLog := rfl
@[simp] theorem State.bumpFree_sideband (s : State) : (s.bumpFree).sideband = s.sideband := rfl

/-! ### push -/

@[simp] theorem State.push_agenda (s : State) (l : List Work) : (s.push l).agenda = s.agenda := rfl
@[simp] theorem State.push_script (s : State) (l : List Work) : (s.push l).script = s.script := rfl
@[simp] theorem State.push_free (s : State) (l : List Work) : (s.push l).free = s.free := rfl
@[simp] theorem State.push_focus (s : State) (l : List Work) : (s.push l).focus = s.focus := rfl
@[simp] theorem State.push_now (s : State) (l : List Work) : (s.push l).now = s.now := rfl
@[simp] theorem State.push_boot (s : State) (l : List Work) : (s.push l).boot = s.boot := rfl
@[simp] theorem State.push_cls (s : State) (l : List Work) : (s.push l).cls = s.cls := rfl
@[simp] theorem State.push_limits (s : State) (l : List Work) : (s.push l).limits = s.limits := rfl
@[simp] theorem State.push_mem (s : State) (l : List Work) : (s.push l).mem = s.mem := rfl
@[simp] theorem State.push_hostMem (s : State) (l : List Work) : (s.push l).hostMem = s.hostMem := rfl
@[simp] theorem State.push_hostOut (s : State) (l : List Work) : (s.push l).hostOut = s.hostOut := rfl
@[simp] theorem State.push_ecc (s : State) (l : List Work) : (s.push l).ecc = s.ecc := rfl
@[simp] theorem State.push_n0 (s : State) (l : List Work) : (s.push l).n0 = s.n0 := rfl
@[simp] theorem State.push_fenced (s : State) (l : List Work) : (s.push l).fenced = s.fenced := rfl
@[simp] theorem State.push_place (s : State) (l : List Work) : (s.push l).place = s.place := rfl
@[simp] theorem State.push_dealt (s : State) (l : List Work) : (s.push l).dealt = s.dealt := rfl
@[simp] theorem State.push_chosen (s : State) (l : List Work) : (s.push l).chosen = s.chosen := rfl
@[simp] theorem State.push_sites (s : State) (l : List Work) : (s.push l).sites = s.sites := rfl
@[simp] theorem State.push_tiles (s : State) (l : List Work) : (s.push l).tiles = s.tiles := rfl
@[simp] theorem State.push_holding (s : State) (l : List Work) : (s.push l).holding = s.holding := rfl
@[simp] theorem State.push_held (s : State) (l : List Work) : (s.push l).held = s.held := rfl
@[simp] theorem State.push_safeCeiling (s : State) (l : List Work) : (s.push l).safeCeiling = s.safeCeiling := rfl
@[simp] theorem State.push_dies (s : State) (l : List Work) : (s.push l).dies = s.dies := rfl
@[simp] theorem State.push_frontiers (s : State) (l : List Work) : (s.push l).frontiers = s.frontiers := rfl
@[simp] theorem State.push_lines (s : State) (l : List Work) : (s.push l).lines = s.lines := rfl
@[simp] theorem State.push_net (s : State) (l : List Work) : (s.push l).net = s.net := rfl
@[simp] theorem State.push_nextId (s : State) (l : List Work) : (s.push l).nextId = s.nextId := rfl
@[simp] theorem State.push_queues (s : State) (l : List Work) : (s.push l).queues = s.queues := rfl
@[simp] theorem State.push_launches (s : State) (l : List Work) : (s.push l).launches = s.launches := rfl
@[simp] theorem State.push_nextLaunch (s : State) (l : List Work) : (s.push l).nextLaunch = s.nextLaunch := rfl
@[simp] theorem State.push_parcels (s : State) (l : List Work) : (s.push l).parcels = s.parcels := rfl
@[simp] theorem State.push_rotation (s : State) (l : List Work) : (s.push l).rotation = s.rotation := rfl
@[simp] theorem State.push_episodes (s : State) (l : List Work) : (s.push l).episodes = s.episodes := rfl
@[simp] theorem State.push_reports (s : State) (l : List Work) : (s.push l).reports = s.reports := rfl
@[simp] theorem State.push_retiredTasks (s : State) (l : List Work) : (s.push l).retiredTasks = s.retiredTasks := rfl
@[simp] theorem State.push_pages (s : State) (l : List Work) : (s.push l).pages = s.pages := rfl
@[simp] theorem State.push_pending (s : State) (l : List Work) : (s.push l).pending = s.pending := rfl
@[simp] theorem State.push_writes (s : State) (l : List Work) : (s.push l).writes = s.writes := rfl
@[simp] theorem State.push_routes (s : State) (l : List Work) : (s.push l).routes = s.routes := rfl
@[simp] theorem State.push_completions (s : State) (l : List Work) : (s.push l).completions = s.completions := rfl
@[simp] theorem State.push_asids (s : State) (l : List Work) : (s.push l).asids = s.asids := rfl
@[simp] theorem State.push_asidHigh (s : State) (l : List Work) : (s.push l).asidHigh = s.asidHigh := rfl
@[simp] theorem State.push_invals (s : State) (l : List Work) : (s.push l).invals = s.invals := rfl
@[simp] theorem State.push_invdone (s : State) (l : List Work) : (s.push l).invdone = s.invdone := rfl
@[simp] theorem State.push_frdrop (s : State) (l : List Work) : (s.push l).frdrop = s.frdrop := rfl
@[simp] theorem State.push_keys (s : State) (l : List Work) : (s.push l).keys = s.keys := rfl
@[simp] theorem State.push_kstage (s : State) (l : List Work) : (s.push l).kstage = s.kstage := rfl
@[simp] theorem State.push_kdone (s : State) (l : List Work) : (s.push l).kdone = s.kdone := rfl
@[simp] theorem State.push_kres (s : State) (l : List Work) : (s.push l).kres = s.kres := rfl
@[simp] theorem State.push_podid (s : State) (l : List Work) : (s.push l).podid = s.podid := rfl
@[simp] theorem State.push_admission (s : State) (l : List Work) : (s.push l).admission = s.admission := rfl
@[simp] theorem State.push_sessions (s : State) (l : List Work) : (s.push l).sessions = s.sessions := rfl
@[simp] theorem State.push_stackTurn (s : State) (l : List Work) : (s.push l).stackTurn = s.stackTurn := rfl
@[simp] theorem State.push_linkLanes (s : State) (l : List Work) : (s.push l).linkLanes = s.linkLanes := rfl
@[simp] theorem State.push_linkRate (s : State) (l : List Work) : (s.push l).linkRate = s.linkRate := rfl
@[simp] theorem State.push_podDown (s : State) (l : List Work) : (s.push l).podDown = s.podDown := rfl
@[simp] theorem State.push_deadLinks (s : State) (l : List Work) : (s.push l).deadLinks = s.deadLinks := rfl
@[simp] theorem State.push_repaired (s : State) (l : List Work) : (s.push l).repaired = s.repaired := rfl
@[simp] theorem State.push_rowErrs (s : State) (l : List Work) : (s.push l).rowErrs = s.rowErrs := rfl
@[simp] theorem State.push_rewritten (s : State) (l : List Work) : (s.push l).rewritten = s.rewritten := rfl
@[simp] theorem State.push_lanesUsed (s : State) (l : List Work) : (s.push l).lanesUsed = s.lanesUsed := rfl
@[simp] theorem State.push_lifetime (s : State) (l : List Work) : (s.push l).lifetime = s.lifetime := rfl
@[simp] theorem State.push_mram (s : State) (l : List Work) : (s.push l).mram = s.mram := rfl
@[simp] theorem State.push_secVersion (s : State) (l : List Work) : (s.push l).secVersion = s.secVersion := rfl
@[simp] theorem State.push_imageNo (s : State) (l : List Work) : (s.push l).imageNo = s.imageNo := rfl
@[simp] theorem State.push_spdmVersion (s : State) (l : List Work) : (s.push l).spdmVersion = s.spdmVersion := rfl
@[simp] theorem State.push_spdmAlgs (s : State) (l : List Work) : (s.push l).spdmAlgs = s.spdmAlgs := rfl
@[simp] theorem State.push_spdmLog (s : State) (l : List Work) : (s.push l).spdmLog = s.spdmLog := rfl
@[simp] theorem State.push_sideband (s : State) (l : List Work) : (s.push l).sideband = s.sideband := rfl

/-! ### later -/

@[simp] theorem State.later_micro (s : State) (l : List Work) : (s.later l).micro = s.micro := rfl
@[simp] theorem State.later_script (s : State) (l : List Work) : (s.later l).script = s.script := rfl
@[simp] theorem State.later_free (s : State) (l : List Work) : (s.later l).free = s.free := rfl
@[simp] theorem State.later_focus (s : State) (l : List Work) : (s.later l).focus = s.focus := rfl
@[simp] theorem State.later_now (s : State) (l : List Work) : (s.later l).now = s.now := rfl
@[simp] theorem State.later_boot (s : State) (l : List Work) : (s.later l).boot = s.boot := rfl
@[simp] theorem State.later_cls (s : State) (l : List Work) : (s.later l).cls = s.cls := rfl
@[simp] theorem State.later_limits (s : State) (l : List Work) : (s.later l).limits = s.limits := rfl
@[simp] theorem State.later_mem (s : State) (l : List Work) : (s.later l).mem = s.mem := rfl
@[simp] theorem State.later_hostMem (s : State) (l : List Work) : (s.later l).hostMem = s.hostMem := rfl
@[simp] theorem State.later_hostOut (s : State) (l : List Work) : (s.later l).hostOut = s.hostOut := rfl
@[simp] theorem State.later_ecc (s : State) (l : List Work) : (s.later l).ecc = s.ecc := rfl
@[simp] theorem State.later_n0 (s : State) (l : List Work) : (s.later l).n0 = s.n0 := rfl
@[simp] theorem State.later_fenced (s : State) (l : List Work) : (s.later l).fenced = s.fenced := rfl
@[simp] theorem State.later_place (s : State) (l : List Work) : (s.later l).place = s.place := rfl
@[simp] theorem State.later_dealt (s : State) (l : List Work) : (s.later l).dealt = s.dealt := rfl
@[simp] theorem State.later_chosen (s : State) (l : List Work) : (s.later l).chosen = s.chosen := rfl
@[simp] theorem State.later_sites (s : State) (l : List Work) : (s.later l).sites = s.sites := rfl
@[simp] theorem State.later_tiles (s : State) (l : List Work) : (s.later l).tiles = s.tiles := rfl
@[simp] theorem State.later_holding (s : State) (l : List Work) : (s.later l).holding = s.holding := rfl
@[simp] theorem State.later_held (s : State) (l : List Work) : (s.later l).held = s.held := rfl
@[simp] theorem State.later_safeCeiling (s : State) (l : List Work) : (s.later l).safeCeiling = s.safeCeiling := rfl
@[simp] theorem State.later_dies (s : State) (l : List Work) : (s.later l).dies = s.dies := rfl
@[simp] theorem State.later_frontiers (s : State) (l : List Work) : (s.later l).frontiers = s.frontiers := rfl
@[simp] theorem State.later_lines (s : State) (l : List Work) : (s.later l).lines = s.lines := rfl
@[simp] theorem State.later_net (s : State) (l : List Work) : (s.later l).net = s.net := rfl
@[simp] theorem State.later_nextId (s : State) (l : List Work) : (s.later l).nextId = s.nextId := rfl
@[simp] theorem State.later_queues (s : State) (l : List Work) : (s.later l).queues = s.queues := rfl
@[simp] theorem State.later_launches (s : State) (l : List Work) : (s.later l).launches = s.launches := rfl
@[simp] theorem State.later_nextLaunch (s : State) (l : List Work) : (s.later l).nextLaunch = s.nextLaunch := rfl
@[simp] theorem State.later_parcels (s : State) (l : List Work) : (s.later l).parcels = s.parcels := rfl
@[simp] theorem State.later_rotation (s : State) (l : List Work) : (s.later l).rotation = s.rotation := rfl
@[simp] theorem State.later_episodes (s : State) (l : List Work) : (s.later l).episodes = s.episodes := rfl
@[simp] theorem State.later_reports (s : State) (l : List Work) : (s.later l).reports = s.reports := rfl
@[simp] theorem State.later_retiredTasks (s : State) (l : List Work) : (s.later l).retiredTasks = s.retiredTasks := rfl
@[simp] theorem State.later_pages (s : State) (l : List Work) : (s.later l).pages = s.pages := rfl
@[simp] theorem State.later_pending (s : State) (l : List Work) : (s.later l).pending = s.pending := rfl
@[simp] theorem State.later_writes (s : State) (l : List Work) : (s.later l).writes = s.writes := rfl
@[simp] theorem State.later_routes (s : State) (l : List Work) : (s.later l).routes = s.routes := rfl
@[simp] theorem State.later_completions (s : State) (l : List Work) : (s.later l).completions = s.completions := rfl
@[simp] theorem State.later_asids (s : State) (l : List Work) : (s.later l).asids = s.asids := rfl
@[simp] theorem State.later_asidHigh (s : State) (l : List Work) : (s.later l).asidHigh = s.asidHigh := rfl
@[simp] theorem State.later_invals (s : State) (l : List Work) : (s.later l).invals = s.invals := rfl
@[simp] theorem State.later_invdone (s : State) (l : List Work) : (s.later l).invdone = s.invdone := rfl
@[simp] theorem State.later_frdrop (s : State) (l : List Work) : (s.later l).frdrop = s.frdrop := rfl
@[simp] theorem State.later_keys (s : State) (l : List Work) : (s.later l).keys = s.keys := rfl
@[simp] theorem State.later_kstage (s : State) (l : List Work) : (s.later l).kstage = s.kstage := rfl
@[simp] theorem State.later_kdone (s : State) (l : List Work) : (s.later l).kdone = s.kdone := rfl
@[simp] theorem State.later_kres (s : State) (l : List Work) : (s.later l).kres = s.kres := rfl
@[simp] theorem State.later_podid (s : State) (l : List Work) : (s.later l).podid = s.podid := rfl
@[simp] theorem State.later_admission (s : State) (l : List Work) : (s.later l).admission = s.admission := rfl
@[simp] theorem State.later_sessions (s : State) (l : List Work) : (s.later l).sessions = s.sessions := rfl
@[simp] theorem State.later_stackTurn (s : State) (l : List Work) : (s.later l).stackTurn = s.stackTurn := rfl
@[simp] theorem State.later_linkLanes (s : State) (l : List Work) : (s.later l).linkLanes = s.linkLanes := rfl
@[simp] theorem State.later_linkRate (s : State) (l : List Work) : (s.later l).linkRate = s.linkRate := rfl
@[simp] theorem State.later_podDown (s : State) (l : List Work) : (s.later l).podDown = s.podDown := rfl
@[simp] theorem State.later_deadLinks (s : State) (l : List Work) : (s.later l).deadLinks = s.deadLinks := rfl
@[simp] theorem State.later_repaired (s : State) (l : List Work) : (s.later l).repaired = s.repaired := rfl
@[simp] theorem State.later_rowErrs (s : State) (l : List Work) : (s.later l).rowErrs = s.rowErrs := rfl
@[simp] theorem State.later_rewritten (s : State) (l : List Work) : (s.later l).rewritten = s.rewritten := rfl
@[simp] theorem State.later_lanesUsed (s : State) (l : List Work) : (s.later l).lanesUsed = s.lanesUsed := rfl
@[simp] theorem State.later_lifetime (s : State) (l : List Work) : (s.later l).lifetime = s.lifetime := rfl
@[simp] theorem State.later_mram (s : State) (l : List Work) : (s.later l).mram = s.mram := rfl
@[simp] theorem State.later_secVersion (s : State) (l : List Work) : (s.later l).secVersion = s.secVersion := rfl
@[simp] theorem State.later_imageNo (s : State) (l : List Work) : (s.later l).imageNo = s.imageNo := rfl
@[simp] theorem State.later_spdmVersion (s : State) (l : List Work) : (s.later l).spdmVersion = s.spdmVersion := rfl
@[simp] theorem State.later_spdmAlgs (s : State) (l : List Work) : (s.later l).spdmAlgs = s.spdmAlgs := rfl
@[simp] theorem State.later_spdmLog (s : State) (l : List Work) : (s.later l).spdmLog = s.spdmLog := rfl
@[simp] theorem State.later_sideband (s : State) (l : List Work) : (s.later l).sideband = s.sideband := rfl

end Sys2Proof.Machine
end

