-- ==== Sys2Proof/Laws/Memory.lean ====
section
/-! SUPPORT. Memory as a list of cells: what a read answers after a write, and that every memory operation keeps the
canonical form (R110; assumption 4). -/

namespace Sys2Proof.Machine

/-! ### Canonical lists -/

/-- Every listed address is above a. -/
def above (a : Nat) (l : List Host.Cell) : Prop := ∀ e ∈ l, a < e.1

theorem cellsWf_cons {a : Nat} {v : Byte} {l : List Host.Cell} :
    cellsWf ((a, v) :: l) = true ↔ v ≠ 0 ∧ above a l ∧ cellsWf l = true := by
  induction l generalizing a v with
  | nil => simp [cellsWf, above]
  | cons e l ih =>
    obtain ⟨b, w⟩ := e
    simp only [cellsWf, Bool.and_eq_true, decide_eq_true_eq, above, List.mem_cons, forall_eq_or_imp]
    constructor
    · rintro ⟨⟨hv, hab⟩, hl⟩
      refine ⟨hv, ⟨hab, fun x hx => ?_⟩, hl⟩
      exact Nat.lt_trans hab ((ih.1 hl).2.1 x hx)
    · rintro ⟨hv, ⟨hab, -⟩, hl⟩
      exact ⟨⟨hv, hab⟩, hl⟩

/-- Removing cells keeps the form. -/
theorem cellsWf_filter (p : Host.Cell → Bool) {l : List Host.Cell} (h : cellsWf l = true) :
    cellsWf (l.filter p) = true := by
  induction l with
  | nil => rfl
  | cons e l ih =>
    obtain ⟨a, v⟩ := e
    obtain ⟨hv, ha, hl⟩ := cellsWf_cons.1 h
    simp only [List.filter]
    split
    · exact cellsWf_cons.2 ⟨hv, fun x hx => ha x (List.mem_filter.1 hx).1, ih hl⟩
    · exact ih hl

theorem above_put {a b : Nat} {v : Byte} {l : List Host.Cell} (hab : a < b) (h : above a l) : above a (cellPut l b v) := by
  induction l with
  | nil => intro e he; simp [cellPut] at he; simp [he, hab]
  | cons c l ih =>
    obtain ⟨i, w⟩ := c
    simp only [cellPut]
    split
    · intro e he
      simp only [List.mem_cons] at he
      rcases he with rfl | rfl | he
      · exact hab
      · exact h _ (by simp)
      · exact h _ (by simp [he])
    · intro e he
      simp only [List.mem_cons] at he
      rcases he with rfl | he
      · exact h _ (by simp)
      · exact ih (fun x hx => h x (by simp [hx])) e he

theorem cellsWf_put {l : List Host.Cell} {a : Nat} {v : Byte} (hv : v ≠ 0) (hn : ∀ e ∈ l, e.1 ≠ a)
    (h : cellsWf l = true) : cellsWf (cellPut l a v) = true := by
  induction l with
  | nil => simpa [cellPut, cellsWf] using hv
  | cons c l ih =>
    obtain ⟨b, w⟩ := c
    obtain ⟨hw, hb, hl⟩ := cellsWf_cons.1 h
    have hne : b ≠ a := hn (b, w) (by simp)
    simp only [cellPut]
    split
    · next hab =>
      refine cellsWf_cons.2 ⟨hv, ?_, h⟩
      intro e he
      simp only [List.mem_cons] at he
      rcases he with rfl | he
      · exact hab
      · exact Nat.lt_trans hab (hb e he)
    · next hab =>
      exact cellsWf_cons.2 ⟨hw, above_put (by omega) hb, ih (fun e he => hn e (by simp [he])) hl⟩

theorem not_mem_drop (l : List Host.Cell) (a : Nat) : ∀ e ∈ cellDrop l a, e.1 ≠ a := by
  intro e he
  simpa using (List.mem_filter.1 he).2

/-- A write keeps the canonical form. -/
theorem cellsWf_write {l : List Host.Cell} (a : Nat) (v : Byte) (h : cellsWf l = true) :
    cellsWf (cellWrite l a v) = true := by
  have hd : cellsWf (cellDrop l a) = true := cellsWf_filter _ h
  unfold cellWrite
  split
  · exact hd
  · next hv => exact cellsWf_put hv (not_mem_drop l a) hd

/-! ### Reading after a write -/

theorem cellDrop_cons (b : Nat) (w : Byte) (l : List Host.Cell) (a : Nat) :
    cellDrop ((b, w) :: l) a = if b = a then cellDrop l a else (b, w) :: cellDrop l a := by
  by_cases h : b = a
  · rw [if_pos h]; exact List.filter_cons_of_neg (by simp [h])
  · rw [if_neg h]; exact List.filter_cons_of_pos (by simp [h])

theorem cellRead_cons (b : Nat) (w : Byte) (l : List Host.Cell) (a : Nat) :
    cellRead ((b, w) :: l) a = if b = a then w else cellRead l a := rfl

theorem cellRead_drop_same (l : List Host.Cell) (a : Nat) : cellRead (cellDrop l a) a = 0 := by
  induction l with
  | nil => rfl
  | cons c l ih =>
    obtain ⟨b, w⟩ := c
    rw [cellDrop_cons]
    split
    · exact ih
    · next h => rw [cellRead_cons, if_neg h]; exact ih

theorem cellRead_drop_other (l : List Host.Cell) {a b : Nat} (h : b ≠ a) : cellRead (cellDrop l a) b = cellRead l b := by
  induction l with
  | nil => rfl
  | cons c l ih =>
    obtain ⟨i, w⟩ := c
    rw [cellDrop_cons, cellRead_cons]
    split
    · next hi => rw [if_neg (by omega)]; exact ih
    · rw [cellRead_cons, ih]

theorem cellRead_put_same {l : List Host.Cell} {a : Nat} (v : Byte) (hn : ∀ e ∈ l, e.1 ≠ a) :
    cellRead (cellPut l a v) a = v := by
  induction l with
  | nil => simp [cellPut, cellRead]
  | cons c l ih =>
    obtain ⟨b, w⟩ := c
    have hb : b ≠ a := hn (b, w) (by simp)
    simp only [cellPut]
    split
    · simp [cellRead]
    · simp [cellRead, hb, ih fun e he => hn e (by simp [he])]

theorem cellRead_put_other (l : List Host.Cell) {a b : Nat} (v : Byte) (h : b ≠ a) :
    cellRead (cellPut l a v) b = cellRead l b := by
  induction l with
  | nil => simp [cellPut, cellRead, Ne.symm h]
  | cons c l ih =>
    obtain ⟨i, w⟩ := c
    simp only [cellPut]
    split
    · simp [cellRead, Ne.symm h]
    · simp [cellRead, ih]

/-- A read of the address written answers the byte written. -/
@[simp] theorem cellRead_write_same (l : List Host.Cell) (a : Nat) (v : Byte) : cellRead (cellWrite l a v) a = v := by
  unfold cellWrite
  split
  · next h => rw [cellRead_drop_same, h]
  · exact cellRead_put_same v (not_mem_drop l a)

/-- A write leaves every other address as it was. -/
theorem cellRead_write_other (l : List Host.Cell) {a b : Nat} (v : Byte) (h : b ≠ a) :
    cellRead (cellWrite l a v) b = cellRead l b := by
  unfold cellWrite
  split
  · exact cellRead_drop_other l h
  · rw [cellRead_put_other _ v h, cellRead_drop_other l h]

/-! ### The memories of the package -/

/-- Two states with the same memories are canonical together. -/
theorem State.Canon.of_eq {s u : State} (h : s.Canon) (hm : u.mem = s.mem) (hh : u.hostMem = s.hostMem) : u.Canon := by
  simpa [State.Canon, hm, hh] using h

theorem State.Canon.pokeLocal {s : State} (h : s.Canon) (t a : Nat) (b : Byte) : (s.pokeLocal t a b).Canon := by
  unfold State.pokeLocal
  split
  · exact h
  · exact ⟨cellsWf_write _ _ h.1, h.2⟩

theorem State.Canon.pokeLocals {s : State} (h : s.Canon) (t a : Nat) (l : List Byte) : (s.pokeLocals t a l).Canon := by
  induction l generalizing s a with
  | nil => exact h
  | cons b l ih => exact ih (h.pokeLocal t a b) (a + 1)

theorem State.Canon.writeLocal {s : State} (h : s.Canon) (t a : Nat) (l : List Byte) (c : Option Nat) :
    (s.writeLocal t a l c).Canon := (h.pokeLocals t a l).of_eq rfl rfl

theorem State.Canon.pokeHbm {s : State} (h : s.Canon) (a : Nat) (b : Byte) : (s.pokeHbm a b).Canon :=
  ⟨cellsWf_write _ _ h.1, h.2⟩

theorem State.Canon.pokeUnit {s : State} (h : s.Canon) (a : Nat) (l : List Byte) : (s.pokeUnit a l).Canon := by
  induction l generalizing s a with
  | nil => exact h
  | cons b l ih => exact ih (h.pokeHbm a b) (a + 1)

theorem State.Canon.hostPoke {s : State} (h : s.Canon) (a : Nat) (l : List Byte) : (s.hostPoke a l).Canon := by
  induction l generalizing s a with
  | nil => exact h
  | cons b l ih => exact ih (s := { s with hostMem := cellWrite s.hostMem a b }) ⟨h.1, cellsWf_write _ _ h.2⟩ (a + 1)

theorem State.Canon.hbmSet {s : State} (h : s.Canon) (k a : Nat) (b : Byte) : (s.hbmSet k a b).Canon := by
  unfold State.hbmSet
  split
  · exact h.pokeHbm a b
  · exact h.pokeUnit _ _

theorem State.Canon.hbmSets {s : State} (h : s.Canon) (k : Nat) (l : List (Nat × Byte)) : (s.hbmSets k l).Canon := by
  induction l generalizing s with
  | nil => exact h
  | cons e l ih => exact ih (h.hbmSet k e.1 e.2)

theorem State.Canon.zeroLocal {s : State} (h : s.Canon) (t a e : Nat) : (s.zeroLocal t a e).Canon :=
  ⟨cellsWf_filter _ h.1, h.2⟩

/-- Bytes from an address as cells: in canonical form. -/
theorem cellsWf_zip (l : List Byte) (n : Nat) :
    cellsWf (((List.range' n l.length).zip l).filter fun e => decide (e.2 ≠ 0)) = true := by
  induction l generalizing n with
  | nil => rfl
  | cons b l ih =>
    have hab : above n (((List.range' (n + 1) l.length).zip l).filter fun e => decide (e.2 ≠ 0)) := by
      intro e he
      have hz := (List.mem_filter.1 he).1
      have hr := (List.of_mem_zip (show (e.1, e.2) ∈ _ from hz)).1
      have := (List.mem_range'_1.1 hr).1
      omega
    simp only [List.length_cons, List.range'_succ, List.zip_cons_cons]
    by_cases hb : b = 0
    · rw [List.filter_cons_of_neg (by simpa using hb)]; exact ih (n + 1)
    · rw [List.filter_cons_of_pos (by simpa using hb)]; exact cellsWf_cons.2 ⟨hb, hab, ih (n + 1)⟩

/-- The image of a tile is in canonical form (R45). -/
theorem cellsWf_cellsOf (l : List Byte) : cellsWf (cellsOf l) = true := by
  have h := cellsWf_zip l 0
  rwa [← List.range_eq_range'] at h

theorem Tile.loadImage_wf (x : Tile) (r : LaunchRec) (l : List Byte) :
    cellsWf (x.loadImage r l).imem = true ∧ cellsWf (x.loadImage r l).bmem = true :=
  ⟨cellsWf_cellsOf _, cellsWf_cellsOf _⟩

end Sys2Proof.Machine
end

