-- ==== Sys2Proof/Safety.lean ====
section
/-! DEFINITION. The terms the claims about the machine are stated in: for whom a step is done, what an instruction that
completes leaves, and what it leaves unchanged. A safe run is one whose every step keeps State.Canon and answers a next
state. -/

namespace Sys2Proof.Safety

open Sys2Proof.Machine

/-! ### For whom, and how it ends -/

/-- The step is done for context c of tile t, which the tile has. -/
def At (s : State) (t c : Nat) : Prop := s.focus.tile = t ∧ s.focus.ctx = c ∧ (s.ctx? t c).isSome = true

/-- Instruction or event i answers a next state, and P holds of it. -/
def Completes (i : Instr) (s : State) (P : State → Prop) : Prop := ∃ u, exec i s = .next u ∧ P u

/-! ### What stays -/

/-- Every byte of the package's memory, every semaphore and every byte of host memory reads as before. -/
def BytesKept (s u : State) : Prop :=
  (∀ a, cellRead u.mem a = cellRead s.mem a) ∧ (∀ x g, u.sem x g = s.sem x g)
    ∧ ∀ a, cellRead u.hostMem a = cellRead s.hostMem a

/-- Every general register of every hart reads as before. -/
def RegsKept (s u : State) : Prop := ∀ x d q, u.getX x d q = s.getX x d q

/-- Likewise but for harts that a stop may find in a blocking instruction: of those a k.amo that is performed at its home is
finished first (R99). -/
def RegsHeld (s u : State) : Prop := ∀ x d q, (s.hart x d).wait = none → u.getX x d q = s.getX x d q

/-- The trap, floating-point and reservation state of a hart is what it was. -/
def HartKept (h k : Hart) : Prop :=
  k.fhandler = h.fhandler ∧ k.fepc = h.fepc ∧ k.faddr = h.faddr ∧ k.fin = h.fin ∧ k.fpcw = h.fpcw ∧ k.fflags = h.fflags

/-- Nothing but hart (t, c) has changed. -/
def OnlyHart (s u : State) (t c : Nat) : Prop := u = s.modHart t c fun _ => u.hart t c

/-- Nothing but context c of tile t has changed. -/
def OnlyCtx (s u : State) (t c : Nat) : Prop := u = s.modCtx t c fun _ => u.ctx t c

/-! ### Instructions of the control core -/

/-- rd takes v (x0 stays zero), usable after lat clock cycles; the pc passes to the next instruction; nothing else changes. -/
def Sets (s u : State) (t c : Nat) (rd : BitVec 5) (v : W64) (lat : Nat) : Prop :=
  (∀ q, u.getX t c q = if q = 0 then 0 else if q = rd then v else s.getX t c q)
    ∧ (rd ≠ 0 → tabGet 0 (u.hart t c).regAt rd.toNat = (s.tile t).clk + lat)
    ∧ (u.hart t c).pc = (s.hart t c).pc + BitVec.ofNat 64 s.focus.len
    ∧ u = s.modHart t c (fun h => { h with x := (u.hart t c).x, regAt := (u.hart t c).regAt, pc := (u.hart t c).pc })
    ∧ BytesKept s u

/-- The pc passes to the next instruction; nothing else changes. -/
def Passes (s u : State) (t c : Nat) : Prop :=
  u = s.modHart t c (fun h => { h with pc := h.pc + BitVec.ofNat 64 s.focus.len }) ∧ BytesKept s u

/-- Control passes to address a, rd takes the link; the hart issues next two clock cycles on; nothing else changes. -/
def Jumps (s u : State) (t c : Nat) (rd : BitVec 5) (a : W64) : Prop :=
  (∀ q, u.getX t c q = if q = 0 then 0 else if q = rd then (s.hart t c).pc + BitVec.ofNat 64 s.focus.len else s.getX t c q)
    ∧ (u.hart t c).pc = a ∧ (u.hart t c).nextAt = (s.tile t).clk + 2
    ∧ u = s.modHart t c (fun h => { h with
        x := (u.hart t c).x, regAt := (u.hart t c).regAt, pc := (u.hart t c).pc, nextAt := (u.hart t c).nextAt })
    ∧ BytesKept s u

/-- An address where an instruction can be fetched (R61). -/
def Fetchable (a : W64) : Prop := a.getLsbD 0 = false ∧ a.toNat < 0x10000

/-- An access of n bytes at a that the control core makes: aligned, in a carve of the launch or the semaphore block, not
watched by a debugger; what it reads has no uncorrectable error (R3, R22, R61, R376; assumption 93). -/
def Reaches (s : State) (t c : Nat) (a : W64) (n : Nat) (r w : Bool) : Prop :=
  a.toNat % n = 0 ∧ s.hartReaches t c a n = true
    ∧ (r = true → (s.ctx t c).watched false a.toNat n = false) ∧ (w = true → (s.ctx t c).watched true a.toNat n = false)
    ∧ (r = true → s.localBad t a.toNat n = false)

/-- Bytes l stand at local address a of tile t, below the semaphore block; every other byte, every semaphore, host memory,
every register, every bundle register and every other part of a hart but its pc and reservation is what it was, and so is
everything outside the tiles. -/
def Stores (s u : State) (t a : Nat) (l : List Byte) : Prop :=
  (∀ x b, u.localByte x b = if x = t ∧ a ≤ b ∧ b < a + l.length then l.getD (b - a) 0 else s.localByte x b)
    ∧ (∀ p, p < sliceAddr t a ∨ sliceAddr t a + l.length ≤ p → cellRead u.mem p = cellRead s.mem p)
    ∧ (∀ x g, u.sem x g = s.sem x g)
    ∧ (∀ x d, u.bun x d = s.bun x d)
    ∧ { u with mem := s.mem, tiles := s.tiles } = s

/-- Registers, trap and floating-point state of every hart but what hart (t, c) may change are what they were. -/
def OthersKept (s u : State) (t c : Nat) : Prop :=
  ∀ x d, ¬(x = t ∧ d = c) → { u.hart x d with reservation := none } = { s.hart x d with reservation := none }

/-! ### Exceptions (R61, R341, R343, R344) -/

/-- The hart stops with a cause and a trapped value: its context is faulted with a stop that holds the code, the value, the
word and the pc of the instruction, which has had no effect: the pc, every register, all of memory and every semaphore are what
they were. -/
def Traps (s u : State) (t c cause : Nat) (tval : W64) : Prop :=
  (u.ctx t c).st = .faulted
    ∧ (∃ r, (u.ctx t c).stop = some r ∧ r.code = 0x40 + cause ∧ r.arg = tval ∧ r.pc = (s.hart t c).pc
        ∧ r.word = s.pcWord t c ∧ r.src = 1 ∧ r.tick = s.now ∧ r.tile = t)
    ∧ (u.hart t c).pc = (s.hart t c).pc ∧ RegsKept s u ∧ BytesKept s u

/-- A hart whose context is resident, has no debugger and is not blocked. -/
def Running (s : State) (t c : Nat) : Prop :=
  (s.ctx t c).st = .resident ∧ (s.ctx t c).dbg.attached = false ∧ (s.hart t c).wait = none

/-! ### Semaphores (R23, R24) -/

/-- Semaphore g of tile t is x; every other semaphore, every byte of memory, every register, and everything outside the tiles
is what it was. -/
def SemBecomes (s u : State) (t g : Nat) (x : Sem) : Prop :=
  u.sem t g = x ∧ (∀ y h, ¬(y = t ∧ h = g) → u.sem y h = s.sem y h) ∧ RegsKept s u ∧ { u with tiles := s.tiles } = s

/-- Semaphore g of tile t is x; every other semaphore, every byte of memory and everything outside the tiles is what it was. -/
def SemPuts (s u : State) (t g : Nat) (x : Sem) : Prop :=
  u.sem t g = x ∧ (∀ y h, ¬(y = t ∧ h = g) → u.sem y h = s.sem y h) ∧ { u with tiles := s.tiles } = s

/-! ### Xkgl instructions -/

/-- The hart has passed to the next instruction; its registers are q's business, its trap and floating-point state and its
reservation are what they were. -/
def Advances (s u : State) (t c : Nat) : Prop :=
  (u.hart t c).pc = (s.hart t c).pc + BitVec.ofNat 64 s.focus.len ∧ HartKept (s.hart t c) (u.hart t c)
    ∧ (u.hart t c).reservation = (s.hart t c).reservation

/-- rd takes v, every other register of the hart is what it was. -/
def Writes (s u : State) (t c : Nat) (rd : BitVec 5) (v : W64) : Prop :=
  ∀ q, u.getX t c q = if q = 0 then 0 else if q = rd then v else s.getX t c q

/-- The instruction ends: rd takes v, the pc passes on, the hart is not blocked, nothing but the hart changes. -/
def Ends (s u : State) (t c : Nat) (rd : BitVec 5) (v : W64) : Prop :=
  Writes s u t c rd v ∧ Advances s u t c ∧ (u.hart t c).wait = none ∧ OnlyHart s u t c ∧ BytesKept s u

/-- The hart has acquired what clock k covers: its die and the hart merge it; nothing but the hart and that clock changes
(R73, R120). -/
def Acquires (s u : State) (t c : Nat) (k : Clock) : Prop :=
  u.dieClock (s.dieOf t) = (s.dieClock (s.dieOf t)).merge k ∧ (u.hart t c).acq = (s.hart t c).acq.merge k
    ∧ u = { s.modHart t c (fun _ => u.hart t c) with dies := u.dies } ∧ BytesKept s u

/-- The hart's context has ended with a code; its pc and every register are what they were. -/
def Ended (s u : State) (t c code : Nat) : Prop :=
  (u.ctx t c).st = .faulted ∧ (u.ctx t c).lastCode = code ∧ (u.hart t c).pc = (s.hart t c).pc ∧ RegsKept s u

/-- The hart blocks in instruction i for what: the pc and the registers stay, and nothing but the hart's wait changes. -/
def Blocks (s u : State) (t c : Nat) (what : WaitFor) (i : Instr) (timeout : Nat) : Prop :=
  (∃ w, (u.hart t c).wait = some w ∧ w.what = what ∧ w.instr = i
      ∧ w.deadline = (s.hart t c).newDeadline s.now timeout)
    ∧ u = s.modHart t c (fun h => { h with wait := (u.hart t c).wait, abandoned := false, savedDeadline := none })
    ∧ BytesKept s u

/-- What a message that ticks its die stays behind: the accesses it must follow, and the messages that its die's component may
not lead further (R73, R117). -/
def behind (s : State) (t : Nat) (after : List Nat) : List Nat := after ++ s.tooFar (s.dieOf t)

/-- One message has been sent to its home: it carries the clock of the hart's die, which a write, an atomic, a put or an arrival
ticks as it leaves, at once if it has nothing to stay behind (R73, R117). Nothing but the hart, the messages in flight and that
clock has changed. -/
def Sends (s u : State) (t c : Nat) (ticks : Bool) (home : Home) (body : Body) (after : List Nat) (va : W64) : Prop :=
  (∃ m : Msg, u.net = s.net ++ [m] ∧ m.id = s.nextId ∧ m.src = s.dieOf t ∧ m.home = home ∧ m.body = body
      ∧ m.after = (if ticks then behind s t after else after)
      ∧ m.va = va ∧ m.own = some (t, c) ∧ m.sent = s.now ∧ m.clock = u.dieClock (s.dieOf t))
    ∧ u.dies = (if ticks && (behind s t after).isEmpty then (s.tickDie (s.dieOf t)).dies else s.dies)
    ∧ s.nextId ∈ (u.hart t c).outst
    ∧ u = { s.modHart t c (fun _ => u.hart t c) with net := u.net, nextId := s.nextId + 1, dies := u.dies }
    ∧ BytesKept s u

/-- An aligned store of n bytes, 4 or 8, of v at offset o of semaphore entry g has had its effect: TARGET takes the low word and
generations advance; ones clear ERR and OVERSHOOT; 4 bytes to the post word leave a credit, none for zero, 8 set ERR; the rest of
the entry ignores it (R23, R24). -/
def SemStored (s u : State) (t c g o n : Nat) (v : W64) : Prop :=
  (o = 0 → SemPuts s u t g ((s.sem t g).store (low32 v)))
    ∧ (o = 8 → SemPuts s u t g { s.sem t g with
        err := (s.sem t g).err && !v.getLsbD 16, overshot := (s.sem t g).overshot && !v.getLsbD 17 })
    ∧ (o = 16 → n = 8 → SemPuts s u t g { s.sem t g with err := true })
    ∧ (o = 16 → n = 4 → low32 v ≠ 0 → Sends s u t c false (.tile t) (.credit t g (low32 v).toNat) [] 0)
    ∧ (o ≠ 0 → o ≠ 8 → ¬(o = 16 ∧ (n = 8 ∨ low32 v ≠ 0)) → SemPuts s u t g (s.sem t g))

/-- The messages in flight but m. -/
def Without (s : State) (m : Msg) : List Msg := s.net.filter fun n => decide (n.id ≠ m.id)

/-- Bytes of HBM as a write without a key leaves them: each enabled byte at its address, of two for one address the later one,
every other byte as before (R34, R123). -/
def Puts (s u : State) (a : Nat) (data : List (Option Byte)) : Prop :=
  (∀ p, (∀ i, i < data.length → data.getD i none ≠ none → p ≠ s.canon (a + i)) → cellRead u.mem p = cellRead s.mem p)
    ∧ ∀ i b, data.getD i none = some b → (∀ j, i < j → j < data.length → s.canon (a + j) ≠ s.canon (a + i)) →
      cellRead u.mem (s.canon (a + i)) = b

/-- Where an access of n bytes at the address in a register goes (R71, R72): a valid reference of the launch's scratchpads, or
a virtual address whose page gives what is needed; r is the state after the translation. -/
def Leads (s : State) (t c : Nat) (spad : Bool) (a : W64) (n : Nat) (need : Need) (r : State) (home : Home) (addr key : Nat) : Prop :=
  a.toNat % n = 0
    ∧ if spad then
        s.refOk t c a n = true ∧ r = s ∧ home = .tile (refOn t a) ∧ addr = sliceAddr (refOn t a) (refAddr a) ∧ key = 0
      else ∃ d, s.translate t (s.asidOf t c) a need = (r, .ok d) ∧ r.destHome d = (home, addr, key)

/-- The 64 bytes a command took at its issue: those at local address a now, with no uncorrectable error, or, if it has waited
for room, those it took when it began to wait (R86, R87). -/
def Took (s : State) (t c : Nat) (a : W64) (d : Rec64) : Prop :=
  ((s.hart t c).wait = none ∧ s.localBad t a.toNat 64 = false ∧ d = wordOf 512 (s.localBytes t a.toNat 64))
    ∨ ∃ w q, (s.hart t c).wait = some w ∧ w.what = .queue q d

/-- An entry with increment inc has entered queue q: ISSUED and TLSUM count it, rd takes TLSUM, the hart goes on; runs and
channels are what the claim says besides, and nothing else changes (R86). -/
def Enters (s u : State) (t c q : Nat) (rd : BitVec 5) (inc : W64) : Prop :=
  let k := (s.ctx t c).count q
  (u.ctx t c).count q = { k with issued := k.issued + 1, tlsum := k.tlsum + inc }
    ∧ (∀ p, p ≠ q → (u.ctx t c).count p = (s.ctx t c).count p)
    ∧ Writes s u t c rd (k.tlsum + inc) ∧ Advances s u t c ∧ (u.hart t c).wait = none
    ∧ u = s.modCtx t c (fun x => { x with
        hart := u.hart t c, counts := (u.ctx t c).counts, runs := (u.ctx t c).runs, chans := (u.ctx t c).chans })
    ∧ BytesKept s u

/-! ### Bundle slots (R180, R181) -/

/-- Slot n of the bundle of context c of tile t issues instruction i: the context admits it (R176, R179, R185, R187, R188) and
its flag or its predicate is on (R181). -/
def Issues (s : State) (i : Instr) (t c n : Nat) : Prop :=
  At s t c ∧ s.focus.slot = n ∧ (s.env t c n).bad i = false ∧ (s.env t c n).off (useOf i) = false

/-- The state a slot's effect begins from: the free values that a read in the shadow of a landing may take are passed
over (R180). -/
def Reads (s : State) (t c n : Nat) : State := if (s.env t c n).shadowed then s.bumpFree else s

/-- From state r on: the count of counter-cache entry x leaves for its counter as an atomic addition, or, when the counter cannot
be reached, an event says so (R370). -/
def WrittenBack (r u : State) (t c : Nat) (x : Delta) : Prop :=
  let a := BitVec.ofNat 64 (recBbcVa (r.launch x.launch).record + 8 * x.n)
  (∀ q d, r.translate t (recAsid (r.launch x.launch).record) a ⟨true, true, false⟩ = (q, .ok d) →
    (∃ m : Msg, u.net = q.net ++ [m] ∧ m.home = (q.destHome d).1
      ∧ m.body = .count (q.destHome d).2.1 (BitVec.ofNat 64 x.delta) (q.destHome d).2.2 x.n (decide ((q.destHome d).1 = .host)) t x.launch)
    ∧ u = { q with net := u.net, nextId := q.nextId + 1, dies := u.dies })
  ∧ ∀ q f, r.translate t (recAsid (r.launch x.launch).record) a ⟨true, true, false⟩ = (q, .error f) →
    u = q.event t (q.holderOf t c x.launch) 0 2 (BitVec.ofNat 64 x.n)

/-- From state r on: item k comes due lat issue cycles after slot n of context c issues; nothing else changes. -/
def LandsFrom (r s u : State) (t c n lat : Nat) (k : ItemKind) : Prop :=
  (∃ i : Item, (u.engine t).items = (s.engine t).items ++ [i] ∧ i.ctx = c ∧ i.slot = n ∧ i.kind = k
      ∧ i.issued = (s.engine t).ic ∧ i.due = (s.engine t).ic + lat)
    ∧ u = r.modEngine t (fun e => { e with items := (u.engine t).items })
    ∧ BytesKept s u ∧ RegsKept s u

/-- Item k comes due lat issue cycles on, for slot n of context c; nothing else changes. -/
def Lands (s u : State) (t c n lat : Nat) (k : ItemKind) : Prop := LandsFrom (Reads s t c n) s u t c n lat k

/-- Wherever a slot issues instruction i, it completes with item k due lat issue cycles on. -/
def Gives (i : Instr) (lat : Nat) (k : Env → ItemKind) : Prop :=
  ∀ s t c n, Issues s i t c n → Completes i s fun u => Lands s u t c n lat (k (s.env t c n))

/-- Data and flags are lane by lane what f gives in the lanes of the mask; a flag is set when a lane of the mask sets it
(R181, R230). -/
def LaneResult (f : Nat → W32 × FFlags) (mask : Mask) (data : Lanes) (flags : BitVec 5) : Prop :=
  (∀ j, j < 128 → mask.getLsbD j = true → laneAt data j = (f j).1)
    ∧ ∀ b, flags.getLsbD b = true ↔ ∃ j, j < 128 ∧ mask.getLsbD j = true ∧ (f j).2.bits.getLsbD b = true

/-- Wherever a slot issues instruction i, its lanes land lat issue cycles on in d and in the latch, with the flags of the lanes
that its predicate covers. -/
def GivesLanes (i : Instr) (lat : Nat) (d : BitVec 7) (pr : BitVec 4) (f : Env → Nat → W32 × FFlags) : Prop :=
  ∀ s t c n, Issues s i t c n → Completes i s fun u =>
    ∃ data flags, LaneResult (f (s.env t c n)) ((s.env t c n).pred pr) data flags
      ∧ Lands s u t c n lat (.vec ((s.env t c n).target d) ((s.env t c n).pred pr) data true flags)

/-- Likewise for a compare: the bits land in predicate pd, in the lanes of the mask (R249). -/
def GivesBits (i : Instr) (pd pr : BitVec 4) (f : Env → Nat → Bool × FFlags) : Prop :=
  ∀ s t c n, Issues s i t c n → Completes i s fun u =>
    ∃ bits flags, (∀ j, j < 128 → ((s.env t c n).pred pr).getLsbD j = true → bits.getLsbD j = (f (s.env t c n) j).1)
      ∧ (∀ b, flags.getLsbD b = true ↔
          ∃ j, j < 128 ∧ ((s.env t c n).pred pr).getLsbD j = true ∧ (f (s.env t c n) j).2.bits.getLsbD b = true)
      ∧ Lands s u t c n 4 (.pred pd.toNat ((s.env t c n).pred pr) bits flags)

/-- Lanes of a memory slot that may be accessed: in range, in a carve of the launch, aligned, outside the bank groups of the
context's open windows, and not watched (R207, R305, R376). -/
def LanesReach (s : State) (v : Env) (w : Bool) (size acc : Nat) (l : List (Nat × Int)) : Prop :=
  ∀ e, e ∈ l → 0 ≤ e.2 ∧ e.2.toNat + size ≤ 0x400000 ∧ s.inLaunchCarves v.x.launch v.t e.2.toNat size = true
    ∧ e.2.toNat % size = 0 ∧ ¬ groupOf e.2.toNat ∈ v.e.openGroups v.c (v.e.ic + acc) ∧ v.x.watched w e.2.toNat size = false

/-- Wherever a slot issues load i and its lanes may be accessed, the access comes in cycle acc and its data lat after it. -/
def Loads (i : Instr) (acc lat : Nat) (d : BitVec 7) (pr : BitVec 4) (l : Env → List (Nat × Int)) : Prop :=
  ∀ s t c n, Issues s i t c n → LanesReach s (s.env t c n) false 4 acc (l (s.env t c n)) → Completes i s fun u =>
    Lands s u t c n acc (.load ((s.env t c n).target d) ((s.env t c n).pred pr) (natAddrs (l (s.env t c n))) false lat)

/-- Wherever a slot issues store i and its lanes may be accessed, the lanes of d read at issue are written in cycle acc, in
ascending lane order. -/
def StoresLanes (i : Instr) (acc : Nat) (d : BitVec 7) (l : Env → List (Nat × Int)) : Prop :=
  ∀ s t c n, Issues s i t c n → LanesReach s (s.env t c n) true 4 acc (l (s.env t c n)) → Completes i s fun u =>
    Lands s u t c n acc
      (.store (maskOf fun j => (l (s.env t c n)).any fun e => decide (e.1 = j)) ((l (s.env t c n)).map fun e => (e.2.toNat, ((s.env t c n).src d e.1).setWidth 64)) 4)

/-- Slot n stops its bundle with a code, a reason and an address: the context, which no debugger watches, is faulted, nothing of
the slot issues, and the stop names the bundle and the slots below it as done (R184, R342 to R344). -/
def SlotStops (s u : State) (t c n code reason : Nat) (addr : W64) : Prop :=
  (u.ctx t c).st = .faulted ∧ (u.engine t).stopAt = some n ∧ RegsHeld s u
    ∧ ∃ r, (u.ctx t c).stop = some r ∧ r.code = code ∧ r.reason = reason ∧ r.addr = addr ∧ r.slot = n ∧ r.src = 0
      ∧ r.baddr = (s.env t c n).baddr ∧ r.word = (s.env t c n).word ∧ r.done = BitVec.ofNat 8 (2 ^ n - 1)

/-! ### Sectors, commands of the debugger -/

/-- Items of sector id have left, one message for each home (R117, R132). -/
def SectorSent (s u : State) (id : Nat) (items : List (Home × SecItem)) : Prop :=
  ∃ l : List Msg, u.net = s.net ++ l
    ∧ l.map (fun m => (m.home, m.body)) = ((items.map Prod.fst).eraseDups).map fun h =>
        (h, Body.sector id ((items.filter fun e => decide (e.1 = h)).map Prod.snd))

/-- The tile of the issuing context no longer holds sector id; registers read as before. -/
def SectorGone (s u : State) (t id : Nat) : Prop := (∀ y, y ∈ (u.tile t).sectors → y.id ≠ id) ∧ RegsHeld s u

/-- The debug command of word w, with DARG a and DDATA d, is due for context c of tile t, whose address space the function of
the focus owns and to which a debugger is attached, or the command is the one that attaches or detaches it (R372, R373). -/
def DebugFor (s : State) (i : Instr) (w a d : W64) (t c : Nat) : Prop :=
  s.dbgDue s.focus.fn i = some (w, a, d) ∧ fieldNat w 59 12 = 0 ∧ cmdTile w = t ∧ cmdCtx w = c
    ∧ s.owns s.focus.fn t c = true ∧ (i = .attach ∨ i = .detach ∨ (s.ctx t c).dbg.attached = true)

/-- The context is resident and halted on both sides (R374). -/
def Halted (s : State) (t c : Nat) : Prop := (s.ctx t c).st = .resident ∧ (s.ctx t c).dbg.eh = true ∧ (s.ctx t c).dbg.hh = true

/-- The command has completed with DCODE code at the page of the focus, and v is the state but for that. -/
def DebugDone (s v u : State) (w : W64) (code : Byte) : Prop := u = v.dbgDone s.focus.fn w code

/-! ### Where an instruction stands in code (R60, R187 to R191) -/

/-- The instructions of the control core. -/
def ofHart : Instr → Bool
  | .csrr _ _ | .csrWrite _ _ _ _ | .controlLoad _ _ _ _ | .controlStore _ _ _ _ | .lr _ _ _ _ _ | .sc _ _ _ _ _ _
  | .controlAmo _ _ _ _ _ _ _ | .fence _ _ _ | .fenceI _ _ _ | .ecall | .ebreak | .wfi | .controlCompute _
  | .kLda _ _ _ _ _ | .kStl _ _ _ _ _ | .kAmoW _ _ _ _ _ _ | .kAmoD _ _ _ _ _ _ | .kFence _ | .kSarm _ _
  | .kSarmZ _ _ | .kSpost _ _ _ | .kSwait _ _ _ | .kSread _ _ | .kFput _ _ _ | .kFget _ _ | .kFtry _ _ | .kFret
  | .kRun _ _ | .kRuni _ _ _ | .kCopy _ _ _ | .kCopyiIn _ _ _ _ | .kCopyiOut _ _ _ _ | .kStk _ _ | .kMfence _
  | .kTlwait _ _ _ _ | .kTlread _ _ | .kQstat _ _ | .kJoin | .kParcel _ | .kPinfo _ _ _ | .kBar _ _ _ _
  | .kBarw _ _ _ _ | .kClosure _ _ _ | .kLaunch _ _ _ _ | .kExit | .kHyield _ | .kPause _ | .kStamp _ _ | .kTrace _ _
  | .kAcct _ _ | .kRaise _ | .kRaiseF _ => true
  | _ => false

/-- The slot classes that hold an instruction: scalar slots, SB alone, vector slots, X, memory slots, MB alone. -/
def placesOf : Instr → List Place
  | .noOperation => [.sa, .sb, .vec, .x, .ma, .mb]
  | .add _ | .sub _ | .mul _ | .mulh _ | .mulhn _ | .and _ | .or _ | .xor _ | .andn _ | .shl _ | .shr _ | .sra _
  | .rotl _ | .min _ | .max _ | .minn _ | .maxn _ | .clz _ | .popc _ | .sel _ | .addi _ | .movi _ | .movhi _
  | .shlI _ | .shrI _ | .sraI _ | .rotlI _ | .andI _ | .orI _ | .xorI _ | .ceq _ | .cne _ | .clt _ | .cle _ | .cltn _
  | .clen _ | .ceqI _ | .cneI _ | .cltI _ | .cleI _ | .cltnI _ | .clenI _ | .kand _ | .kor _ | .kxor _ | .smov _
  | .aset _ _ _ _ | .aadd _ _ _ | .aget _ _ _ | .bbc _ _ => [.sa, .sb]
  | .mark _ | .yield => [.sb]
  | .fadd _ | .fsub _ | .fmul _ | .fma _ | .fms _ | .fnma _ | .fnms _ | .fmin _ | .fmax _ | .fminn _ | .fmaxn _
  | .fceq _ | .fclt _ | .fcle _ | .fcun _ | .fclass _ | .vaddI32 _ | .vsubI32 _ | .vmulI32 _ | .vand _ | .vor _
  | .vxor _ | .vandn _ | .vshl _ | .vshr _ | .vsra _ | .vminI32 _ | .vmaxI32 _ | .vminN32 _ | .vmaxN32 _ | .vceqI32 _
  | .vcltI32 _ | .vcltN32 _ | .vmov _ | .vmovi _ | .vbcs _ | .vsel _ | .pack _ | .unpack _ | .perm _ | .bcl _
  | .xcl _ | .vredAddF _ | .vredMaxF _ | .vredAddI32 _ | .part _ | .pand _ | .por _ | .pxor _ | .pandn _ | .ppop _
  | .cvt _ => [.vec]
  | .rsqa _ | .rcpa _ | .exp2a _ | .log2a _ | .sina _ | .cosa _ | .tanha _ | .mma _ | .mmaAcc _ | .mzero _
  | .mdrain _ | .msetF _ _ | .msetC _ _ | .msetS _ _ _ | .rstat _ => [.x]
  | .vld _ | .vldB _ | .vldS _ | .vldx _ | .vst _ | .vstS _ | .vstx _ | .sld _ | .sst _ | .spill _ | .fill _ => [.ma, .mb]
  | .swait _ _ | .spost _ _ _ | .sarm _ _ | .sarmZ _ _ => [.mb]
  | _ => []

end Sys2Proof.Safety
end

