-- ==== Sys2Proof/Certificates/Slice0/Obligations.lean ====
section
/-! DEFINITION. The claims about the KGL-320: what its instructions and events do, where they complete, what they leave
unchanged, and what every step keeps. -/

open Sys2Proof Sys2Proof.Machine Sys2Proof.Safety

/-! ### The control core: registers and control (R60 to R62) -/

/-- Register operations write rd and pass on, usable after the cycles of R62; nothing else changes. -/
def Obligations.ComputeWritesRd : Prop :=
  ∀ s t c, At s t c →
    (∀ op rd a b, Completes (.controlCompute (.alu op rd a b)) s fun u =>
        Sets s u t c rd (aluEval op (s.getX t c a) (s.getX t c b)) (aluLatency op))
    ∧ (∀ op rd a imm, Completes (.controlCompute (.aluImm op rd a imm)) s fun u =>
        Sets s u t c rd (aluImmEval op (s.getX t c a) (imm.signExtend 64)) 1)
    ∧ (∀ op rd a n, Completes (.controlCompute (.shiftImm op rd a n)) s fun u =>
        Sets s u t c rd (shiftEval op (s.getX t c a) n.toNat) 1)
    ∧ (∀ op rd a n, Completes (.controlCompute (.shiftImmW op rd a n)) s fun u =>
        Sets s u t c rd (shiftWEval op (low32 (s.getX t c a)) n.toNat) 1)
    ∧ (∀ op rd a, Completes (.controlCompute (.unary op rd a)) s fun u => Sets s u t c rd (unaryEval op (s.getX t c a)) 1)
    ∧ (∀ rd imm, Completes (.controlCompute (.lui rd imm)) s fun u =>
        Sets s u t c rd (BitVec.ofInt 64 (imm.toInt * 4096)) 1)
    ∧ ∀ rd imm, Completes (.controlCompute (.auipc rd imm)) s fun u =>
        Sets s u t c rd ((s.hart t c).pc + BitVec.ofInt 64 (imm.toInt * 4096)) 1

/-- Multiplication and division of the control core are those of the integers, with RISC-V's answers where no quotient
exists: a divisor of zero and the one quotient that does not fit. -/
def Obligations.MultiplyDivide : Prop :=
  (∀ a b : W64, (aluEval .mulh a b).toInt = a.toInt * b.toInt / 2 ^ 64)
    ∧ (∀ a b : W64, (aluEval .mulhu a b).toNat = a.toNat * b.toNat / 2 ^ 64)
    ∧ (∀ a b : W64, (aluEval .mulhsu a b).toInt = a.toInt * b.toNat / 2 ^ 64)
    ∧ (∀ a b : W64, b ≠ 0 → ¬(a = BitVec.intMin 64 ∧ b = BitVec.allOnes 64) →
        (aluEval .div a b).toInt = a.toInt.tdiv b.toInt ∧ (aluEval .rem a b).toInt = a.toInt.tmod b.toInt)
    ∧ (∀ a b : W64, b ≠ 0 →
        (aluEval .divu a b).toNat = a.toNat / b.toNat ∧ (aluEval .remu a b).toNat = a.toNat % b.toNat)
    ∧ (∀ a : W64, aluEval .div a 0 = BitVec.allOnes 64 ∧ aluEval .divu a 0 = BitVec.allOnes 64
        ∧ aluEval .rem a 0 = a ∧ aluEval .remu a 0 = a)
    ∧ aluEval .div (BitVec.intMin 64) (BitVec.allOnes 64) = BitVec.intMin 64
    ∧ aluEval .rem (BitVec.intMin 64) (BitVec.allOnes 64) = 0

/-- Jumps and branches go to their targets when these can be fetched; a jump leaves the link in rd, a branch writes no
register, and one that is not taken passes on. An even target beyond the instruction memory raises cause 1, an odd one cause 0,
and no register is written. That JALR clears bit 0 of its target, and that the exception is raised at the transfer, with its pc,
is the model's reading (R61; assumption 34). -/
def Obligations.TransfersOfControl : Prop :=
  (∀ s t c, At s t c →
      (∀ rd (off : BitVec 20), Fetchable ((s.hart t c).pc + BitVec.ofInt 64 (2 * off.toInt)) →
        Completes (.controlCompute (.jal rd off)) s fun u => Jumps s u t c rd ((s.hart t c).pc + BitVec.ofInt 64 (2 * off.toInt)))
      ∧ (∀ rd a (imm : BitVec 12), ((s.getX t c a + imm.signExtend 64) &&& ~~~1#64).toNat < 0x10000 →
        Completes (.controlCompute (.jalr rd a imm)) s fun u =>
          Jumps s u t c rd ((s.getX t c a + imm.signExtend 64) &&& ~~~1#64))
      ∧ (∀ op a b (off : BitVec 12), branchTest op (s.getX t c a) (s.getX t c b) = true →
        Fetchable ((s.hart t c).pc + BitVec.ofInt 64 (2 * off.toInt)) →
        Completes (.controlCompute (.branch op a b off)) s fun u => Jumps s u t c 0 ((s.hart t c).pc + BitVec.ofInt 64 (2 * off.toInt)))
      ∧ ∀ op a b (off : BitVec 12), branchTest op (s.getX t c a) (s.getX t c b) = false →
        Completes (.controlCompute (.branch op a b off)) s fun u => Passes s u t c)
  ∧ (∀ s t c, At s t c → Running s t c →
      (∀ rd (off : BitVec 20) (a : W64), a = (s.hart t c).pc + BitVec.ofInt 64 (2 * off.toInt) →
        (a.getLsbD 0 = true → Completes (.controlCompute (.jal rd off)) s fun u => Traps s u t c 0 a)
        ∧ (a.getLsbD 0 = false → 0x10000 ≤ a.toNat → Completes (.controlCompute (.jal rd off)) s fun u => Traps s u t c 1 a))
      ∧ (∀ rd a (imm : BitVec 12), 0x10000 ≤ ((s.getX t c a + imm.signExtend 64) &&& ~~~1#64).toNat →
        Completes (.controlCompute (.jalr rd a imm)) s fun u =>
          Traps s u t c 1 ((s.getX t c a + imm.signExtend 64) &&& ~~~1#64))
      ∧ ∀ op x y (off : BitVec 12) (a : W64), branchTest op (s.getX t c x) (s.getX t c y) = true →
        a = (s.hart t c).pc + BitVec.ofInt 64 (2 * off.toInt) →
        (a.getLsbD 0 = true → Completes (.controlCompute (.branch op x y off)) s fun u => Traps s u t c 0 a)
        ∧ (a.getLsbD 0 = false → 0x10000 ≤ a.toNat → Completes (.controlCompute (.branch op x y off)) s fun u => Traps s u t c 1 a))

/-! ### The control core: the local scratchpad (R22 to R25, R61) -/

/-- A load of 1, 2, 4 or 8 bytes writes rd with the value at the address, extended as its name says, usable after 3 clock
cycles; it changes no byte. -/
def Obligations.LoadWritesRd : Prop :=
  ∀ s t c op rd a (imm : BitVec 12), At s t c →
    Reaches s t c (s.getX t c a + imm.signExtend 64) (loadSize op) true false →
    Completes (.controlLoad op rd a imm) s fun u =>
      Sets s u t c rd
        (loadExtend op (s.localBytes t (s.getX t c a + imm.signExtend 64).toNat (loadSize op))) 3

/-- A store of 1, 2, 4 or 8 bytes below the semaphore block writes the low bytes of rs2, least significant first, and no
other byte and no register. -/
def Obligations.StoreWritesBytes : Prop :=
  ∀ s t c sz a b (imm : BitVec 12), At s t c →
    Reaches s t c (s.getX t c a + imm.signExtend 64) (Machine.sizeOf sz) false true →
    (s.getX t c a + imm.signExtend 64).toNat < semBase →
    Completes (.controlStore sz a b imm) s fun u =>
      Stores s u t (s.getX t c a + imm.signExtend 64).toNat (bytesOf (s.getX t c b) (Machine.sizeOf sz))
        ∧ RegsKept s u ∧ OthersKept s u t c ∧ HartKept (s.hart t c) (u.hart t c)
        ∧ (u.hart t c).pc = (s.hart t c).pc + BitVec.ofNat 64 s.focus.len

/-- A load, store, LR, SC or AMO that is misaligned raises cause 4 or 6, whatever its address; one that is aligned and at
0x400000 or above, or inside the scratchpad but neither in the launch's carves nor in the semaphore block, raises cause 5 or 7;
memory, semaphores and registers are unchanged (R22, R61). -/
def Obligations.AccessTraps : Prop :=
  ∀ s t c, At s t c → Running s t c →
    let Outside (a : W64) (n : Nat) : Prop :=
      0x400000 ≤ a.toNat ∨ (a.toNat < semBase ∧ s.inLaunchCarves (s.ctx t c).launch t a.toNat n = false)
    (∀ op rd a (imm : BitVec 12) (p : W64), p = s.getX t c a + imm.signExtend 64 →
      (p.toNat % loadSize op ≠ 0 → Completes (.controlLoad op rd a imm) s fun u => Traps s u t c 4 p)
      ∧ (p.toNat % loadSize op = 0 → Outside p (loadSize op) → Completes (.controlLoad op rd a imm) s fun u => Traps s u t c 5 p))
    ∧ (∀ sz a b (imm : BitVec 12) (p : W64), p = s.getX t c a + imm.signExtend 64 →
      (p.toNat % Machine.sizeOf sz ≠ 0 → Completes (.controlStore sz a b imm) s fun u => Traps s u t c 6 p)
      ∧ (p.toNat % Machine.sizeOf sz = 0 → Outside p (Machine.sizeOf sz) →
        Completes (.controlStore sz a b imm) s fun u => Traps s u t c 7 p))
    ∧ ∀ dbl aq rl rd a b op (p : W64), p = s.getX t c a →
      (p.toNat % atomicSize dbl ≠ 0 →
        Completes (.lr dbl aq rl rd a) s (fun u => Traps s u t c 4 p) ∧ Completes (.sc dbl aq rl rd a b) s (fun u => Traps s u t c 6 p)
          ∧ Completes (.controlAmo op dbl aq rl rd a b) s fun u => Traps s u t c 6 p)
      ∧ (p.toNat % atomicSize dbl = 0 → Outside p (atomicSize dbl) →
        Completes (.lr dbl aq rl rd a) s (fun u => Traps s u t c 5 p) ∧ Completes (.sc dbl aq rl rd a b) s (fun u => Traps s u t c 7 p)
          ∧ Completes (.controlAmo op dbl aq rl rd a b) s fun u => Traps s u t c 7 p)

/-- LR reads, and reserves the 64-byte line; SC stores and answers 0 exactly while the reservation of its line is held, else
answers 1 and stores nothing; either way the reservation is gone (R61). Into the semaphore block an SC stores what a store of its
size does there (R23). -/
def Obligations.LoadReserveStoreConditional : Prop :=
  ∀ s t c dbl aq rl rd a, At s t c →
    (Reaches s t c (s.getX t c a) (atomicSize dbl) true false →
      Completes (.lr dbl aq rl rd a) s fun u =>
        (u.hart t c).reservation = some ((s.getX t c a).toNat / 64)
          ∧ (∀ q, u.getX t c q = if q = 0 then 0 else if q = rd then
              signOf (atomicSize dbl) (s.localBytes t (s.getX t c a).toNat (atomicSize dbl)) else s.getX t c q)
          ∧ OnlyHart s u t c ∧ HartKept (s.hart t c) (u.hart t c) ∧ BytesKept s u)
    ∧ ∀ b, Reaches s t c (s.getX t c a) (atomicSize dbl) false true →
      ((s.hart t c).reservation = some ((s.getX t c a).toNat / 64) →
        Completes (.sc dbl aq rl rd a b) s fun u =>
          ((s.getX t c a).toNat < semBase → Stores s u t (s.getX t c a).toNat (bytesOf (s.getX t c b) (atomicSize dbl)))
            ∧ (∀ g o, (s.getX t c a).toNat = semBase + 64 * g + o → o < 64 → SemStored s u t c g o (atomicSize dbl) (s.getX t c b))
            ∧ (∀ q, u.getX t c q = if q = rd then 0 else s.getX t c q)
            ∧ (u.hart t c).reservation = none ∧ OthersKept s u t c ∧ HartKept (s.hart t c) (u.hart t c))
      ∧ ((s.hart t c).reservation ≠ some ((s.getX t c a).toNat / 64) →
        Completes (.sc dbl aq rl rd a b) s fun u =>
          (∀ q, u.getX t c q = if q = 0 then 0 else if q = rd then 1 else s.getX t c q)
            ∧ (u.hart t c).reservation = none ∧ OnlyHart s u t c ∧ HartKept (s.hart t c) (u.hart t c) ∧ BytesKept s u)

/-- An AMO writes rd with the old value, sign-extended, and stores the new one at the same place; nothing else changes. Into the
semaphore block it stores what a store of its size does there (R23, R61). -/
def Obligations.AmoReadsAndWrites : Prop :=
  ∀ s t c op aq rl rd a b, At s t c →
    (∀ old : W32, old = wordOf 32 (s.localBytes t (s.getX t c a).toNat 4) → Reaches s t c (s.getX t c a) 4 true true →
      Completes (.controlAmo op false aq rl rd a b) s fun u =>
        ((s.getX t c a).toNat < semBase → Stores s u t (s.getX t c a).toNat (bytesOf (amoEval op old ((s.getX t c b).setWidth 32)) 4))
          ∧ (∀ g o, (s.getX t c a).toNat = semBase + 64 * g + o → o < 64 →
              SemStored s u t c g o 4 ((amoEval op old ((s.getX t c b).setWidth 32)).setWidth 64))
          ∧ Writes s u t c rd (old.signExtend 64) ∧ OthersKept s u t c ∧ HartKept (s.hart t c) (u.hart t c))
    ∧ (∀ old : W64, old = wordOf 64 (s.localBytes t (s.getX t c a).toNat 8) → Reaches s t c (s.getX t c a) 8 true true →
      Completes (.controlAmo op true aq rl rd a b) s fun u =>
        ((s.getX t c a).toNat < semBase → Stores s u t (s.getX t c a).toNat (bytesOf (amoEval op old (s.getX t c b)) 8))
          ∧ (∀ g o, (s.getX t c a).toNat = semBase + 64 * g + o → o < 64 → SemStored s u t c g o 8 (amoEval op old (s.getX t c b)))
          ∧ Writes s u t c rd old ∧ OthersKept s u t c ∧ HartKept (s.hart t c) (u.hart t c))

/-- Semaphore stores of the control core (R23, R24): TARGET takes its bytes and generations advance; a one in ERR or OVERSHOOT
clears it; an aligned 4-byte store to POST leaves a credit, none for zero; every other store to POST sets ERR; the rest of
the entry ignores stores. -/
def Obligations.SemaphoreStores : Prop :=
  ∀ s t c sz a b (imm : BitVec 12) g o, At s t c →
    Reaches s t c (s.getX t c a + imm.signExtend 64) (Machine.sizeOf sz) false true →
    (s.getX t c a + imm.signExtend 64).toNat = semBase + 64 * g + o → o < 64 →
    (∀ w : W32, o < 4 →
      (∀ i, i < 4 → byteOf w i = if o ≤ i ∧ i < o + Machine.sizeOf sz then byteOf (s.getX t c b) (i - o) else byteOf (s.sem t g).target i) →
      Completes (.controlStore sz a b imm) s fun u =>
        SemBecomes s u t g ((s.sem t g).store w) ∧ (u.hart t c).pc = (s.hart t c).pc + BitVec.ofNat 64 s.focus.len)
    ∧ (8 ≤ o → o ≤ 10 → 10 < o + Machine.sizeOf sz →
      Completes (.controlStore sz a b imm) s fun u =>
        SemBecomes s u t g { s.sem t g with
            err := (s.sem t g).err && !(byteOf (s.getX t c b) (10 - o)).getLsbD 0,
            overshot := (s.sem t g).overshot && !(byteOf (s.getX t c b) (10 - o)).getLsbD 1 }
          ∧ (u.hart t c).pc = (s.hart t c).pc + BitVec.ofNat 64 s.focus.len)
    ∧ (o = 16 → sz = 2 → low32 (s.getX t c b) = 0 → Completes (.controlStore sz a b imm) s fun u => Passes s u t c)
    ∧ (o = 16 → sz = 2 → low32 (s.getX t c b) ≠ 0 →
      Completes (.controlStore sz a b imm) s fun u =>
        Sends s u t c false (.tile t) (.credit t g (low32 (s.getX t c b)).toNat) [] 0 ∧ Advances s u t c ∧ RegsKept s u)
    ∧ (16 ≤ o → o < 20 → ¬(o = 16 ∧ sz = 2) →
      Completes (.controlStore sz a b imm) s fun u =>
        SemBecomes s u t g { s.sem t g with err := true } ∧ (u.hart t c).pc = (s.hart t c).pc + BitVec.ofNat 64 s.focus.len)
    ∧ ((4 ≤ o ∧ o < 16 ∧ ¬(8 ≤ o ∧ o ≤ 10 ∧ 10 < o + Machine.sizeOf sz)) ∨ 20 ≤ o →
      Completes (.controlStore sz a b imm) s fun u =>
        SemBecomes s u t g (s.sem t g) ∧ (u.hart t c).pc = (s.hart t c).pc + BitVec.ofNat 64 s.focus.len)

/-- A credit and a store of TARGET do what the loop of R24 does, however many generations it takes; the model computes them by
division. -/
def Obligations.CreditRule : Prop :=
  (∀ (x : Sem) (v n : Nat), min 0xFFFFFFFF (x.count.toNat + v) ≤ n →
      let r := Sem.advance n x.target.toNat (min 0xFFFFFFFF (x.count.toNat + v)) x.gen 0
      x.credit v = { x with
        count := BitVec.ofNat 32 r.1, gen := r.2.1, err := x.err || decide (0xFFFFFFFF < x.count.toNat + v),
        overshot := x.overshot || decide (2 ≤ r.2.2 ∨ (r.2.2 = 1 ∧ r.1 ≠ 0)) })
    ∧ ∀ (x : Sem) (w : W32) (n : Nat), x.count.toNat ≤ n →
      let r := Sem.advance n w.toNat x.count.toNat x.gen 0
      x.store w = { x with target := w, count := BitVec.ofNat 32 r.1, gen := r.2.1 }

/-! ### CSRs, exceptions, retirement (R18, R56, R57, R61, R66, R68, R96) -/

/-- A CSR read writes rd with the CSR; a form that writes changes the bits its row of R66 defines, of that CSR only. -/
def Obligations.CsrReadsAndWrites : Prop :=
  ∀ s t c csr rd old, At s t c → s.csrRead t c csr = some old →
    Completes (.csrr csr rd) s (fun u => Sets s u t c rd old 1)
    ∧ ∀ op rs, wellFormed (.csrWrite op csr rd rs) = true →
      (csrNew op old (s.csrSrc t c op rs) rs = none →
        Completes (.csrWrite op csr rd rs) s fun u => Sets s u t c rd old 1)
      ∧ ∀ v, csrNew op old (s.csrSrc t c op rs) rs = some v → csrWritable csr = true →
        Completes (.csrWrite op csr rd rs) s fun u =>
          Writes s u t c rd old ∧ (u.hart t c).pc = (s.hart t c).pc + BitVec.ofNat 64 s.focus.len
            ∧ (u.hart t c).fhandler = (if csr = 0x800 then v &&& 0xFFFE else (s.hart t c).fhandler)
            ∧ (u.hart t c).fepc = (if csr = 0x801 then v &&& 0xFFFE else (s.hart t c).fepc)
            ∧ (u.hart t c).faddr = (if csr = 0x802 then v else (s.hart t c).faddr)
            ∧ (u.hart t c).fin = (if csr = 0x803 then v.getLsbD 0 else (s.hart t c).fin)
            ∧ (u.hart t c).fpcw = (if csr = 0x810 then low32 v &&& 0x00011F07 else (s.hart t c).fpcw)
            ∧ (u.hart t c).fflags = (if csr = 0x811 then v.extractLsb' 0 5 else (s.hart t c).fflags)
            ∧ OnlyHart s u t c ∧ BytesKept s u

/-- What raises an illegal instruction: a CSR that is not there, a write of a read-only one, WFI, a word no map lists, operand
codes that the maps reserve. EBREAK raises cause 3 when no debugger is attached, ECALL with a7 other than 0 cause 8. -/
def Obligations.IllegalAndEnvironmentTraps : Prop :=
  ∀ s t c, At s t c → Running s t c →
    (∀ csr rd, s.csrRead t c csr = none → Completes (.csrr csr rd) s fun u => Traps s u t c 2 ((s.pcWord t c).setWidth 64))
    ∧ (∀ op csr rd rs, s.csrRead t c csr = none →
      Completes (.csrWrite op csr rd rs) s fun u => Traps s u t c 2 ((s.pcWord t c).setWidth 64))
    ∧ (∀ op csr rd rs old v, s.csrRead t c csr = some old → csrNew op old (s.csrSrc t c op rs) rs = some v →
      csrWritable csr = false → Completes (.csrWrite op csr rd rs) s fun u => Traps s u t c 2 ((s.pcWord t c).setWidth 64))
    ∧ Completes .wfi s (fun u => Traps s u t c 2 ((s.pcWord t c).setWidth 64))
    ∧ (∀ w, Completes (.illegalInstruction w) s fun u => Traps s u t c 2 ((s.pcWord t c).setWidth 64))
    ∧ (∀ sz sc spad a b, scopeOk sc = false →
      Completes (.kLda sz sc spad a b) s (fun u => Traps s u t c 2 ((s.pcWord t c).setWidth 64))
        ∧ Completes (.kStl sz sc spad a b) s fun u => Traps s u t c 2 ((s.pcWord t c).setWidth 64))
    ∧ (∀ op sc spad rd a b, scopeOk sc = false →
      Completes (.kAmoW op sc spad rd a b) s (fun u => Traps s u t c 2 ((s.pcWord t c).setWidth 64))
        ∧ Completes (.kAmoD op sc spad rd a b) s fun u => Traps s u t c 2 ((s.pcWord t c).setWidth 64))
    ∧ (∀ sc a b, scopeOk sc = false →
      Completes (.kFence sc) s (fun u => Traps s u t c 2 ((s.pcWord t c).setWidth 64))
        ∧ Completes (.kSpost sc a b) s (fun u => Traps s u t c 2 ((s.pcWord t c).setWidth 64))
        ∧ Completes (.kFput sc a b) s fun u => Traps s u t c 2 ((s.pcWord t c).setWidth 64))
    ∧ (∀ q rd a b, queueOk q = false →
      Completes (.kTlwait q rd a b) s (fun u => Traps s u t c 2 ((s.pcWord t c).setWidth 64))
        ∧ Completes (.kTlread q rd) s (fun u => Traps s u t c 2 ((s.pcWord t c).setWidth 64))
        ∧ Completes (.kQstat q rd) s fun u => Traps s u t c 2 ((s.pcWord t c).setWidth 64))
    ∧ (∀ sc rd a b, wellFormed (.kBar sc rd a b) = false →
      Completes (.kBar sc rd a b) s fun u => Traps s u t c 2 ((s.pcWord t c).setWidth 64))
    ∧ (∀ sc rd a b, barScopeOk sc = false →
      Completes (.kBarw sc rd a b) s (fun u => Traps s u t c 2 ((s.pcWord t c).setWidth 64))
        ∧ Completes (.kClosure sc rd a) s fun u => Traps s u t c 2 ((s.pcWord t c).setWidth 64))
    ∧ Completes (.kMfence 0) s (fun u => Traps s u t c 2 ((s.pcWord t c).setWidth 64))
    ∧ Completes (.kPause 0) s (fun u => Traps s u t c 2 ((s.pcWord t c).setWidth 64))
    ∧ Completes .ebreak s (fun u => Traps s u t c 3 (s.hart t c).pc)
    ∧ (s.getX t c 17 ≠ 0 → Completes .ecall s fun u => Traps s u t c 8 0)

/-- ECALL with a7 = 0 and k.exit retire the task with the low 32 bits of x10 as its exit code: the hart issues nothing more and
nothing else changes (R56, R96). k.exit does what ecall with a7 = 0 does (R96). -/
def Obligations.ExitRetiresTheTask : Prop :=
  (∀ s t c, At s t c → ∀ i, (i = .ecall ∧ s.getX t c 17 = 0) ∨ i = .kExit →
      Completes i s fun u =>
        (u.ctx t c).exit = some (low32 (s.getX t c 10)) ∧ (u.hart t c).draining = true ∧ (u.hart t c).wait = none
          ∧ u = s.modCtx t c (fun x => { x with exit := (u.ctx t c).exit, hart := { x.hart with draining := true, wait := none } })
          ∧ BytesKept s u)
  ∧ (∀ s t c, At s t c → s.getX t c 17 = 0 → exec .kExit s = exec .ecall s ∧ ∃ u, exec .kExit s = .next u)

/-! ### Xkgl: memory order (R71 to R75, R99) -/

/-- k.lda sends its read and waits; the registers and the pc stay until the response (R72). -/
def Obligations.AcquireLoads : Prop :=
  ∀ s t c sz sc spad rd a r home addr key, At s t c → scopeOk sc = true → (s.hart t c).wait = none →
    Leads s t c spad (s.getX t c a) (Machine.sizeOf sz) ⟨true, false, false⟩ r home addr key →
    Completes (.kLda sz sc spad rd a) s fun u =>
      Sends r u t c false home
          (.read addr (Machine.sizeOf sz) key { tile := t, ctx := c, rd := rd, size := Machine.sizeOf sz }) [] (s.getX t c a)
        ∧ (∃ w, (u.hart t c).wait = some w ∧ w.what = .load ∧ w.instr = .kLda sz sc spad rd a ∧ w.len = s.focus.len
            ∧ w.since = s.now)
        ∧ (u.hart t c).pc = (s.hart t c).pc ∧ RegsKept s u ∧ HartKept (s.hart t c) (u.hart t c)

/-- k.stl sends the low bytes of rs2 behind every earlier access not yet performed at its scope, and goes on (R73). That the
die's clock ticks at issue only with nothing ahead of the store, and else as the store leaves, is the model's reading
(assumption 39). -/
def Obligations.ReleaseStores : Prop :=
  ∀ s t c sz sc spad a b r home addr key, At s t c → scopeOk sc = true →
    Leads s t c spad (s.getX t c a) (Machine.sizeOf sz) ⟨false, true, false⟩ r home addr key →
    Completes (.kStl sz sc spad a b) s fun u =>
      Sends r u t c true home (.write addr ((bytesOf (s.getX t c b) (Machine.sizeOf sz)).map some) key none)
          (r.unperformed t c sc.toNat) (s.getX t c a)
        ∧ Advances s u t c ∧ RegsKept s u

/-- k.amo sends its operation behind every earlier access not yet performed at its scope: posted with rd = x0, else the hart
waits for the old value (R73, R74, R117). When the die's clock ticks is the model's reading (assumption 39). -/
def Obligations.RemoteAtomics : Prop :=
  ∀ s t c op sc spad rd a b r home addr key, At s t c → scopeOk sc = true → (s.hart t c).wait = none →
    (Leads s t c spad (s.getX t c a) 4 ⟨false, true, true⟩ r home addr key →
      Completes (.kAmoW op sc spad rd a b) s fun u =>
        Sends r u t c true home
            (.atomic op 4 addr (s.getX t c b) (s.getX t c rd) key (if rd = 0 then none else some { tile := t, ctx := c, rd := rd, size := 4 }))
            (r.unperformed t c sc.toNat) (s.getX t c a)
          ∧ RegsKept s u
          ∧ (rd = 0 → Advances s u t c ∧ (u.hart t c).wait = none)
          ∧ (rd ≠ 0 → (u.hart t c).pc = (s.hart t c).pc
            ∧ ∃ w, (u.hart t c).wait = some w ∧ w.what = .load ∧ w.instr = .kAmoW op sc spad rd a b))
    ∧ (Leads s t c spad (s.getX t c a) 8 ⟨false, true, true⟩ r home addr key →
      Completes (.kAmoD op sc spad rd a b) s fun u =>
        Sends r u t c true home
            (.atomic op 8 addr (s.getX t c b) (s.getX t c rd) key (if rd = 0 then none else some { tile := t, ctx := c, rd := rd, size := 8 }))
            (r.unperformed t c sc.toNat) (s.getX t c a)
          ∧ RegsKept s u
          ∧ (rd = 0 → Advances s u t c ∧ (u.hart t c).wait = none)
          ∧ (rd ≠ 0 → (u.hart t c).pc = (s.hart t c).pc
            ∧ ∃ w, (u.hart t c).wait = some w ∧ w.what = .load ∧ w.instr = .kAmoD op sc spad rd a b))

/-- FENCE, FENCE.TSO and FENCE.I have no effect but to pass on (R61). k.fence passes on once every earlier access is performed
at its scope, and blocks before that (R75). -/
def Obligations.Fences : Prop :=
  (∀ s t c imm a rd, At s t c →
    Completes (.fence imm a rd) s (fun u => Passes s u t c) ∧ Completes (.fenceI imm a rd) s (fun u => Passes s u t c))
  ∧ ∀ s t c sc, At s t c → scopeOk sc = true →
    (s.unperformed t c sc.toNat = [] →
      Completes (.kFence sc) s fun u => (u.hart t c).wait = none ∧ Advances s u t c ∧ RegsKept s u ∧ OnlyHart s u t c ∧ BytesKept s u)
    ∧ (s.unperformed t c sc.toNat ≠ [] → (s.hart t c).wait = none →
      Completes (.kFence sc) s fun u => Blocks s u t c .fence (.kFence sc) 0)

/-! ### Xkgl: semaphores (R77 to R80) -/

/-- k.sarm stores TARGET as a store under R24 does; k.sarm.z clears COUNT, ERR and OVERSHOOT first, and leaves GEN to that
store; both are one step. -/
def Obligations.SarmStoresTarget : Prop :=
  ∀ s t c a b, At s t c → s.localSemRef t c (s.getX t c a) = true →
    Completes (.kSarm a b) s (fun u =>
      SemBecomes s u t (refAddr (s.getX t c a)) ((s.sem t (refAddr (s.getX t c a))).store (low32 (s.getX t c b)))
        ∧ (u.hart t c).pc = (s.hart t c).pc + BitVec.ofNat 64 s.focus.len)
    ∧ Completes (.kSarmZ a b) s (fun u =>
      SemBecomes s u t (refAddr (s.getX t c a))
          { s.sem t (refAddr (s.getX t c a)) with target := low32 (s.getX t c b), count := 0, err := false, overshot := false }
        ∧ (u.hart t c).pc = (s.hart t c).pc + BitVec.ofNat 64 s.focus.len)

/-- k.sread reads COUNT, GEN, ERR and OVERSHOOT of a semaphore of the tile in one step, and the die takes on the clock of its
credits (R80). -/
def Obligations.SreadReadsOneStep : Prop :=
  ∀ s t c rd a, At s t c → s.localSemRef t c (s.getX t c a) = true →
    Completes (.kSread rd a) s fun u =>
      Writes s u t c rd ((0 : BitVec 14) ++ bit (s.sem t (refAddr (s.getX t c a))).overshot
          ++ bit (s.sem t (refAddr (s.getX t c a))).err ++ (s.sem t (refAddr (s.getX t c a))).gen
          ++ (s.sem t (refAddr (s.getX t c a))).count)
        ∧ u.dieClock (s.dieOf t) = (s.dieClock (s.dieOf t)).merge (s.sem t (refAddr (s.getX t c a))).clock
        ∧ Advances s u t c ∧ u = { s.modHart t c (fun _ => u.hart t c) with dies := u.dies } ∧ BytesKept s u

/-- k.spost credits a semaphore of its own tile or of another tile of the launch; a zero count has no effect (R78). k.swait: rd
takes GEN and ERR once the generation has come, and the die the clock of its credits; else the hart blocks (R79). When the die's
clock ticks for a credit, and that a later release follows what was acquired, is the model's reading (assumption 39). -/
def Obligations.PostsAndWaits : Prop :=
  (∀ s t c sc a b, At s t c → scopeOk sc = true → s.semRefOk t c (s.getX t c a) = true →
      (low32 (s.getX t c b) = 0 → Completes (.kSpost sc a b) s fun u => Passes s u t c)
      ∧ (low32 (s.getX t c b) ≠ 0 →
        Completes (.kSpost sc a b) s fun u =>
          Sends s u t c (!refLocal t (s.getX t c a)) (.tile (refOn t (s.getX t c a)))
              (.credit (refOn t (s.getX t c a)) (refAddr (s.getX t c a)) (low32 (s.getX t c b)).toNat)
              (s.unperformed t c sc.toNat) 0
            ∧ Advances s u t c ∧ RegsKept s u))
  ∧ (∀ s t c rd a b, At s t c → s.localSemRef t c (s.getX t c a) = true →
      (((s.sem t (refAddr (s.getX t c a))).gen - (s.getX t c b).extractLsb' 0 16).toNat < 32768 →
        Completes (.kSwait rd a b) s fun u =>
          Writes s u t c rd ((0 : BitVec 46) ++ bit (s.sem t (refAddr (s.getX t c a))).err ++ bit false
              ++ (s.sem t (refAddr (s.getX t c a))).gen)
            ∧ Acquires s u t c (s.sem t (refAddr (s.getX t c a))).clock
            ∧ Advances s u t c ∧ (u.hart t c).wait = none)
      ∧ (32768 ≤ ((s.sem t (refAddr (s.getX t c a))).gen - (s.getX t c b).extractLsb' 0 16).toNat → (s.hart t c).wait = none →
        Completes (.kSwait rd a b) s fun u =>
          Blocks s u t c (.sem (refAddr (s.getX t c a)) ((s.getX t c b).extractLsb' 0 16)) (.kSwait rd a b)
            ((s.getX t c b).toNat / 65536)))

/-- A wait of k.swait, k.tlwait or k.barw whose deadline has come, and what it waits for has not, ends: rd takes the result of a
timeout, nothing else than the hart changes (R79, R91, R94). -/
def Obligations.WaitsTimeOut : Prop :=
  ∀ s t c w d, At s t c → (s.hart t c).wait = some w → w.deadline = some d → d ≤ s.now →
    (∀ g want rd a b, w.what = .sem g want → w.instr = .kSwait rd a b → 32768 ≤ ((s.sem t g).gen - want).toNat →
      Completes .kSwaitTimeout s fun u =>
        Ends s u t c rd ((0 : BitVec 46) ++ bit (s.sem t g).err ++ bit true ++ (s.sem t g).gen))
    ∧ (∀ q rd a b, w.instr = .kTlwait q rd a b → ((s.ctx t c).count q.toNat).timeline < s.getX t c a →
      Completes .kTlwaitTimeout s fun u => Ends s u t c rd 1)
    ∧ ∀ sc rd a b, w.instr = .kBarw sc rd a b → (s.ctx t c).completedAt sc.toNat < (s.getX t c a).toNat →
      Completes .kBarwTimeout s fun u => Ends s u t c rd 1

/-! ### Xkgl: futures (R81 to R85) -/

/-- k.fput sends the value to the cell's home behind every earlier access not yet performed at its scope (R82). A cell that is
full: k.fget takes its value and clears FULL alone, k.ftry reads its tags and flags, k.hyield passes on. An empty one: k.ftry
reads the same, k.hyield blocks, and so does k.fget without a handler or within it (R83, R85). When the die's clock ticks for a
put is the model's reading (assumption 39); of a cell with an uncorrectable error nothing is said here (assumption 93). -/
def Obligations.FuturesPutAndTaken : Prop :=
  (∀ s t c sc a b, At s t c → scopeOk sc = true → (s.getX t c a).toNat % 16 = 0 → s.refOk t c (s.getX t c a) 16 = true →
      Completes (.kFput sc a b) s fun u =>
        Sends s u t c true (.tile (refOn t (s.getX t c a)))
            (.put (sliceAddr (refOn t (s.getX t c a)) (refAddr (s.getX t c a))) (s.getX t c b) t (s.ctx t c).num)
            (s.unperformed t c sc.toNat) 0
          ∧ Advances s u t c ∧ RegsKept s u)
  ∧ (∀ s t c rd a, At s t c → s.cellCause t c (s.getX t c a) = none → s.localBad t (refAddr (s.getX t c a)) 16 = false →
      (s.cellFull t (refAddr (s.getX t c a)) = true →
        Completes (.kFget rd a) s (fun u =>
          Writes s u t c rd (wordOf 64 (s.localBytes t (refAddr (s.getX t c a)) 8))
            ∧ (∀ x b, u.localByte x b =
              if x = t ∧ b = refAddr (s.getX t c a) + 12 then s.localByte x b &&& 0xFE else s.localByte x b)
            ∧ (∀ p, p ≠ sliceAddr t (refAddr (s.getX t c a)) + 12 → cellRead u.mem p = cellRead s.mem p)
            ∧ u.hostMem = s.hostMem
            ∧ Advances s u t c ∧ (u.hart t c).wait = none)
        ∧ Completes (.kHyield a) s (fun u =>
          Advances s u t c ∧ RegsKept s u ∧ (u.hart t c).wait = none ∧ OnlyHart s u t c ∧ BytesKept s u))
      ∧ Completes (.kFtry rd a) s (fun u =>
          Writes s u t c rd ((0 : BitVec 20) ++ (wordOf 128 (s.localBytes t (refAddr (s.getX t c a)) 16)).extractLsb' 64 12
              ++ (0 : BitVec 30) ++ (wordOf 128 (s.localBytes t (refAddr (s.getX t c a)) 16)).extractLsb' 96 2)
            ∧ Advances s u t c ∧ BytesKept s u)
      ∧ (s.cellFull t (refAddr (s.getX t c a)) = false → (s.hart t c).wait = none →
        Completes (.kHyield a) s (fun u => Blocks s u t c .cell (.kHyield a) 0)
        ∧ ((s.hart t c).fhandler = 0 ∨ (s.hart t c).fin = true →
          Completes (.kFget rd a) s fun u => Blocks s u t c .cell (.kFget rd a) 0)))

/-- The user trap FEMPTY saves the pc and the address, sets IN and goes to the handler, and changes nothing else; k.fret clears
IN and goes back, and is illegal with IN clear (R84). -/
def Obligations.FemptyAndReturn : Prop :=
  ∀ s t c, At s t c →
    (∀ rd a, s.cellCause t c (s.getX t c a) = none → s.localBad t (refAddr (s.getX t c a)) 16 = false →
      s.cellFull t (refAddr (s.getX t c a)) = false → (s.hart t c).fhandler ≠ 0 → (s.hart t c).fin = false → (s.hart t c).wait = none →
      Completes (.kFget rd a) s fun u =>
        (u.hart t c).fepc = (s.hart t c).pc ∧ (u.hart t c).faddr = s.getX t c a ∧ (u.hart t c).fin = true
          ∧ (u.hart t c).pc = (s.hart t c).fhandler ∧ (u.hart t c).fhandler = (s.hart t c).fhandler
          ∧ (u.hart t c).fpcw = (s.hart t c).fpcw ∧ (u.hart t c).fflags = (s.hart t c).fflags
          ∧ RegsKept s u ∧ OnlyHart s u t c ∧ BytesKept s u)
    ∧ ((s.hart t c).fin = true →
      Completes .kFret s fun u =>
        (u.hart t c).fin = false ∧ (u.hart t c).pc = (s.hart t c).fepc
          ∧ u = s.modHart t c (fun h => { h with fin := false, pc := h.fepc, nextAt := (u.hart t c).nextAt }) ∧ BytesKept s u)
    ∧ ((s.hart t c).fin = false → Running s t c →
      Completes .kFret s fun u => Traps s u t c 2 ((s.pcWord t c).setWidth 64))

/-- An Xkgl access that is misaligned raises cause 4 or 6; an aligned one whose reference is invalid raises cause 5 or 7, as does
a semaphore reference that is not the tile's where it must be; no register is written. A virtual address whose translation
faults ends the context with the fault's code when the launch has no fault queue (R71 to R74, R77 to R83, R139). That k.spost
checks its reference at a count of 0 too, and that alignment comes before the reference, is the model's reading
(assumption 37). -/
def Obligations.XkglAccessTraps : Prop :=
  ∀ s t c, At s t c → Running s t c →
    (∀ sz sc spad rd a b, scopeOk sc = true →
      ((s.getX t c a).toNat % Machine.sizeOf sz ≠ 0 →
        Completes (.kLda sz sc spad rd a) s (fun u => Traps s u t c 4 (s.getX t c a))
          ∧ Completes (.kStl sz sc spad a b) s fun u => Traps s u t c 6 (s.getX t c a))
      ∧ ((s.getX t c a).toNat % Machine.sizeOf sz = 0 → s.refOk t c (s.getX t c a) (Machine.sizeOf sz) = false →
        Completes (.kLda sz sc true rd a) s (fun u => Traps s u t c 5 (s.getX t c a))
          ∧ Completes (.kStl sz sc true a b) s fun u => Traps s u t c 7 (s.getX t c a))
      ∧ ∀ r f, (s.getX t c a).toNat % Machine.sizeOf sz = 0 → recFqVa (s.recOf t c) = 0 →
        (s.translate t (s.asidOf t c) (s.getX t c a) ⟨true, false, false⟩ = (r, .error f) →
          Completes (.kLda sz sc false rd a) s fun u => Ended s u t c f.code)
        ∧ (s.translate t (s.asidOf t c) (s.getX t c a) ⟨false, true, false⟩ = (r, .error f) →
          Completes (.kStl sz sc false a b) s fun u => Ended s u t c f.code))
    ∧ (∀ op sc rd a b r f, scopeOk sc = true → recFqVa (s.recOf t c) = 0 →
      s.translate t (s.asidOf t c) (s.getX t c a) ⟨false, true, true⟩ = (r, .error f) →
      ((s.getX t c a).toNat % 4 = 0 → Completes (.kAmoW op sc false rd a b) s fun u => Ended s u t c f.code)
        ∧ ((s.getX t c a).toNat % 8 = 0 → Completes (.kAmoD op sc false rd a b) s fun u => Ended s u t c f.code))
    ∧ (∀ op sc spad rd a b, scopeOk sc = true →
      ((s.getX t c a).toNat % 4 ≠ 0 → Completes (.kAmoW op sc spad rd a b) s fun u => Traps s u t c 6 (s.getX t c a))
      ∧ ((s.getX t c a).toNat % 8 ≠ 0 → Completes (.kAmoD op sc spad rd a b) s fun u => Traps s u t c 6 (s.getX t c a))
      ∧ ((s.getX t c a).toNat % 4 = 0 → s.refOk t c (s.getX t c a) 4 = false →
        Completes (.kAmoW op sc true rd a b) s fun u => Traps s u t c 7 (s.getX t c a))
      ∧ ((s.getX t c a).toNat % 8 = 0 → s.refOk t c (s.getX t c a) 8 = false →
        Completes (.kAmoD op sc true rd a b) s fun u => Traps s u t c 7 (s.getX t c a)))
    ∧ (∀ rd a b, s.localSemRef t c (s.getX t c a) = false →
      Completes (.kSarm a b) s (fun u => Traps s u t c 7 (s.getX t c a))
        ∧ Completes (.kSarmZ a b) s (fun u => Traps s u t c 7 (s.getX t c a))
        ∧ Completes (.kSwait rd a b) s (fun u => Traps s u t c 5 (s.getX t c a))
        ∧ Completes (.kSread rd a) s fun u => Traps s u t c 5 (s.getX t c a))
    ∧ (∀ sc a b, scopeOk sc = true →
      (s.semRefOk t c (s.getX t c a) = false → Completes (.kSpost sc a b) s fun u => Traps s u t c 7 (s.getX t c a))
      ∧ ((s.getX t c a).toNat % 16 ≠ 0 → Completes (.kFput sc a b) s fun u => Traps s u t c 6 (s.getX t c a))
      ∧ ((s.getX t c a).toNat % 16 = 0 → s.refOk t c (s.getX t c a) 16 = false →
        Completes (.kFput sc a b) s fun u => Traps s u t c 7 (s.getX t c a)))
    ∧ ∀ rd a cause, s.cellCause t c (s.getX t c a) = some cause →
      Completes (.kFget rd a) s (fun u => Traps s u t c cause (s.getX t c a))
        ∧ Completes (.kFtry rd a) s (fun u => Traps s u t c cause (s.getX t c a))
        ∧ Completes (.kHyield a) s fun u => Traps s u t c cause (s.getX t c a)

/-! ### Xkgl: engine commands (R86 to R91) -/

/-- k.run and k.runi put a descriptor into the run queue with the control word in force; rd takes the timeline value of its
completion (R67, R87). The number the entry takes is the model's reading (assumption 37), and so is that a command that has
waited for room enters the descriptor it took when its wait began (assumption 54). -/
def Obligations.RunCommandsEnter : Prop :=
  ∀ s t c rd a, At s t c → (s.ctx t c).runs.length < 16 →
    (∀ d, (s.getX t c a).toNat % 64 = 0 → s.inOwnCarve t c (s.getX t c a).toNat 64 = true → Took s t c (s.getX t c a) d →
      Completes (.kRun rd a) s fun u =>
        Enters s u t c 4 rd 1 ∧ (u.ctx t c).chans = (s.ctx t c).chans
          ∧ (u.ctx t c).runs = (s.ctx t c).runs
            ++ [runEntry d false (s.hart t c).fpcw ((s.ctx t c).count 4).issued.toNat])
    ∧ ∀ b, ∃ d bad, runiDesc (s.getX t c a) (s.getX t c b) = (d, bad)
        ∧ rdStart d = fieldNat (s.getX t c a) 12 0 ∧ rdKlen d = fieldNat (s.getX t c a) 29 16
        ∧ rdTrip d 0 = fieldNat (s.getX t c b) 31 0 ∧ rdOuter d = 0 ∧ rdPlen d = 0 ∧ rdElen d = 0
        ∧ (bad = false ↔ fieldNat (s.getX t c a) 63 30 = 0 ∧ fieldNat (s.getX t c a) 15 13 = 0 ∧ fieldNat (s.getX t c b) 63 32 = 0)
        ∧ Completes (.kRuni rd a b) s fun u =>
          Enters s u t c 4 rd 1 ∧ (u.ctx t c).chans = (s.ctx t c).chans
            ∧ (u.ctx t c).runs = (s.ctx t c).runs
              ++ [runEntry d bad (s.hart t c).fpcw ((s.ctx t c).count 4).issued.toNat]

/-- k.copy, the two forms of k.copyi and k.stk put a packet into a copy channel or the stack queue; rd takes TLSUM after it
(R88, R89). The entry's number (assumption 37), and the packet of a command that has waited (assumption 54), are the model's
readings. -/
def Obligations.CopyCommandsEnter : Prop :=
  ∀ s t c rd a, At s t c →
    (∀ (ch : BitVec 2), ((s.ctx t c).chan ch.toNat).length < 32 →
      (∀ d, (s.getX t c a).toNat % 64 = 0 → s.inOwnCarve t c (s.getX t c a).toNat 64 = true → Took s t c (s.getX t c a) d →
        Completes (.kCopy ch rd a) s fun u =>
          Enters s u t c ch.toNat rd (BitVec.ofNat 64 (fieldNat d 63 48)) ∧ (u.ctx t c).runs = (s.ctx t c).runs
            ∧ ∀ p, (u.ctx t c).chan p = if p = ch.toNat
              then (s.ctx t c).chan p ++ [queueEntry d false ((s.ctx t c).count ch.toNat).issued.toNat (s.indexWords t d)]
              else (s.ctx t c).chan p)
      ∧ ∀ b,
        Completes (.kCopyiIn ch rd a b) s (fun u =>
          Enters s u t c ch.toNat rd 1 ∧ (u.ctx t c).runs = (s.ctx t c).runs
            ∧ ∀ p, (u.ctx t c).chan p = if p = ch.toNat
              then (s.ctx t c).chan p ++ [queueEntry (copyiPacket false (s.getX t c a) (s.getX t c b)).1
                (copyiPacket false (s.getX t c a) (s.getX t c b)).2 ((s.ctx t c).count ch.toNat).issued.toNat]
              else (s.ctx t c).chan p)
        ∧ Completes (.kCopyiOut ch rd a b) s (fun u =>
          Enters s u t c ch.toNat rd 1 ∧ (u.ctx t c).runs = (s.ctx t c).runs
            ∧ ∀ p, (u.ctx t c).chan p = if p = ch.toNat
              then (s.ctx t c).chan p ++ [queueEntry (copyiPacket true (s.getX t c a) (s.getX t c b)).1
                (copyiPacket true (s.getX t c a) (s.getX t c b)).2 ((s.ctx t c).count ch.toNat).issued.toNat]
              else (s.ctx t c).chan p))
    ∧ (((s.ctx t c).chan 5).length < 16 →
      ∀ d, (s.getX t c a).toNat % 64 = 0 → s.inOwnCarve t c (s.getX t c a).toNat 64 = true → Took s t c (s.getX t c a) d →
        Completes (.kStk rd a) s fun u =>
          Enters s u t c 5 rd 1 ∧ (u.ctx t c).runs = (s.ctx t c).runs
            ∧ ∀ p, (u.ctx t c).chan p = if p = 5
              then (s.ctx t c).chan p ++ [queueEntry d false ((s.ctx t c).count 5).issued.toNat] else (s.ctx t c).chan p)

/-- A command that finds its queue full blocks the hart with what it took at its issue; a misaligned or foreign descriptor raises
cause 4 or 5 (R86 to R89). That the blocked command holds the packet it read is the model's reading (assumption 54). -/
def Obligations.CommandsBlockOrTrap : Prop :=
  ∀ s t c rd a, At s t c →
    ((s.hart t c).wait = none → (s.getX t c a).toNat % 64 = 0 → s.inOwnCarve t c (s.getX t c a).toNat 64 = true →
      s.localBad t (s.getX t c a).toNat 64 = false →
      let d : Rec64 := wordOf 512 (s.localBytes t (s.getX t c a).toNat 64)
      ((s.ctx t c).runs.length = 16 → Completes (.kRun rd a) s fun u => Blocks s u t c (.queue 4 d) (.kRun rd a) 0)
      ∧ (∀ ch : BitVec 2, ((s.ctx t c).chan ch.toNat).length = 32 →
        Completes (.kCopy ch rd a) s fun u => Blocks s u t c (.queue ch.toNat d) (.kCopy ch rd a) 0)
      ∧ (((s.ctx t c).chan 5).length = 16 → Completes (.kStk rd a) s fun u => Blocks s u t c (.queue 5 d) (.kStk rd a) 0))
    ∧ ((s.hart t c).wait = none → ∀ b,
      ((s.ctx t c).runs.length = 16 →
        Completes (.kRuni rd a b) s fun u =>
          Blocks s u t c (.queue 4 (runiDesc (s.getX t c a) (s.getX t c b)).1) (.kRuni rd a b) 0)
      ∧ ∀ ch : BitVec 2, ((s.ctx t c).chan ch.toNat).length = 32 →
        Completes (.kCopyiIn ch rd a b) s (fun u =>
          Blocks s u t c (.queue ch.toNat (copyiPacket false (s.getX t c a) (s.getX t c b)).1) (.kCopyiIn ch rd a b) 0)
        ∧ Completes (.kCopyiOut ch rd a b) s fun u =>
          Blocks s u t c (.queue ch.toNat (copyiPacket true (s.getX t c a) (s.getX t c b)).1) (.kCopyiOut ch rd a b) 0)
    ∧ (Running s t c → (s.getX t c a).toNat % 64 ≠ 0 →
      ∀ ch, Completes (.kRun rd a) s (fun u => Traps s u t c 4 (s.getX t c a))
        ∧ Completes (.kCopy ch rd a) s (fun u => Traps s u t c 4 (s.getX t c a))
        ∧ Completes (.kStk rd a) s fun u => Traps s u t c 4 (s.getX t c a))
    ∧ (Running s t c → (s.getX t c a).toNat % 64 = 0 → s.inOwnCarve t c (s.getX t c a).toNat 64 = false →
      ∀ ch, Completes (.kRun rd a) s (fun u => Traps s u t c 5 (s.getX t c a))
        ∧ Completes (.kCopy ch rd a) s (fun u => Traps s u t c 5 (s.getX t c a))
        ∧ Completes (.kStk rd a) s fun u => Traps s u t c 5 (s.getX t c a))

/-- k.mfence sets FENCE to ISSUED for each queue it names and for no other; k.join passes on once RETIRED has reached FENCE for
all six queues, an acquire of what has left them, and blocks before that (R90, R120). That the acquire takes the clock of every
entry that has left the context's queues is the model's reading (assumption 39). -/
def Obligations.QueueFencesAndJoin : Prop :=
  ∀ s t c, At s t c →
    (∀ m : BitVec 6, m ≠ 0 →
      Completes (.kMfence m) s fun u =>
        (∀ q, ((u.ctx t c).count q) = if (q = 4 ∧ m.getLsbD 0 = true) ∨ (q < 4 ∧ m.getLsbD (q + 1) = true) ∨ (q = 5 ∧ m.getLsbD 5 = true)
          then { (s.ctx t c).count q with fence := ((s.ctx t c).count q).issued } else (s.ctx t c).count q)
        ∧ Advances s u t c ∧ RegsKept s u
        ∧ u = s.modCtx t c (fun x => { x with hart := u.hart t c, counts := (u.ctx t c).counts }) ∧ BytesKept s u)
    ∧ ((∀ q, q < 6 → ((s.ctx t c).count q).fence ≤ ((s.ctx t c).count q).retired) →
      Completes .kJoin s fun u => (u.hart t c).wait = none ∧ Advances s u t c ∧ RegsKept s u ∧ Acquires s u t c (s.ctx t c).left)
    ∧ ∀ q, q < 6 → ¬ ((s.ctx t c).count q).fence ≤ ((s.ctx t c).count q).retired → (s.hart t c).wait = none →
      Completes .kJoin s fun u => Blocks s u t c .join .kJoin 0

/-- k.tlwait ends with 0 once the timeline has reached x[rs1], compared unsigned, an acquire of what has left the queues
(assumption 39), and blocks before that; k.tlread reads the timeline, k.qstat the state of the queue (R91, R120). That their
results may be used one clock cycle on is the model's reading (assumption 35). -/
def Obligations.TimelinesAndQueueState : Prop :=
  ∀ s t c (q : BitVec 3) rd, At s t c → q.toNat ≤ 5 →
    (∀ a b, s.getX t c a ≤ ((s.ctx t c).count q.toNat).timeline →
      Completes (.kTlwait q rd a b) s fun u =>
        Writes s u t c rd 0 ∧ Acquires s u t c (s.ctx t c).left ∧ Advances s u t c ∧ (u.hart t c).wait = none)
    ∧ (∀ a b, ((s.ctx t c).count q.toNat).timeline < s.getX t c a → (s.hart t c).wait = none →
      Completes (.kTlwait q rd a b) s fun u =>
        Blocks s u t c (.timeline q.toNat) (.kTlwait q rd a b) (s.getX t c b).toNat)
    ∧ Completes (.kTlread q rd) s (fun u => Sets s u t c rd ((s.ctx t c).count q.toNat).timeline 1)
    ∧ Completes (.kQstat q rd) s fun u =>
      Sets s u t c rd (((s.ctx t c).count q.toNat).retired.extractLsb' 0 32 ++ (0 : BitVec 15) ++ bit ((s.ctx t c).parkedIn q.toNat)
        ++ BitVec.ofNat 8 (queueSize q.toNat - (s.ctx t c).occ q.toNat) ++ BitVec.ofNat 8 ((s.ctx t c).occ q.toNat)) 1

/-! ### Xkgl: parcels, barriers, launches (R92 to R95) -/

/-- k.parcel takes the front of the tile's parcel queue; it answers all ones with no parcel space, or when every parcel has
been drawn; else it blocks on an empty queue. A tile whose traffic a move holds draws nothing (R40). k.pinfo answers by selector
(R92); that its result may be used one clock cycle on is the model's reading (assumption 35). -/
def Obligations.ParcelsDrawn : Prop :=
  ∀ s t c rd, At s t c →
    (s.parcelsOf (s.ctx t c).launch = none → Completes (.kParcel rd) s fun u => Ends s u t c rd (BitVec.allOnes 64))
    ∧ (∀ p, s.parcelsOf (s.ctx t c).launch = some p → t ∈ s.holding → (s.hart t c).wait = none →
      Completes (.kParcel rd) s fun u => Blocks s u t c .parcel (.kParcel rd) 0)
    ∧ (∀ p, s.parcelsOf (s.ctx t c).launch = some p → ¬ t ∈ s.holding →
      (∀ n l, p.queue t = n :: l →
        Completes (.kParcel rd) s fun u =>
          Writes s u t c rd (BitVec.ofNat 64 n) ∧ Advances s u t c ∧ (u.hart t c).wait = none
            ∧ (∃ p', u.parcelsOf (s.ctx t c).launch = some p' ∧ p'.drawn = p.drawn + 1 ∧ p'.queue t = l ∧ p'.next = p.next
              ∧ p'.total = p.total ∧ ∀ x, x ≠ t → p'.queue x = p.queue x)
            ∧ u = { s.modHart t c (fun _ => u.hart t c) with parcels := u.parcels } ∧ BytesKept s u)
      ∧ (p.queue t = [] → p.drawn = p.total → Completes (.kParcel rd) s fun u => Ends s u t c rd (BitVec.allOnes 64))
      ∧ (p.queue t = [] → p.drawn ≠ p.total → (s.hart t c).wait = none →
        Completes (.kParcel rd) s fun u => Blocks s u t c .parcel (.kParcel rd) 0))
    ∧ ∀ sel a, Completes (.kPinfo sel rd a) s fun u =>
        Sets s u t c rd (s.pinfo t c sel.toNat (s.getX t c a).toNat) 1

/-- k.bar sends the arrival at the task's next episode to its node, and rd takes the episode's number; it waits while the
task's previous episode is open. k.barw ends with 0 once the episode has completed. k.closure writes the report of the
latest completion, and 0 with nothing written before the first (R93, R94). k.bar.pod with group 0 (assumption 81), k.barw of
episode 0 (assumption 45), what an arrival follows (assumption 39) and the latency of k.closure (assumption 35) are the model's
readings. -/
def Obligations.BarriersArriveAndWait : Prop :=
  ∀ s t c rd a, At s t c →
    (∀ sc b, wellFormed (.kBar sc rd a b) = true →
      ((s.ctx t c).arrivedAt sc.toNat ≤ (s.ctx t c).completedAt sc.toNat →
        Completes (.kBar sc rd a b) s fun u =>
          Writes s u t c rd (BitVec.ofNat 64 ((s.ctx t c).arrivedAt sc.toNat + 1)) ∧ Advances s u t c ∧ (u.hart t c).wait = none
            ∧ (u.ctx t c).arrivedAt sc.toNat = (s.ctx t c).arrivedAt sc.toNat + 1
            ∧ (∃ m r, u.net = s.net ++ [m] ∧ m.home = s.nodeOf sc.toNat t ∧ m.body = .arrival r ∧ r.launch = (s.ctx t c).launch
              ∧ r.scope = sc.toNat ∧ r.tile = t ∧ r.ctx = (s.ctx t c).num ∧ r.task = (s.ctx t c).task ∧ r.retired = false
              ∧ r.count = (low32 (s.getX t c b)).toNat ∧ m.after = behind s t (s.unperformed t c sc.toNat)
              ∧ m.own = some (t, c))
            ∧ BytesKept s u)
      ∧ ((s.ctx t c).completedAt sc.toNat < (s.ctx t c).arrivedAt sc.toNat → (s.hart t c).wait = none →
        Completes (.kBar sc rd a b) s fun u => Blocks s u t c .bar (.kBar sc rd a b) 0))
    ∧ (∀ sc b, barScopeOk sc = true →
      ((s.getX t c a).toNat ≤ (s.ctx t c).completedAt sc.toNat → Completes (.kBarw sc rd a b) s fun u => Ends s u t c rd 0)
      ∧ ((s.ctx t c).completedAt sc.toNat < (s.getX t c a).toNat → (s.hart t c).wait = none →
        Completes (.kBarw sc rd a b) s fun u => Blocks s u t c .bar (.kBarw sc rd a b) (s.getX t c b).toNat))
    ∧ ∀ sc, barScopeOk sc = true → (s.getX t c a).toNat % 32 = 0 → s.inOwnCarve t c (s.getX t c a).toNat 32 = true →
      ((s.ctx t c).completedAt sc.toNat = 0 → Completes (.kClosure sc rd a) s fun u => Sets s u t c rd 0 1)
      ∧ ((s.ctx t c).completedAt sc.toNat ≠ 0 → (s.getX t c a).toNat + 32 ≤ semBase →
        Completes (.kClosure sc rd a) s fun u =>
          Stores s u t (s.getX t c a).toNat (bytesOf (tabGet 0 (s.ctx t c).closure sc.toNat : BitVec 256) 32)
            ∧ Writes s u t c rd (BitVec.ofNat 64 ((s.ctx t c).completedAt sc.toNat)) ∧ Advances s u t c)

/-- k.launch appends the record to the launch queue with the issuer's ASID and a PRIO not above the issuer's; rd takes the
count of records entered. A full queue blocks the hart (R95). -/
def Obligations.LaunchSubmits : Prop :=
  ∀ s t c (q : BitVec 3) rd a b, At s t c → (s.hart t c).wait = none →
    (s.getX t c a).toNat % 64 = 0 → s.inOwnCarve t c (s.getX t c a).toNat 256 = true →
    s.localBad t (s.getX t c a).toNat 256 = false →
    (b ≠ 0 → (s.getX t c b).toNat % 8 = 0 ∧ s.inOwnCarve t c (s.getX t c b).toNat 8 = true) →
    ((s.queue q.toNat).recs.length < 64 →
      Completes (.kLaunch q rd a b) s fun u =>
        Writes s u t c rd ((s.queue q.toNat).entered + 1) ∧ Advances s u t c ∧ (u.hart t c).wait = none
          ∧ (u.queue q.toNat).entered = (s.queue q.toNat).entered + 1
          ∧ (∃ x, (u.queue q.toNat).recs = (s.queue q.toNat).recs ++ [x] ∧ x.m = (s.queue q.toNat).entered.toNat
            ∧ x.fromHost = false ∧ x.valid = false
            ∧ x.status = (if b = 0 then none else some (t, sliceAddr t (s.getX t c b).toNat))
            ∧ recAsid x.record = s.asidOf t c
            ∧ recPrio x.record = min (recPrio (wordOf 2048 (s.localBytes t (s.getX t c a).toNat 256) : LaunchRec)) (s.prioOf t c)
            ∧ ∀ i, i < 2048 → ¬(192 ≤ i ∧ i < 208) → ¬(10 ≤ i ∧ i < 12) →
              x.record.getLsbD i = (wordOf 2048 (s.localBytes t (s.getX t c a).toNat 256)).getLsbD i)
          ∧ u = { s.modHart t c (fun _ => u.hart t c) with queues := u.queues } ∧ BytesKept s u)
    ∧ (64 ≤ (s.queue q.toNat).recs.length →
      Completes (.kLaunch q rd a b) s fun u =>
        Blocks s u t c (.launchQueue q.toNat (wordOf 2048 (s.localBytes t (s.getX t c a).toNat 256))) (.kLaunch q rd a b) 0)

/-! ### Xkgl: pause, stamps, accounts, events (R97, R98) -/

/-- k.pause opens the window of n clock cycles from the next cycle, in place of one under way; the window ends with its last
cycle (R97). k.stamp reads the time base and k.trace passes on, with nothing else but the record they leave when collection is on;
k.acct reads a counter of the reading context and all ones of any other, and that its result may be used one clock cycle on is
the model's reading (assumption 35); k.raise passes on, without effect when the launch has no fault queue; k.raise.f ends the
context with its code (R98). -/
def Obligations.PauseAndAccounting : Prop :=
  (∀ s t c, At s t c →
      (∀ n : BitVec 12, n ≠ 0 →
        Completes (.kPause n) s fun u =>
          u = s.modHart t c (fun h => { h with pause := n.toNat + 1, pc := h.pc + BitVec.ofNat 64 s.focus.len }) ∧ BytesKept s u)
      ∧ ((s.hart t c).pause = 1 →
        Completes .pauseEnd s fun u => u = s.modHart t c (fun h => { h with pause := 0 }) ∧ BytesKept s u))
  ∧ (∀ s t c, At s t c →
      (∀ id rd, Completes (.kStamp id rd) s fun u =>
        Writes s u t c rd (BitVec.ofNat 64 s.now) ∧ Advances s u t c ∧ (s.collects t c = false → OnlyHart s u t c ∧ BytesKept s u))
      ∧ (∀ id a, Completes (.kTrace id a) s fun u =>
        Advances s u t c ∧ RegsKept s u ∧ (s.collects t c = false → Passes s u t c))
      ∧ (∀ rd a, Completes (.kAcct rd a) s fun u =>
        ∃ v, Sets s u t c rd v 1
          ∧ (s.counter t (s.getX t c a) = none → v = BitVec.allOnes 64)
          ∧ ∀ k, s.counter t (s.getX t c a) = some k →
            v = if fieldNat (s.getX t c a) 4 0 = 31 ∨ fieldNat (s.getX t c a) 19 16 = (s.ctx t c).num then k.setWidth 64
              else BitVec.allOnes 64)
      ∧ (∀ a, Completes (.kRaise a) s fun u =>
        Advances s u t c ∧ RegsKept s u ∧ (recFqVa (s.recOf t c) = 0 → Passes s u t c))
      ∧ (Running s t c → ∀ a, Completes (.kRaiseF a) s fun u =>
        (u.ctx t c).st = .faulted ∧ (u.hart t c).pc = (s.hart t c).pc ∧ RegsKept s u
          ∧ ∃ r, (u.ctx t c).stop = some r ∧ r.code = 0x30 ∧ r.arg = (low32 (s.getX t c a)).setWidth 64 ∧ r.src = 1
            ∧ r.pc = (s.hart t c).pc ∧ r.word = s.pcWord t c))

/-! ### Bundle slots: the scalar slots (R196 to R202) -/

/-- The register forms of SA and SB, with the latencies of R187; the destination takes the result and so does the latch. -/
def Obligations.ScalarRegisterForms : Prop :=
  (∀ g : SR, Gives (.add g) 1 fun v => .scalar (.s g.sd.toNat) (v.s g.sa + v.s g.sb) true)
    ∧ (∀ g : SR, Gives (.sub g) 1 fun v => .scalar (.s g.sd.toNat) (v.s g.sa - v.s g.sb) true)
    ∧ (∀ g : SR, Gives (.mul g) 3 fun v => .scalar (.s g.sd.toNat) (v.s g.sa * v.s g.sb) true)
    ∧ (∀ g : SR, Gives (.mulh g) 3 fun v =>
        .scalar (.s g.sd.toNat) (BitVec.ofInt 64 ((v.s g.sa).toInt * (v.s g.sb).toInt / 2 ^ 64)) true)
    ∧ (∀ g : SR, Gives (.mulhn g) 3 fun v =>
        .scalar (.s g.sd.toNat) (BitVec.ofNat 64 ((v.s g.sa).toNat * (v.s g.sb).toNat / 2 ^ 64)) true)
    ∧ (∀ g : SR, Gives (.and g) 1 fun v => .scalar (.s g.sd.toNat) (v.s g.sa &&& v.s g.sb) true)
    ∧ (∀ g : SR, Gives (.or g) 1 fun v => .scalar (.s g.sd.toNat) (v.s g.sa ||| v.s g.sb) true)
    ∧ (∀ g : SR, Gives (.xor g) 1 fun v => .scalar (.s g.sd.toNat) (v.s g.sa ^^^ v.s g.sb) true)
    ∧ (∀ g : SR, Gives (.andn g) 1 fun v => .scalar (.s g.sd.toNat) (v.s g.sa &&& ~~~v.s g.sb) true)
    ∧ (∀ g : SR, Gives (.shl g) 1 fun v => .scalar (.s g.sd.toNat) (v.s g.sa <<< ((v.s g.sb).toNat % 64)) true)
    ∧ (∀ g : SR, Gives (.shr g) 1 fun v => .scalar (.s g.sd.toNat) (v.s g.sa >>> ((v.s g.sb).toNat % 64)) true)
    ∧ (∀ g : SR, Gives (.sra g) 1 fun v => .scalar (.s g.sd.toNat) ((v.s g.sa).sshiftRight ((v.s g.sb).toNat % 64)) true)
    ∧ (∀ g : SR, Gives (.rotl g) 1 fun v => .scalar (.s g.sd.toNat) ((v.s g.sa).rotateLeft ((v.s g.sb).toNat % 64)) true)
    ∧ (∀ g : SR, Gives (.min g) 1 fun v => .scalar (.s g.sd.toNat) (if (v.s g.sa).toInt ≤ (v.s g.sb).toInt then v.s g.sa else v.s g.sb) true)
    ∧ (∀ g : SR, Gives (.max g) 1 fun v => .scalar (.s g.sd.toNat) (if (v.s g.sb).toInt ≤ (v.s g.sa).toInt then v.s g.sa else v.s g.sb) true)
    ∧ (∀ g : SR, Gives (.minn g) 1 fun v => .scalar (.s g.sd.toNat) (if (v.s g.sa).toNat ≤ (v.s g.sb).toNat then v.s g.sa else v.s g.sb) true)
    ∧ (∀ g : SR, Gives (.maxn g) 1 fun v => .scalar (.s g.sd.toNat) (if (v.s g.sb).toNat ≤ (v.s g.sa).toNat then v.s g.sa else v.s g.sb) true)
    ∧ (∀ g : SU, Gives (.clz g) 1 fun v => .scalar (.s g.sd.toNat) (BitVec.ofNat 64 (leadZeros (v.s g.sa) 64)) true)
    ∧ (∀ g : SU, Gives (.popc g) 1 fun v => .scalar (.s g.sd.toNat) (BitVec.ofNat 64 (countOnes (v.s g.sa) 64)) true)
    ∧ ∀ g : SR, Gives (.sel g) 1 fun v => .scalar (.s g.sd.toNat) (if v.k g.kc then v.s g.sa else v.s g.sb) true

/-- The immediate forms, the compares and the logic of flags (R199, R200). The special reads take the value of R186 at issue, and a read of bstc clears WCOLS; the address registers are set, advanced
and read (R186, R201, R202). -/
def Obligations.ScalarOtherForms : Prop :=
  ((∀ g : SI, Gives (.addi g) 1 fun v => .scalar (.s g.sd.toNat) (v.s g.sa + g.imm.signExtend 64) true)
      ∧ (∀ g : SM, Gives (.movi g) 1 fun _ => .scalar (.s g.sd.toNat) (g.imm.signExtend 64) true)
      ∧ (∀ g : SI, Gives (.movhi g) 1 fun v => .scalar (.s g.sd.toNat) ((v.s g.sa <<< 10) ||| g.imm.setWidth 64) true)
      ∧ (∀ g : SSh, Gives (.shlI g) 1 fun v => .scalar (.s g.sd.toNat) (v.s g.sa <<< g.cnt.toNat) true)
      ∧ (∀ g : SSh, Gives (.shrI g) 1 fun v => .scalar (.s g.sd.toNat) (v.s g.sa >>> g.cnt.toNat) true)
      ∧ (∀ g : SSh, Gives (.sraI g) 1 fun v => .scalar (.s g.sd.toNat) ((v.s g.sa).sshiftRight g.cnt.toNat) true)
      ∧ (∀ g : SSh, Gives (.rotlI g) 1 fun v => .scalar (.s g.sd.toNat) ((v.s g.sa).rotateLeft g.cnt.toNat) true)
      ∧ (∀ g : SI, Gives (.andI g) 1 fun v => .scalar (.s g.sd.toNat) (v.s g.sa &&& g.imm.signExtend 64) true)
      ∧ (∀ g : SI, Gives (.orI g) 1 fun v => .scalar (.s g.sd.toNat) (v.s g.sa ||| g.imm.signExtend 64) true)
      ∧ (∀ g : SI, Gives (.xorI g) 1 fun v => .scalar (.s g.sd.toNat) (v.s g.sa ^^^ g.imm.signExtend 64) true)
      ∧ (∀ g : SC, Gives (.ceq g) 1 fun v => .flag g.kd.toNat (decide (v.s g.sa = v.s g.sb)))
      ∧ (∀ g : SC, Gives (.cne g) 1 fun v => .flag g.kd.toNat (decide (v.s g.sa ≠ v.s g.sb)))
      ∧ (∀ g : SC, Gives (.clt g) 1 fun v => .flag g.kd.toNat (decide ((v.s g.sa).toInt < (v.s g.sb).toInt)))
      ∧ (∀ g : SC, Gives (.cle g) 1 fun v => .flag g.kd.toNat (decide ((v.s g.sa).toInt ≤ (v.s g.sb).toInt)))
      ∧ (∀ g : SC, Gives (.cltn g) 1 fun v => .flag g.kd.toNat (decide (v.s g.sa < v.s g.sb)))
      ∧ (∀ g : SC, Gives (.clen g) 1 fun v => .flag g.kd.toNat (decide (v.s g.sa ≤ v.s g.sb)))
      ∧ (∀ g : SCI, Gives (.ceqI g) 1 fun v => .flag g.kd.toNat (decide (v.s g.sa = g.imm.signExtend 64)))
      ∧ (∀ g : SCI, Gives (.cneI g) 1 fun v => .flag g.kd.toNat (decide (v.s g.sa ≠ g.imm.signExtend 64)))
      ∧ (∀ g : SCI, Gives (.cltI g) 1 fun v => .flag g.kd.toNat (decide ((v.s g.sa).toInt < g.imm.toInt)))
      ∧ (∀ g : SCI, Gives (.cleI g) 1 fun v => .flag g.kd.toNat (decide ((v.s g.sa).toInt ≤ g.imm.toInt)))
      ∧ (∀ g : SCI, Gives (.cltnI g) 1 fun v => .flag g.kd.toNat (decide (v.s g.sa < g.imm.signExtend 64)))
      ∧ (∀ g : SCI, Gives (.clenI g) 1 fun v => .flag g.kd.toNat (decide (v.s g.sa ≤ g.imm.signExtend 64)))
      ∧ (∀ g : SK, Gives (.kand g) 1 fun v => .flag g.kd.toNat (v.k g.ka && v.k g.kb))
      ∧ (∀ g : SK, Gives (.kor g) 1 fun v => .flag g.kd.toNat (v.k g.ka || v.k g.kb))
      ∧ ∀ g : SK, Gives (.kxor g) 1 fun v => .flag g.kd.toNat (v.k g.ka != v.k g.kb))
  ∧ ((∀ s t c n (g : SM) w, Issues s (.smov g) t c n →
        ((g.imm = 0 ∧ w = BitVec.ofNat 64 t) ∨ (g.imm = 1 ∧ w = s.didWord t)
          ∨ (g.imm = 2 ∧ w = BitVec.ofNat 64 ((s.didWord t).toNat / 16 % 16)) ∨ (g.imm = 3 ∧ w = BitVec.ofNat 64 (s.ctx t c).num)
          ∨ (g.imm = 4 ∧ w = BitVec.ofNat 64 (s.weight t)) ∨ (g.imm = 5 ∧ w = (s.bun t c).icount)
          ∨ (g.imm = 6 ∧ w = BitVec.ofNat 64 s.now) ∨ (g.imm = 7 ∧ w = if (s.bun t c).wcols then 1 else 0) →
          Completes (.smov g) s fun u => Lands s u t c n 1 (.scalar (.s g.sd.toNat) w true))
        ∧ (g.imm = 8 ∧ (w = if (s.bun t c).wcols then 1 else 0) →
          Completes (.smov g) s fun u =>
            LandsFrom ((Reads s t c n).modBun t c fun b => { b with wcols := false }) s u t c n 1 (.scalar (.s g.sd.toNat) w true)))
      ∧ (∀ kc ad sa imm, Gives (.aset kc ad sa imm) 1 fun v => .addr ad.toNat ((v.s sa + imm.signExtend 64).setWidth 32))
      ∧ (∀ kc ad imm, Gives (.aadd kc ad imm) 1 fun v => .addr ad.toNat (v.a ad + imm.signExtend 32))
      ∧ ∀ kc sd aa, Gives (.aget kc sd aa) 1 fun v => .scalar (.s sd.toNat) ((v.a aa).setWidth 64) true)

/-! ### Bundle slots: the vector slots and the approximations (R244 to R265) -/

/-- The floating-point forms: every lane of the predicate takes the element operation of its type under the run's control word,
the flags of those lanes are ORed, and the result lands after the latency of R188. -/
def Obligations.VectorFloatForms : Prop :=
  (∀ g : VF, GivesLanes (.fadd g) 4 g.d g.pr fun v j =>
      onLane3 g.ty (FpOp.add.elem (fpEnv v.fpcw)) (v.src g.a j) (v.src g.b j) (v.src g.d j))
    ∧ (∀ g : VF, GivesLanes (.fsub g) 4 g.d g.pr fun v j =>
      onLane3 g.ty (FpOp.sub.elem (fpEnv v.fpcw)) (v.src g.a j) (v.src g.b j) (v.src g.d j))
    ∧ (∀ g : VF, GivesLanes (.fmul g) 5 g.d g.pr fun v j =>
      onLane3 g.ty (FpOp.mul.elem (fpEnv v.fpcw)) (v.src g.a j) (v.src g.b j) (v.src g.d j))
    ∧ (∀ g : VF, GivesLanes (.fma g) 5 g.d g.pr fun v j =>
      onLane3 g.ty (FpOp.fma.elem (fpEnv v.fpcw)) (v.src g.a j) (v.src g.b j) (v.src g.d j))
    ∧ (∀ g : VF, GivesLanes (.fms g) 5 g.d g.pr fun v j =>
      onLane3 g.ty (FpOp.fms.elem (fpEnv v.fpcw)) (v.src g.a j) (v.src g.b j) (v.src g.d j))
    ∧ (∀ g : VF, GivesLanes (.fnma g) 5 g.d g.pr fun v j =>
      onLane3 g.ty (FpOp.fnma.elem (fpEnv v.fpcw)) (v.src g.a j) (v.src g.b j) (v.src g.d j))
    ∧ (∀ g : VF, GivesLanes (.fnms g) 5 g.d g.pr fun v j =>
      onLane3 g.ty (FpOp.fnms.elem (fpEnv v.fpcw)) (v.src g.a j) (v.src g.b j) (v.src g.d j))
    ∧ (∀ g : VF, GivesLanes (.fmin g) 4 g.d g.pr fun v j =>
      onLane3 g.ty (fun f x y _ => fpSelect (fpEnv v.fpcw) f false false x y) (v.src g.a j) (v.src g.b j) 0)
    ∧ (∀ g : VF, GivesLanes (.fmax g) 4 g.d g.pr fun v j =>
      onLane3 g.ty (fun f x y _ => fpSelect (fpEnv v.fpcw) f true false x y) (v.src g.a j) (v.src g.b j) 0)
    ∧ (∀ g : VF, GivesLanes (.fminn g) 4 g.d g.pr fun v j =>
      onLane3 g.ty (fun f x y _ => fpSelect (fpEnv v.fpcw) f false true x y) (v.src g.a j) (v.src g.b j) 0)
    ∧ (∀ g : VF, GivesLanes (.fmaxn g) 4 g.d g.pr fun v j =>
      onLane3 g.ty (fun f x y _ => fpSelect (fpEnv v.fpcw) f true true x y) (v.src g.a j) (v.src g.b j) 0)
    ∧ (∀ g : VFU, GivesLanes (.fclass g) 4 g.d g.pr fun v j =>
      onLane3 g.ty (fun f x _ _ => (fpClass (fpEnv v.fpcw) f x, FFlags.none)) (v.src g.a j) 0 0)
    ∧ (∀ g : VFC, GivesBits (.fceq g) g.pd g.pr fun v j => cmpLane g.ty .eq (fpEnv v.fpcw) (v.src g.a j) (v.src g.b j))
    ∧ (∀ g : VFC, GivesBits (.fclt g) g.pd g.pr fun v j => cmpLane g.ty .lt (fpEnv v.fpcw) (v.src g.a j) (v.src g.b j))
    ∧ (∀ g : VFC, GivesBits (.fcle g) g.pd g.pr fun v j => cmpLane g.ty .le (fpEnv v.fpcw) (v.src g.a j) (v.src g.b j))
    ∧ ∀ g : VFC, GivesBits (.fcun g) g.pd g.pr fun v j => cmpLane g.ty .un (fpEnv v.fpcw) (v.src g.a j) (v.src g.b j)

/-- Conversions, approximations and reductions: lanes and flags as R254, R256 and R259 to R265 give them; a conversion whose
rounding code is stochastic advances the counter by one and draws from its value (R228). -/
def Obligations.ConversionsApproximationsReductions : Prop :=
  (∀ g : V2, GivesLanes (.rsqa g) 8 g.d g.pr fun v j => approxLane rsqaOf (v.src g.a j))
    ∧ (∀ g : V2, GivesLanes (.rcpa g) 8 g.d g.pr fun v j => approxLane rcpaOf (v.src g.a j))
    ∧ (∀ g : V2, GivesLanes (.exp2a g) 8 g.d g.pr fun v j => approxLane exp2aOf (v.src g.a j))
    ∧ (∀ g : V2, GivesLanes (.log2a g) 8 g.d g.pr fun v j => approxLane log2aOf (v.src g.a j))
    ∧ (∀ g : V2, GivesLanes (.sina g) 8 g.d g.pr fun v j => approxLane (sinaOf 0) (v.src g.a j))
    ∧ (∀ g : V2, GivesLanes (.cosa g) 8 g.d g.pr fun v j => approxLane (sinaOf 65536) (v.src g.a j))
    ∧ (∀ g : V2, GivesLanes (.tanha g) 8 g.d g.pr fun v j => approxLane tanhaOf (v.src g.a j))
    ∧ (∀ g : Cvt, g.rnd ≠ 5 → GivesLanes (.cvt g) 3 g.d g.pr fun v j =>
      cvtLane (ftzOf v.fpcw) g.src.toNat g.dst.toNat (cvtMode v v.x.bun.srCount g.rnd j) (v.src g.a j))
    ∧ (∀ s t c n (g : Cvt), g.rnd = 5 → Issues s (.cvt g) t c n → Completes (.cvt g) s fun u =>
      ∃ data flags, LaneResult (fun j => cvtLane (ftzOf (s.env t c n).fpcw) g.src.toNat g.dst.toNat
            (cvtMode (s.env t c n) (s.bun t c).srCount g.rnd j) ((s.env t c n).src g.a j)) ((s.env t c n).pred g.pr) data flags
        ∧ LandsFrom ((Reads s t c n).modBun t c fun b => { b with srCount := b.srCount + 1 }) s u t c n 3
            (.vec ((s.env t c n).target g.d) ((s.env t c n).pred g.pr) data true flags))
    ∧ (∀ g : V2, Gives (.vredAddF g) 10 fun v =>
      let r := reduce (v.pred g.pr) (flushLane (fpEnv v.fpcw)) (fun x y => FpOp.add.elem (fpEnv v.fpcw) fp32 x y 0) (v.vec g.a)
      .vec (v.target g.d) (v.pred g.pr) r.1 true r.2.bits)
    ∧ (∀ g : V2, Gives (.vredMaxF g) 6 fun v =>
      let r := reduce (v.pred g.pr) (flushLane (fpEnv v.fpcw)) (fun x y => fpSelect (fpEnv v.fpcw) fp32 true false x y) (v.vec g.a)
      .vec (v.target g.d) (v.pred g.pr) r.1 true
        (if (lanesIn (v.pred g.pr)).any fun i => (fp32.decode (v.src g.a i).toNat).isSig then FFlags.invalid else FFlags.none).bits)
    ∧ ∀ g : V2, Gives (.vredAddI32 g) 6 fun v =>
      .vec (v.target g.d) (v.pred g.pr) (reduce (v.pred g.pr) BitVec.toNat (fun x y => ((x + y) % 2 ^ 32, FFlags.none)) (v.vec g.a)).1
        true 0

/-- The integer forms, moves, selections and permutations of lanes, and the predicates (R251 to R258). -/
def Obligations.VectorIntegerForms : Prop :=
  (∀ g : V3, GivesLanes (.vaddI32 g) 2 g.d g.pr fun v j => (v.src g.a j + v.src g.b j, FFlags.none))
    ∧ (∀ g : V3, GivesLanes (.vsubI32 g) 2 g.d g.pr fun v j => (v.src g.a j - v.src g.b j, FFlags.none))
    ∧ (∀ g : V3, GivesLanes (.vmulI32 g) 2 g.d g.pr fun v j => (v.src g.a j * v.src g.b j, FFlags.none))
    ∧ (∀ g : V3, GivesLanes (.vand g) 2 g.d g.pr fun v j => (v.src g.a j &&& v.src g.b j, FFlags.none))
    ∧ (∀ g : V3, GivesLanes (.vor g) 2 g.d g.pr fun v j => (v.src g.a j ||| v.src g.b j, FFlags.none))
    ∧ (∀ g : V3, GivesLanes (.vxor g) 2 g.d g.pr fun v j => (v.src g.a j ^^^ v.src g.b j, FFlags.none))
    ∧ (∀ g : V3, GivesLanes (.vandn g) 2 g.d g.pr fun v j => (v.src g.a j &&& ~~~v.src g.b j, FFlags.none))
    ∧ (∀ g : V3, GivesLanes (.vshl g) 2 g.d g.pr fun v j => (v.src g.a j <<< ((v.src g.b j).toNat % 32), FFlags.none))
    ∧ (∀ g : V3, GivesLanes (.vshr g) 2 g.d g.pr fun v j => (v.src g.a j >>> ((v.src g.b j).toNat % 32), FFlags.none))
    ∧ (∀ g : V3, GivesLanes (.vsra g) 2 g.d g.pr fun v j => ((v.src g.a j).sshiftRight ((v.src g.b j).toNat % 32), FFlags.none))
    ∧ (∀ g : V3, GivesLanes (.vminI32 g) 2 g.d g.pr fun v j =>
      (if (v.src g.a j).toInt ≤ (v.src g.b j).toInt then v.src g.a j else v.src g.b j, FFlags.none))
    ∧ (∀ g : V3, GivesLanes (.vmaxI32 g) 2 g.d g.pr fun v j =>
      (if (v.src g.b j).toInt ≤ (v.src g.a j).toInt then v.src g.a j else v.src g.b j, FFlags.none))
    ∧ (∀ g : V3, GivesLanes (.vminN32 g) 2 g.d g.pr fun v j =>
      (if v.src g.a j ≤ v.src g.b j then v.src g.a j else v.src g.b j, FFlags.none))
    ∧ (∀ g : V3, GivesLanes (.vmaxN32 g) 2 g.d g.pr fun v j =>
      (if v.src g.b j ≤ v.src g.a j then v.src g.a j else v.src g.b j, FFlags.none))
    ∧ (∀ g : V2, GivesLanes (.vmov g) 2 g.d g.pr fun v j => (v.src g.a j, FFlags.none))
    ∧ (∀ g : VImm, GivesLanes (.vmovi g) 2 g.d g.pr fun _ _ => (g.imm.signExtend 32, FFlags.none))
    ∧ (∀ g : VS, GivesLanes (.vbcs g) 2 g.d g.pr fun v _ => ((v.s g.s).setWidth 32, FFlags.none))
    ∧ (∀ g : V3, GivesLanes (.pack g) 3 g.d g.pr fun v j =>
      ((v.src g.b j).extractLsb' 0 16 ++ (v.src g.a j).extractLsb' 0 16, FFlags.none))
    ∧ (∀ g : VN 2, GivesLanes (.unpack g) 3 g.d g.pr fun v j => (unpackLane g.n.toNat (v.src g.a j), FFlags.none))
    ∧ (∀ g : V3, GivesLanes (.perm g) 2 g.d g.pr fun v j => (v.src g.a (16 * (j / 16) + (v.src g.b j).toNat % 16), FFlags.none))
    ∧ (∀ g : VN 4, GivesLanes (.bcl g) 2 g.d g.pr fun v j => (v.src g.a (16 * (j / 16) + g.n.toNat), FFlags.none))
    ∧ (∀ g : VN 3, GivesLanes (.xcl g) 4 g.d g.pr fun v j => (v.src g.a ((j + 16 * g.n.toNat) % 128), FFlags.none))
    ∧ (∀ g : V2, GivesLanes (.part g) 12 g.d g.pr fun v j =>
      (BitVec.ofNat 32 ((partList (v.pred g.pr) (v.vec g.a)).getD j 0), FFlags.none))
    ∧ (∀ g : PP, GivesLanes (.ppop g) 2 g.d g.pr fun v _ => (BitVec.ofNat 32 (countOnes (v.pred g.pa) 128), FFlags.none))
    ∧ (∀ g : V3, Gives (.vsel g) 2 fun v => .vec (v.target g.d) Mask.full
      (lanesOf fun j => if (v.pred g.pr).getLsbD j then v.src g.a j else v.src g.b j) true 0)
    ∧ (∀ g : VC, Gives (.vceqI32 g) 2 fun v =>
      .pred g.pd.toNat (v.pred g.pr) (maskOf fun j => decide (v.src g.a j = v.src g.b j)) 0)
    ∧ (∀ g : VC, Gives (.vcltI32 g) 2 fun v =>
      .pred g.pd.toNat (v.pred g.pr) (maskOf fun j => (v.src g.a j).slt (v.src g.b j)) 0)
    ∧ (∀ g : VC, Gives (.vcltN32 g) 2 fun v =>
      .pred g.pd.toNat (v.pred g.pr) (maskOf fun j => (v.src g.a j).ult (v.src g.b j)) 0)
    ∧ (∀ g : PL, Gives (.pand g) 2 fun v => .pred g.pd.toNat (v.pred g.pr) (v.pred g.pa &&& v.pred g.pb) 0)
    ∧ (∀ g : PL, Gives (.por g) 2 fun v => .pred g.pd.toNat (v.pred g.pr) (v.pred g.pa ||| v.pred g.pb) 0)
    ∧ (∀ g : PL, Gives (.pxor g) 2 fun v => .pred g.pd.toNat (v.pred g.pr) (v.pred g.pa ^^^ v.pred g.pb) 0)
    ∧ ∀ g : PL, Gives (.pandn g) 2 fun v => .pred g.pd.toNat (v.pred g.pr) (v.pred g.pa &&& ~~~v.pred g.pb) 0

/-! ### Bundle slots: memory and semaphores (R206 to R218) -/

/-- Vector and scalar loads and stores whose addresses pass the checks: the addresses of R209, the access cycle of R208, the
data of a store read at issue. -/
def Obligations.MemorySlots : Prop :=
  (∀ g : MO, Loads (.vld g) 2 4 g.dm g.pr fun v => laneAddrs v g.pr fun i =>
      Int.ofNat (v.a g.ar).toNat + g.off.toInt * 64 + 4 * Int.ofNat i)
    ∧ (∀ g : MO, Loads (.vldB g) 2 4 g.dm g.pr fun v => laneAddrs v g.pr fun _ => Int.ofNat (v.a g.ar).toNat + g.off.toInt * 4)
    ∧ (∀ g : MS, Loads (.vldS g) 2 4 g.dm g.pr fun v => laneAddrs v g.pr fun i =>
      Int.ofNat (v.a g.ar).toNat + g.off.toInt * 4 + Int.ofNat i * (v.s g.s).toInt)
    ∧ (∀ g : MX, Loads (.vldx g) 3 5 g.dm g.pr fun v => laneAddrs v g.pr fun i =>
      Int.ofNat (v.a g.ar).toNat + Int.ofNat (v.src g.vi i).toNat)
    ∧ (∀ g : MO, StoresLanes (.vst g) 2 g.dm fun v => laneAddrs v g.pr fun i =>
      Int.ofNat (v.a g.ar).toNat + g.off.toInt * 64 + 4 * Int.ofNat i)
    ∧ (∀ g : MS, StoresLanes (.vstS g) 2 g.dm fun v => laneAddrs v g.pr fun i =>
      Int.ofNat (v.a g.ar).toNat + g.off.toInt * 4 + Int.ofNat i * (v.s g.s).toInt)
    ∧ (∀ g : MX, StoresLanes (.vstx g) 3 g.dm fun v => laneAddrs v g.pr fun i =>
      Int.ofNat (v.a g.ar).toNat + Int.ofNat (v.src g.vi i).toNat)
    ∧ (∀ s t c n (g : MSc), Issues s (.sld g) t c n →
      LanesReach s (s.env t c n) false 8 2 [(0, Int.ofNat ((s.env t c n).a g.ar).toNat + g.off.toInt * 8)] →
      Completes (.sld g) s fun u => Lands s u t c n 2
        (.load (.s g.s.toNat) 1 [(0, (Int.ofNat ((s.env t c n).a g.ar).toNat + g.off.toInt * 8).toNat)] true 4))
    ∧ ∀ s t c n (g : MSc), Issues s (.sst g) t c n →
      LanesReach s (s.env t c n) true 8 2 [(0, Int.ofNat ((s.env t c n).a g.ar).toNat + g.off.toInt * 8)] →
      Completes (.sst g) s fun u => Lands s u t c n 2
        (.store 1 [((Int.ofNat ((s.env t c n).a g.ar).toNat + g.off.toInt * 8).toNat, (s.env t c n).s g.s)] 8)

/-- spill and fill go to slot n of the task's carve, or, beyond SPILL, to its overflow area in memory; a slot beyond both stops
the bundle with SPILLX (R212, R213). -/
def Obligations.SpillSlots : Prop :=
  ∀ s t c n (g : MSp),
    (Issues s (.spill g) t c n →
      (∀ a, s.spillPlace (s.env t c n) g.slot.toNat = .carve a →
        LanesReach s (s.env t c n) true 4 2 (laneAddrs (s.env t c n) g.pr fun i => Int.ofNat (a + 4 * i)) →
        Completes (.spill g) s fun u => Lands s u t c n 2
          (.store (maskOf fun j => (lanesIn ((s.env t c n).pred g.pr)).contains j)
            ((lanesIn ((s.env t c n).pred g.pr)).map fun i => (a + 4 * i, ((s.env t c n).src g.dm i).setWidth 64)) 4))
      ∧ (∀ va, s.spillPlace (s.env t c n) g.slot.toNat = .overflow va →
        Completes (.spill g) s fun u => Lands s u t c n 2
          (.spill va ((s.env t c n).pred g.pr) ((s.env t c n).vec g.dm) .latchOnly false))
      ∧ (s.spillPlace (s.env t c n) g.slot.toNat = .outside → Running s t c →
        Completes (.spill g) s fun u => SlotStops s u t c n 7 0 0))
    ∧ (Issues s (.fill g) t c n →
      (∀ a, s.spillPlace (s.env t c n) g.slot.toNat = .carve a →
        LanesReach s (s.env t c n) false 4 2 (laneAddrs (s.env t c n) g.pr fun i => Int.ofNat (a + 4 * i)) →
        Completes (.fill g) s fun u => Lands s u t c n 2
          (.load ((s.env t c n).target g.dm) ((s.env t c n).pred g.pr)
            ((lanesIn ((s.env t c n).pred g.pr)).map fun i => (i, a + 4 * i)) false 4))
      ∧ (∀ va, s.spillPlace (s.env t c n) g.slot.toNat = .overflow va →
        Completes (.fill g) s fun u => Lands s u t c n 2
          (.spill va ((s.env t c n).pred g.pr) Lanes.zero ((s.env t c n).target g.dm) true))
      ∧ (s.spillPlace (s.env t c n) g.slot.toNat = .outside → Running s t c →
        Completes (.fill g) s fun u => SlotStops s u t c n 7 0 0))

/-- swait passes, as an acquire, once the generation has come, and holds the bundle before that; spost credits a valid
reference three issue cycles on, nothing for a zero count, and stops with SPBND reason 4 on an invalid one; sarm and sarm.z
store TARGET three issue cycles on (R216 to R218). That a k.join or k.tlwait of the hart takes over what swait acquired is the
model's reading (assumption 39). -/
def Obligations.SemaphoreSlots : Prop :=
  (∀ s t c n g r, Issues s (.swait g r) t c n →
      (((s.sem t g.toNat).gen - ((s.env t c n).s r).setWidth 16).toNat < 32768 →
        Completes (.swait g r) s fun u =>
          u = { (Reads s t c n).modCtx t c (fun x => { x with left := (u.ctx t c).left }) with dies := u.dies }
            ∧ (u.ctx t c).left = (s.ctx t c).left.merge (s.sem t g.toNat).clock
            ∧ u.dieClock (s.dieOf t) = (s.dieClock (s.dieOf t)).merge (s.sem t g.toNat).clock)
      ∧ (32768 ≤ ((s.sem t g.toNat).gen - ((s.env t c n).s r).setWidth 16).toNat →
        Completes (.swait g r) s fun u =>
          (u.engine t).cur = none ∧ (∃ f, f ∈ (u.engine t).freezes ∧ f.cause = .semwait)
            ∧ u = (Reads s t c n).modEngine t (fun e => { e with cur := none, freezes := (u.engine t).freezes })))
    ∧ (∀ s t c n r sc cnt, Issues s (.spost r sc cnt) t c n →
      (s.semRefOk t c ((s.env t c n).s r) = true → cnt = 0 → Completes (.spost r sc cnt) s fun u => u = Reads s t c n)
      ∧ (s.semRefOk t c ((s.env t c n).s r) = true → cnt ≠ 0 →
        Completes (.spost r sc cnt) s fun u => Lands s u t c n 3
          (.credit (refOn t ((s.env t c n).s r)) (refAddr ((s.env t c n).s r)) cnt.toNat sc.toNat))
      ∧ (s.semRefOk t c ((s.env t c n).s r) = false → Running s t c →
        Completes (.spost r sc cnt) s fun u => SlotStops s u t c n 6 4 ((s.env t c n).s r)))
    ∧ (∀ g r, Gives (.sarm g r) 3 fun v => .arm g.toNat ((v.s r).setWidth 32) false)
    ∧ ∀ g r, Gives (.sarmZ g r) 3 fun v => .arm g.toNat ((v.s r).setWidth 32) true

/-! ### Bundle slots: matrix and row statistics (R301 to R312) -/

/-- mset writes the fields of its entry, mset.c from 64 bytes of the scratchpad; mzero clears its accumulator one issue cycle on
(R302, R310). mdrain whose checks pass rounds the 4,096 elements to its format and writes them, with their flags, 80 issue cycles on; the
accumulator stays. rstat whose checks pass lands in every lane 40 issue cycles on, without a flag; its form xflags reads
LOSS and OVF and clears them (R311, R312). -/
def Obligations.MatrixEntriesDrainStatistics : Prop :=
  ((∀ ent r, Gives (.msetF ent r) 1 fun v =>
        .fmtBits ent.toNat 0 10 (BitVec.ofNat 512 ((v.s r).toNat % 32 + 32 * ((v.s r).toNat / 256 % 32))))
      ∧ (∀ ent r a, Gives (.msetS ent r a) 1 fun v =>
        .fmtBits ent.toNat 10 64 (BitVec.ofNat 512 ((v.a a).toNat + 2 ^ 32 * ((v.s r).toNat % 2 ^ 32))))
      ∧ (∀ s t c n ent a, Issues s (.msetC ent a) t c n →
        LanesReach s (s.env t c n) false 64 2 [(0, Int.ofNat ((s.env t c n).a a).toNat)] →
        Completes (.msetC ent a) s fun u => Lands s u t c n 2 (.fmtC ent.toNat ((s.env t c n).a a).toNat))
      ∧ ∀ s t c n acc, Issues s (.mzero acc) t c n → (s.engine t).accPending c acc.toNat = false →
        (s.engine t).accRead c acc.toNat true = false →
        Completes (.mzero acc) s fun u => Lands s u t c n 1 (.mzero acc.toNat))
  ∧ ((∀ s t c n (g : XD), Issues s (.mdrain g) t c n → (s.engine t).busyBy false c = false →
        (s.engine t).accPending c g.acc.toNat = false → (s.bun t c).accMismatch g.acc.toNat = false →
        ((s.env t c n).a g.ad).toNat + 512 * drainBits g.dfmt.toNat ≤ 0x400000 →
        s.inLaunchCarves (s.ctx t c).launch t ((s.env t c n).a g.ad).toNat (512 * drainBits g.dfmt.toNat) = true →
        ((s.env t c n).a g.ad).toNat % 64 = 0 →
        oneGroup ((s.env t c n).a g.ad).toNat (512 * drainBits g.dfmt.toNat) = true →
        (s.engine t).accessIn c 80 [groupOf ((s.env t c n).a g.ad).toNat] = false →
        (s.ctx t c).watched true ((s.env t c n).a g.ad).toNat (512 * drainBits g.dfmt.toNat) = false →
        Completes (.mdrain g) s fun u =>
          (∃ i j k : Item, (u.engine t).items = (s.engine t).items ++ [i, j, k]
            ∧ i.kind = .busy false g.acc.toNat ∧ i.due = (s.engine t).ic + 80
            ∧ j.kind = .window [groupOf ((s.env t c n).a g.ad).toNat] g.acc.toNat [] false ∧ j.due = (s.engine t).ic + 80
            ∧ k.due = (s.engine t).ic + 80
            ∧ k.kind = (let rs := ((List.range 4096).zip ((s.bun t c).accVals g.acc.toNat)).map fun e =>
                ((lfmtOf g.dfmt.toNat).getD (.f fp32)).round (cvtMode (s.env t c n) (s.bun t c).srCount g.rnd e.1) e.2
              .drain ((s.env t c n).a g.ad).toNat (packDrain (drainBits g.dfmt.toNat) (rs.map Prod.fst)) (orFlags (rs.map Prod.snd)).bits))
          ∧ u.bun t c = { s.bun t c with srCount := (s.bun t c).srCount + if g.rnd = 5 then 1 else 0 }
          ∧ u = ((Reads s t c n).modBun t c fun _ => u.bun t c).modEngine t (fun e => { e with items := (u.engine t).items })
          ∧ BytesKept s u ∧ RegsKept s u)
      ∧ ∀ s t c n (g : XR), Issues s (.rstat g) t c n → (s.engine t).accPending c g.acc.toNat = false →
        (s.engine t).busyBy true c = false → ¬(g.stat = 4 ∧ g.acc.toNat < 20) → (s.bun t c).accMismatch g.acc.toNat = false →
        Completes (.rstat g) s fun u =>
          (∃ i k : Item, (u.engine t).items = (s.engine t).items ++ [i, k]
            ∧ i.kind = .busy true g.acc.toNat ∧ i.due = (s.engine t).ic + 16 ∧ k.due = (s.engine t).ic + 40
            ∧ k.kind = .vec ((s.env t c n).target g.d) Mask.full
              (if g.stat = 4 then
                lanesOf fun _ => BitVec.ofNat 32 ((if ((s.bun t c).sideOf (g.acc.toNat - 20)).loss then 1 else 0)
                  + (if ((s.bun t c).sideOf (g.acc.toNat - 20)).ovf then 2 else 0))
              else rstatLanes g.stat.toNat ((s.bun t c).accVals g.acc.toNat)) true 0)
          ∧ (g.stat ≠ 4 → u.bun t c = s.bun t c)
          ∧ (g.stat = 4 → ((u.bun t c).sideOf (g.acc.toNat - 20)).loss = false ∧ ((u.bun t c).sideOf (g.acc.toNat - 20)).ovf = false
            ∧ u.bun t c = { s.bun t c with side := (u.bun t c).side })
          ∧ u = ((Reads s t c n).modBun t c fun _ => u.bun t c).modEngine t (fun e => { e with items := (u.engine t).items })
          ∧ BytesKept s u ∧ RegsKept s u)

/-- mma and mma.acc whose checks pass occupy the matrix engine and hold the window of their operands' bank groups for 128 issue
cycles, and keep the accumulator pending for 160, when it takes the products of R236 to R241; at issue it takes its KIND alone,
and nothing else changes. An accumulator that an earlier mma is still to write is taken with that result (R307). -/
def Obligations.MatrixMultiply : Prop :=
  ∀ s t c n (g : XM) (accum : Bool) x y, Issues s (if accum then .mmaAcc g else .mma g) t c n →
    let ent := (s.bun t c).fmtEnt g.fpe.toNat
    let pf := if g.prof.toNat = 15 then recProfile (s.recOf t c) else g.prof.toNat
    let o : MmaOps := {
      fa := x
      fb := y
      k := Nat.min x.kper y.kper
      a := ((s.env t c n).a g.aa).toNat
      b := ((s.env t c n).a g.ab).toNat
      sa := fieldNat ent 41 10
      sb := fieldNat ent 73 42
      acb := ent.extractLsb' 74 256
      bcb := ent.extractLsb' 330 256 }
    mfmtOf (fieldNat ent 4 0) = some x → mfmtOf (fieldNat ent 9 5) = some y →
    (s.engine t).busyBy false c = false → (s.engine t).accRead c g.acc.toNat false = false →
    mprof (s.bun t c) g.prof.toNat pf g.acc.toNat (fieldNat ent 4 0) (fieldNat ent 9 5) accum = none →
    (∀ r, r ∈ o.ranges → r.1 + r.2.1 ≤ 0x400000 ∧ s.inLaunchCarves (s.ctx t c).launch t r.1 r.2.1 = true ∧ r.1 % r.2.2 = 0
      ∧ (s.ctx t c).watched false r.1 r.2.1 = false) →
    o.split = false → groupOf o.a ≠ groupOf o.b → (s.engine t).accessIn c 128 [groupOf o.a, groupOf o.b] = false →
    Completes (if accum then .mmaAcc g else .mma g) s fun u =>
      let d := (s.mmaResult t ((s.engine t).chained c g.acc.toNat (s.bun t c)) o pf g.acc.toNat accum
        (decide (fieldNat ent 4 0 = 0) && decide (fieldNat ent 9 5 = 0))).accData g.acc.toNat ent pf
      u.bun t c = (s.bun t c).tagAcc g.acc.toNat d.kind
        ∧ (∃ i j k : Item, (u.engine t).items = (s.engine t).items ++ [i, j, k]
          ∧ i.kind = .busy false g.acc.toNat ∧ i.due = (s.engine t).ic + 128 ∧ i.ctx = c
          ∧ j.kind = .window [groupOf o.a, groupOf o.b] g.acc.toNat o.reads false
          ∧ j.due = (s.engine t).ic + 128 ∧ j.ctx = c
          ∧ k.kind = .accPending g.acc.toNat d ∧ k.due = (s.engine t).ic + 160 ∧ k.ctx = c)
        ∧ u = ((Reads s t c n).modBun t c fun _ => u.bun t c).modEngine t (fun e => { e with items := (u.engine t).items })
        ∧ BytesKept s u ∧ RegsKept s u

/-! ### Bundle slots: counters, markers, yield, empty slots, refused encodings, predication (R181, R184, R185, R203 to R205) -/

/-- bbc without a counter array has no effect, and else counts its block once in the tile's cache, which writes an entry back
when it has no room for another or the entry's count has come to its last value (R203, R370); mark leaves the registers and arms
its window as its record says; yield ends its segment after its bundle; an empty slot does nothing; a slot that the maps do not
hold stops the bundle with IENC, as does any instruction that the context does not admit, and any whose flag or predicate is off
has no effect but the count of a stochastic conversion (R181, R184, R185, R228). -/
def Obligations.CountersMarksAndEmptySlots : Prop :=
  (∀ s t c n kc b, Issues s (.bbc kc b) t c n →
      (recBbcVa (s.recOf t c) = 0 → Completes (.bbc kc b) s fun u => u = Reads s t c n)
      ∧ (recBbcVa (s.recOf t c) ≠ 0 →
        let mine (x : Delta) : Bool := decide (x.launch = (s.ctx t c).launch) && decide (x.n = b.toNat)
        let rest := (s.tile t).cache.filter fun x => !mine x
        (∀ x, (s.tile t).cache.find? mine = some x → x.delta + 1 < 0xFFFFFFFF → (s.tile t).cache.length ≤ 64 →
          Completes (.bbc kc b) s fun u =>
            u = (Reads s t c n).modTile t (fun y => { y with cache := { x with delta := x.delta + 1 } :: rest }))
        ∧ (∀ x, (s.tile t).cache.find? mine = some x → x.delta + 1 = 0xFFFFFFFF →
          Completes (.bbc kc b) s fun u =>
            WrittenBack ((Reads s t c n).modTile t (fun y => { y with cache := rest })) u t c { x with delta := x.delta + 1 })
        ∧ ((s.tile t).cache.find? mine = none →
          let now : Delta := { launch := (s.ctx t c).launch, n := b.toNat, delta := 1 }
          ((s.tile t).cache.length < 64 →
            Completes (.bbc kc b) s fun u =>
              u = (Reads s t c n).modTile t (fun y => { y with cache := now :: y.cache }))
          ∧ ∀ l x, (s.tile t).cache = l ++ [x] → l.length = 63 → x.delta ≠ 0 →
            Completes (.bbc kc b) s fun u =>
              WrittenBack ((Reads s t c n).modTile t (fun y => { y with cache := now :: l })) u t c x)))
    ∧ (∀ s t c n id, Issues s (.mark id) t c n →
      Completes (.mark id) s fun u => RegsKept s u
        ∧ let actual := (s.tile t).clk - (s.bun t c).loop.firstClk.getD (s.tile t).clk
          let marks := ((s.tile t).image.map Image.markers).getD []
          let away := (Int.ofNat actual - Int.ofNat (fieldNat (marks.getD id.toNat 0) 31 0)).natAbs
          let drift := recDrift (s.recOf t c)
          u.bun t c = { s.bun t c with armed := if drift ≠ 0 ∧ drift < away then armedFull else (s.bun t c).armed })
    ∧ (∀ s t c n, Issues s .yield t c n →
      Completes .yield s fun u => (u.bun t c).loop.yielded = true
        ∧ u = (Reads s t c n).modBun t c (fun b => { b with loop := { b.loop with yielded := true } }))
    ∧ (∀ s, Completes .noOperation s fun u => u = s)
    ∧ (∀ s t c n w, At s t c → s.focus.slot = n → Running s t c → Completes (.ienc w) s fun u => SlotStops s u t c n 1 0 0)
    ∧ ∀ i s t c n, placesOf i ≠ [] → i ≠ .noOperation → At s t c → s.focus.slot = n →
      ((s.env t c n).bad i = false → (s.env t c n).off (useOf i) = true →
        Completes i s fun u =>
          u = if (useOf i).sr then (Reads s t c n).modBun t c (fun b => { b with srCount := b.srCount + 1 }) else Reads s t c n)
      ∧ ((s.env t c n).bad i = true → Running s t c → Completes i s fun u => SlotStops s u t c n 1 0 0)

/-! ### Messages at their homes (R72 to R82, R110, R117 to R122) -/

/-- Applying a message: the bytes of a write, of a record or of a sector, the new value of an atomic and the answer with the old
one, a put into an empty or a full cell, the value a read answers, the register a response brings, a credit, a frontier; the
message is gone. A number whose move has ended takes its held traffic again. That the pod's acknowledgements come as rows from
outside (assumption 53) and that a home applies a message of a sector in one step (assumption 55) are the model's readings. -/
def Obligations.MessagesAreApplied : Prop :=
  (∀ s id m, s.dueMsg id = some m →
    (∀ t a data key, m.home = .tile t → m.body = .write (sliceAddr t a) data key none → a + data.length ≤ semBase →
      Completes (.writeApply id) s fun u =>
        (∀ x b, u.localByte x b = if x = t ∧ a ≤ b ∧ b < a + data.length then (data.getD (b - a) none).getD (s.localByte x b)
            else s.localByte x b)
          ∧ u.net = Without s m ∧ u.hostMem = s.hostMem)
    ∧ (∀ a data key, m.home = .host → m.body = .write a data key none →
      Completes (.writeApply id) s fun u =>
        (∀ p, cellRead u.hostMem p = if a ≤ p ∧ p < a + data.length then (data.getD (p - a) none).getD (cellRead s.hostMem p)
            else cellRead s.hostMem p)
          ∧ (∃ l, u.hostOut = s.hostOut ++ l ∧ ∀ x, x ∈ l → x.fn = m.fn ∧ x.relaxed = false ∧ x.idOrder = false)
          ∧ u.net = Without s m ∧ u.mem = s.mem ∧ u.tiles = s.tiles)
    ∧ (∀ h a data, m.home = .stack h → m.body = .write a data 0 none →
      Completes (.writeApply id) s fun u => Puts s u a data ∧ u.net = Without s m ∧ u.hostMem = s.hostMem ∧ u.tiles = s.tiles)
    ∧ (∀ h a data fn, m.home = .stack h → m.body = .post a data 0 fn →
      Completes (.writeApply id) s fun u =>
        Puts s u a (data.map some) ∧ u.net = Without s m ∧ u.hostMem = s.hostMem ∧ u.tiles = s.tiles
          ∧ ∀ f, fn = some f → (s.page f).sends 0 = true →
            tabGet 0 (u.page f).sent 0 = tabGet 0 (s.page f).sent 0 + 1)
    ∧ (∀ t sec items, m.home = .tile t → m.body = .sector sec items → (∀ n, n ∈ items → n.acc = none) →
      (∀ e, s.sector? sec = some e → s.refusal e.2 m items = none) →
      (∀ n a, n ∈ items → a ∈ n.addrs → sliceAddr t 0 ≤ a.1 ∧ a.1 < sliceAddr t semBase) →
      Completes (.writeApply id) s fun u =>
        (let l := items.flatMap fun n => (n.addrs.map Prod.fst).zip n.data
         ∀ x b, u.localByte x b = if x = t then
             (((l.filter fun e => decide (e.1 = sliceAddr t b)).getLast?).map Prod.snd).getD (s.localByte x b) else s.localByte x b)
          ∧ (∀ v y, y ∈ (u.tile v).sectors → y.id = sec → ¬ m.id ∈ y.out) ∧ u.net = Without s m ∧ u.hostMem = s.hostMem)
    ∧ (∀ t a op size v cmp key dest, m.home = .tile t → m.body = .atomic op size (sliceAddr t a) v cmp key dest → size = 4 ∨ size = 8 →
      a + size ≤ semBase → (∀ i, i < size → s.eccBad (sliceAddr t a + i) = false) →
      Completes (.remoteAtomic id) s fun u =>
        (∀ x b, u.localByte x b = if x = t ∧ a ≤ b ∧ b < a + size
            then byteOf (kAmoValue op size (signOf size (s.localBytes t a size)) v cmp) (b - a) else s.localByte x b)
          ∧ (dest = none → u.net = Without s m)
          ∧ ∀ r, dest = some r → ∃ n, u.net = Without s m ++ [n] ∧ n.home = .tile r.tile
            ∧ n.body = .response (some (signOf size (s.localBytes t a size))) r)
    ∧ (∀ a delta key n h t l, m.home = .host → m.body = .count a delta key n h t l →
      Completes (.remoteAtomic id) s fun u =>
        (∀ p, cellRead u.hostMem p = if a ≤ p ∧ p < a + 8 then byteOf (wordOf 64 (s.hostRead a 8) + delta) (p - a)
            else cellRead s.hostMem p)
          ∧ u.net = Without s m)
    ∧ (∀ t a v pt pc, m.home = .tile t → m.body = .put (sliceAddr t a) v pt pc → a + 16 ≤ semBase →
      Completes (.futurePutApply id) s fun u =>
        u.net = Without s m
          ∧ (s.cellFull t a = true →
            ∀ x b, u.localByte x b = if x = t ∧ b = a + 12 then s.localByte x b ||| 2 else s.localByte x b)
          ∧ (s.cellFull t a = false →
            wordOf 64 (u.localBytes t a 8) = v ∧ u.localByte t (a + 12) = s.localByte t (a + 12) ||| 1
              ∧ fieldNat (wordOf 32 (u.localBytes t (a + 8) 4)) 8 0 = pt % 512
              ∧ fieldNat (wordOf 32 (u.localBytes t (a + 8) 4)) 11 9 = pc % 8
              ∧ tabGet? (u.tile t).cells a = some m.clock
              ∧ ∀ x b, ¬(x = t ∧ a ≤ b ∧ b < a + 13) → u.localByte x b = s.localByte x b))
    ∧ (∀ t a size key dest, m.home = .tile t → m.body = .read (sliceAddr t a) size key dest →
      (∀ i, i < size → s.eccBad (sliceAddr t a + i) = false) →
      Completes (.readServe id) s fun u =>
        ∃ n, u.net = Without s m ++ [n] ∧ n.home = .tile dest.tile
          ∧ n.body = .response (some (signOf size (s.localBytes t a size))) dest ∧ BytesKept s u ∧ RegsKept s u)
    ∧ (∀ a size key, m.body = .fetch a size key →
      Completes (.readServe id) s fun u =>
        (∀ t i a k h mask tgt fill got, i ∈ (u.engine t).items → i.kind = .spillOut id a k h mask tgt fill got → got.isSome = true)
          ∧ u.net = Without s m ∧ BytesKept s u ∧ RegsKept s u)
    ∧ (∀ v dest w, m.body = .response (some v) dest → (s.hart dest.tile dest.ctx).wait = some w →
      Completes (.readResponse id) s fun u =>
        Writes s u dest.tile dest.ctx dest.rd v ∧ (u.hart dest.tile dest.ctx).wait = none
          ∧ (u.hart dest.tile dest.ctx).pc = (s.hart dest.tile dest.ctx).pc + BitVec.ofNat 64 w.len
          ∧ u.dieClock (s.dieOf dest.tile) = (s.dieClock (s.dieOf dest.tile)).merge m.clock ∧ BytesKept s u)
    ∧ (∀ t g v, m.body = .credit t g v →
      Completes (.semaphoreCredit id) s fun u =>
        u.sem t g = { (s.sem t g).credit v with clock := (s.sem t g).clock.merge m.clock }
          ∧ (∀ x h, ¬(x = t ∧ h = g) → u.sem x h = s.sem x h) ∧ RegsKept s u ∧ u.net = Without s m ∧ u.mem = s.mem)
    ∧ (∀ t g, m.body = .semErr t g →
      Completes (.semaphoreCredit id) s fun u =>
        u.sem t g = { s.sem t g with err := true } ∧ (∀ x h, ¬(x = t ∧ h = g) → u.sem x h = s.sem x h) ∧ RegsKept s u
          ∧ u.net = Without s m ∧ u.mem = s.mem)
    ∧ ∀ v, m.body = .frontier v → m.src < 10 →
      Completes (.frontierUpdate id) s fun u =>
        (u.frontier m.home).at m.src = v ∧ u.net = Without s m ∧ BytesKept s u ∧ RegsKept s u)
  ∧ (∀ s src home, Completes (.frontierMessage src home) s fun u =>
      ∃ m, u.net = s.net ++ [m] ∧ m.home = homeOfCode home ∧ m.src = src ∧ m.body = .frontier ((s.dieClock src).at src)
        ∧ u = { s with net := u.net, nextId := s.nextId + 1 })
  ∧ (∀ s home src, Completes (.frontierRequest home src) s fun u =>
      u = { s with agenda := s.agenda ++ [.row (.frontierMessage src home) Focus.reset] })
  ∧ (∀ s id m, s.msg? id = some m → m.home = .pod → m.after = [] →
      ((∀ sec items, m.body ≠ .sector sec items) → Completes (.podAcknowledgement id) s fun u => u = { s with net := Without s m })
      ∧ ∀ sec items, m.body = .sector sec items → s.podPath = true → Completes (.podAcknowledgement id) s fun u =>
        u.net = Without s m ∧ (∀ v y, y ∈ (u.tile v).sectors → y.id = sec → ¬ m.id ∈ y.out) ∧ BytesKept s u ∧ RegsKept s u)
  ∧ ∀ s, s.holding.contains s.focus.tile = true →
      Completes .heldTrafficRelease s fun u =>
        u = { s with holding := s.holding.filter fun x => decide (x ≠ s.focus.tile), agenda := u.agenda }

/-! ### Barriers and the distributor (R93, R290 to R296) -/

/-- An arrival opens its group's episode or joins it, and completes it when the count is full: every arrival is sent the
completion; a retired task counts likewise; a completion reaches its member; a deal step gives the next parcel to the
hungry tile whose queue is emptiest for its depth, ties to the lower number, and waits for a number that moves; a reclaim
moves the last parcel of the fullest queue for its weight; a new weight reaches every launch concerned. -/
def Obligations.BarriersAndDistributor : Prop :=
  (∀ s id m a, s.dueMsg id = some m → m.body = .arrival a →
      let b : Arrival := if a.scope = 5 then { a with tick := s.now } else a
      let e : Episode := match s.openEpisode? a with
        | some e => { e with arrivals := e.arrivals ++ [b], clock := e.clock.merge m.clock }
        | none => {
            launch := a.launch
            scope := a.scope
            group := a.group
            number := s.episodesDone a + 1
            arrivals := [b]
            clock := m.clock }
      Completes (.barrierArrival id) s fun u =>
        (e.arrivals.length + (s.retiredIn e a).length < s.needed e →
            u.openEpisode? a = some e ∧ u.reports = s.reports ∧ u.net = Without s m)
          ∧ (s.needed e ≤ e.arrivals.length + (s.retiredIn e a).length →
            u.openEpisode? a = none ∧ u.episodesDone a = e.number
              ∧ ∃ bits l, u.net = Without s m ++ l
                ∧ l.map Msg.body = e.arrivals.map fun x => .completion x.launch x.scope x.tile x.task bits)
          ∧ BytesKept s u ∧ RegsKept s u)
  ∧ (∀ s id m a, s.dueMsg id = some m → m.body = .retired a →
      let v : State := { s with retiredTasks := s.retiredTasks ++ [(a, m.clock)] }
      Completes (.retirementMessage id) s fun u =>
        u.retiredTasks = s.retiredTasks ++ [(a, m.clock)] ∧ BytesKept s u ∧ RegsKept s u
          ∧ (s.openEpisode? a = none → u.episodes = s.episodes ∧ u.reports = s.reports ∧ u.net = Without s m)
          ∧ ∀ e, s.openEpisode? a = some e →
            (v.needed e ≤ e.arrivals.length + (v.retiredIn e a).length → u.openEpisode? a = none ∧ u.episodesDone a = e.number)
            ∧ (e.arrivals.length + (v.retiredIn e a).length < v.needed e → u.episodes = s.episodes ∧ u.net = Without s m))
  ∧ (∀ s id m l sc t task bits, s.dueMsg id = some m → m.body = .completion l sc t task bits →
      Completes (.barrierCompletion id) s fun u =>
        (∀ c x, s.ctx? t c = some x →
          u.ctx? t c = some (if x.launch = l ∧ x.task = task then
            { x with completed := tabPut x.completed sc (x.arrivedAt sc), closure := tabPut x.closure sc bits } else x))
          ∧ u.dieClock (s.dieOf t) = (s.dieClock (s.dieOf t)).merge m.clock ∧ u.net = Without s m ∧ BytesKept s u ∧ RegsKept s u)
  ∧ (∀ s l p, s.dealLaunch = some l → s.parcelsOf l = some p → p.next < p.total → p.hungry ≠ [] →
      (∀ x, x ∈ p.hungry → 0 < p.depth x) →
      Completes .dealStep s fun u =>
        ∃ t p', t ∈ p.hungry ∧ u.parcelsOf l = some p' ∧ p'.next = p.next + 1 ∧ p'.queue t = p.queue t ++ [p.next]
          ∧ (∀ x, x ≠ t → p'.queue x = p.queue x)
          ∧ (∀ x, x ∈ p.hungry → (p.queue t).length * p.depth x ≤ (p.queue x).length * p.depth t)
          ∧ (∀ x, x ∈ p.hungry → (p.queue t).length * p.depth x = (p.queue x).length * p.depth t → t ≤ x)
          ∧ u = { s with parcels := u.parcels, rotation := l + 1 })
  ∧ (∀ s l k p, s.reclaimsDue.find? (fun e => decide (e.2 = s.focus.tile)) = some (l, k) → s.parcelsOf l = some p →
      (∃ x, x ≠ s.focus.tile ∧ p.queue x ≠ []) → (∀ x, p.queue x ≠ [] → 0 < tabGet 0 p.weight x) →
      Completes .reclaim s fun u =>
        ∃ v q n p', v ≠ s.focus.tile ∧ p.queue v = q ++ [n] ∧ u.parcelsOf l = some p' ∧ p'.queue v = q
          ∧ p'.queue s.focus.tile = p.queue s.focus.tile ++ [n] ∧ (∀ x, x ≠ v → x ≠ s.focus.tile → p'.queue x = p.queue x)
          ∧ (∀ x, x ≠ s.focus.tile → p.queue x ≠ [] →
            (p.queue x).length * tabGet 0 p.weight v ≤ (p.queue v).length * tabGet 0 p.weight x
              ∧ ((p.queue x).length * tabGet 0 p.weight v = (p.queue v).length * tabGet 0 p.weight x → v ≤ x))
          ∧ u = { s with parcels := u.parcels })
  ∧ ∀ s, Completes .distributorWeightUpdate s fun u =>
      (∀ l p, s.parcelsOf l = some p → (tabGet? p.weight s.focus.tile).isSome = true →
        ∃ p', u.parcelsOf l = some p' ∧ p'.q = p.q ∧ p'.next = p.next
          ∧ (∀ x, tabGet 0 p'.weight x = if x ≠ s.focus.tile then tabGet 0 p.weight x
              else if s.enabled x = true ∧ (s.tile x).moveWait = none then s.weight x else 0)
          ∧ ∀ x, (tabGet? p'.weight x).isSome = true →
            (2 * (p'.queue x).length < p'.depth x → x ∈ p'.hungry) ∧ (p'.depth x ≤ (p'.queue x).length → ¬ x ∈ p'.hungry))
        ∧ u = { s with parcels := u.parcels }

/-! ### The launch unit (R48 to R58, R157, R158, R329 to R331) -/

/-- A doorbell enters STAGE or counts a drop; the head is validated or rejected; an attempt starts a head that fits, on its tiles,
with the start state of every task; a head that has waited becomes blocking; a task that has drained sends its write-backs
and is counted, and the last one completes its launch; TLARM and QOWN take their values as their rules say. The codes 4 to 6 of
a head's validation (assumption 46), a doorbell before the package runs (assumption 62), the context number a task gets
(assumption 72) and the tile that fetches (assumption 82) are the model's readings. -/
def Obligations.LaunchUnitRows : Prop :=
  (∀ s f q, (s.boot ≠ .running → Completes (.doorbell f q) s fun u => u = s)
      ∧ (s.boot = .running → 64 ≤ (s.queue q).recs.length → Completes (.doorbell f q) s fun u =>
        (u.queue q).drops = (s.queue q).drops + 1 ∧ (u.queue q).recs = (s.queue q).recs ∧ (u.queue q).entered = (s.queue q).entered
          ∧ u = { s with queues := u.queues })
      ∧ (s.boot = .running → (s.queue q).recs.length < 64 → Completes (.doorbell f q) s fun u =>
        (u.queue q).entered = (s.queue q).entered + 1 ∧ (u.queue q).drops = (s.queue q).drops
          ∧ (∃ x, (u.queue q).recs = (s.queue q).recs ++ [x] ∧ x.record = (s.queue q).stage ∧ x.m = (s.queue q).entered.toNat
            ∧ x.clock = s.dieClock 8 ∧ x.status = none ∧ x.valid = false ∧ x.blocking = false
            ∧ x.headt = if (s.queue q).recs = [] then some s.now else none)
          ∧ u = { s with queues := u.queues }))
  ∧ (∀ s q x l, (s.queue q).recs = x :: l → x.valid = false → s.submitted x = true →
      (s.qrecCode q x = 0 → Completes (.launchHeadValidation q) s fun u => (u.queue q).recs = { x with valid := true } :: l
        ∧ u = { s with queues := u.queues, agenda := u.agenda })
      ∧ (s.qrecCode q x ≠ 0 → Completes (.launchHeadValidation q) s fun u => (u.queue q).recs.map QRec.m = l.map QRec.m
        ∧ (fieldNat (tabGet 0 (s.queue q).status (x.m % 64)) 63 32 = x.m % 2 ^ 32 →
          tabGet 0 (u.queue q).status (x.m % 64) = statusEntry 0xFFFFFFFF 0 x.m 3 (s.qrecCode q x)) ∧ u.mem = s.mem))
  ∧ (∀ s, s.heads = [] → Completes .allocationAttempt s fun u => u = s)
  ∧ (∀ s q x, s.heads = [(q, x)] → s.qrecCode q x = 0 →
      (s.placement x.record = none → Completes .allocationAttempt s fun u => u = s)
      ∧ (∀ tiles v f, s.placement x.record = some tiles → s.fetchLaunch x.record tiles = (v, some f) →
        Completes .allocationAttempt s fun u =>
          (∃ l, u.launches = s.launches ++ [l] ∧ l.id = s.nextLaunch ∧ l.record = x.record ∧ l.queue = q ∧ l.tiles = tiles
            ∧ l.left = tiles.length * recNctx x.record ∧ l.started = s.now) ∧ u.nextLaunch = s.nextLaunch + 1)
      ∧ ∀ tiles, s.placement x.record = some tiles → recInitVa x.record = 0 →
        (∀ t, t ∈ tiles → ∃ i, (s.tile t).image = some i ∧ i.hash = recHash x.record) →
        Completes .allocationAttempt s fun u =>
          (∃ l, u.launches = s.launches ++ [l] ∧ l.id = s.nextLaunch ∧ l.record = x.record ∧ l.queue = q ∧ l.tiles = tiles
            ∧ l.left = tiles.length * recNctx x.record ∧ l.started = s.now)
          ∧ ∀ j k t c, tiles[j]? = some t → k < recNctx x.record → (s.freeCtxs t)[k]? = some c →
            u.ctx? t c = some (s.startCtx s.nextLaunch x.record t c k (j * recNctx x.record + k)
              (tiles.length * recNctx x.record)))
  ∧ (∀ s q x l y r, s.heads.any (fun e => e.2.blocking) = false → s.oldHeads = (q, x) :: l → (s.queue q).recs = y :: r →
      Completes .blockingHead s fun u =>
        (u.queue q).recs = { x with blocking := true } :: r ∧ u = { s with queues := u.queues })
  ∧ (∀ s t c, At s t c → s.drained t c = true → (s.ctx t c).wroteBack = true →
      Completes .taskRetirement s fun u => u.ctx? t c = none
        ∧ ∀ l, s.launch? (s.ctx t c).launch = some l →
          (l.left ≤ 1 → u.launch? (s.ctx t c).launch = none)
          ∧ (1 < l.left → ∃ k, u.launch? (s.ctx t c).launch = some k ∧ k.left = l.left - 1
            ∧ k.nzx = if (s.ctx t c).exit.getD 0 = 0 then l.nzx else l.nzx + 1))
  ∧ (∀ s t c, At s t c → s.drained t c = true → (s.ctx t c).wroteBack = false →
      Completes .taskRetirement s fun u =>
        (u.ctx? t c = none ∨ (u.ctx t c).wroteBack = true ∧ u.launches = s.launches)
          ∧ (∀ x, x ∈ (u.tile t).cache → x.launch ≠ (s.ctx t c).launch)
          ∧ ((∀ x, x ∈ (s.tile t).cache → x.launch ≠ (s.ctx t c).launch) → recHotVa (s.recOf t c) = 0 →
            s.backsOf t (s.ctx t c).launch = [] → u.ctx? t c = none))
  ∧ (∀ s t c, At s t c → s.endDone t c = true → Completes .taskRetirement s fun u => u.ctx? t c = none)
  ∧ (∀ s f q v, f ≤ 16 → Completes (.tlarmWrite f q v) s fun u =>
      (v ≠ 0 ∧ v ≤ (s.queue q).timeline → (u.queue q).tlarm = 0
          ∧ ((s.page (s.queue q).qown.toNat).sends 1 = true →
            tabGet 0 (u.page (s.queue q).qown.toNat).sent 1 = tabGet 0 (s.page (s.queue q).qown.toNat).sent 1 + 1))
        ∧ (¬(v ≠ 0 ∧ v ≤ (s.queue q).timeline) → (u.queue q).tlarm = v ∧ u.pages = s.pages)
        ∧ u = { s with queues := u.queues, pages := u.pages })
  ∧ ∀ s q v, Completes (.qownWrite 0 q v) s fun u =>
      (u.queue q).qown = (if (s.queue q).recs = [] ∧ ∀ l, l ∈ s.launches → l.queue ≠ q then v else (s.queue q).qown)
        ∧ u = { s with queues := u.queues }

/-! ### The host's port (R101 to R108, R122, R153 to R156, R161, R167 to R169) -/

/-- Posted writes are accepted with a route for each home and released unless an earlier write holds them, held by their
component's lead, discarded while their function is stalled, or stall it when bad; a route applies a unit after the other, a
register's route its rows, an acknowledgement ends it and releases the next write; reads answer data, or the completion
their rule names; a reset ends what its function has; vectors, flags, link and pod ports act as their rules say. The layout of
the configuration space and of its registers (assumption 86, the family's), what a reset reaches (assumption 57), the rows of
the pod's barriers (assumption 91), writes under way as a stall begins (assumption 94) and the moment of a read (assumption 102)
are the model's readings. -/
def Obligations.HostPortRows : Prop :=
  (∀ s t, t.bar ≠ .config →
    (s.holdsWrites = true → Completes (.inboundPostedWrite t) s fun u => u = { s with pending := s.pending ++ [.write t] })
    ∧ (s.holdsWrites = false →
      (∀ bit, (t.bad = true ∧ bit = 12) ∨ (t.bad = false ∧ 4096 < t.data.length ∧ bit = 18) →
        Completes (.inboundPostedWrite t) s fun u =>
          (u.page t.f).stalled = true ∧ (u.page t.f).aerStatus.getLsbD bit = true
            ∧ (u.page t.f).aer = (s.page t.f).aer + (if ((s.page t.f).configReg 0x108).getLsbD bit then 0 else 1)
            ∧ u.stallEnding t.f = false
            ∧ u = { s with pages := u.pages })
      ∧ (t.bad = false → t.data.length ≤ 4096 →
        ((s.page t.f).stalled = true → tlpClearsStall t = false → s.stallEnding t.f = false →
          Completes (.inboundPostedWrite t) s fun u =>
            (u.page t.f).discard = (if (s.page t.f).discard = 0xFFFFFFFF then 0xFFFFFFFF else (s.page t.f).discard + 1)
              ∧ u = { s with pages := u.pages })
        ∧ ((s.page t.f).stalled = false ∨ tlpClearsStall t = true ∨ s.stallEnding t.f = true →
          (t.data = [] → Completes (.inboundPostedWrite t) s fun u => u = s)
          ∧ (t.data ≠ [] → t.bar = .bar0 → s.regOk t.f t.addr t.data.length = true → t.data.all Option.isSome = true →
            Completes (.inboundPostedWrite t) s fun u =>
              u.writes = s.writes ++ [(s.nextId, t.f)]
                ∧ (∃ r, u.routes = s.routes ++ [r] ∧ r.write = s.nextId ∧ r.f = t.f ∧ r.home = none ∧ r.addr = t.addr
                  ∧ r.data = t.data ∧ r.applied = false)
                ∧ u.dies = (s.tickDie 8).dies
                ∧ { u with writes := s.writes, routes := s.routes, dies := s.dies, nextId := s.nextId, net := s.net } = s)
          ∧ (t.data ≠ [] → t.bar = .bar2 → s.bar2Ok t.f t.addr t.data.length = true →
            Completes (.inboundPostedWrite t) s fun u =>
              u.writes = s.writes ++ [(s.nextId, t.f)]
                ∧ (∃ l, u.routes = s.routes ++ l
                  ∧ l.map (fun r => (r.home, r.addr, r.data)) = (s.cutHomes t.addr t.data).map (fun e => (some e.1, e.2))
                  ∧ (∀ r, r ∈ l → r.write = s.nextId ∧ r.f = t.f ∧ r.applied = false ∧ r.next = 0)
                  ∧ ((∀ e, e ∈ s.writes → e.2 ≠ t.f) → (∀ r, r ∈ s.routes → r.write ≠ s.nextId) →
                    u.net.map Msg.id = s.net.map Msg.id ++ l.map Route.id))
                ∧ ((∃ e, e ∈ s.writes ∧ e.2 = t.f) → (∀ e, e ∈ s.writes → e.1 ≠ s.nextId) → u.net = s.net)
                ∧ u.dies = (s.tickDie 8).dies
                ∧ { u with writes := s.writes, routes := s.routes, dies := s.dies, nextId := s.nextId, net := s.net } = s)
          ∧ (t.data ≠ [] → (t.bar = .bar0 ∧ (s.regOk t.f t.addr t.data.length = false ∨ t.data.all Option.isSome = false))
              ∨ (t.bar = .bar2 ∧ s.bar2Ok t.f t.addr t.data.length = false) →
            Completes (.inboundPostedWrite t) s fun u =>
              u = { s with pages := u.pages } ∧ (u.page t.f).aerStatus.getLsbD 20 = true
                ∧ (u.page t.f).aer = (s.page t.f).aer + (if ((s.page t.f).configReg 0x108).getLsbD 20 then 0 else 1))))))
  ∧ (∀ s t v n, t.bar = .config → t.bad = false → wordOf 32 ((t.data.take 4).map fun b => b.getD 0) = v →
      (t.addr = 0xC00 + 4 * n → n < vectorsOf t.f → v.getLsbD 0 = true →
        Completes (.inboundPostedWrite t) s fun u => u = s.modPage t.f fun p => { p with masked := insNat n p.masked })
      ∧ (t.addr = 0xC00 + 4 * n → n < vectorsOf t.f → v.getLsbD 0 = false →
        Completes (.inboundPostedWrite t) s fun u => u = s.push [.row (.msiXUnmask t.f n) Focus.reset])
      ∧ (t.addr = 0x104 → Completes (.inboundPostedWrite t) s fun u =>
        u = s.modPage t.f fun p => { p with aerStatus := p.aerStatus &&& ~~~v })
      ∧ (t.addr = 0x48 → v.getLsbD 15 = true → Completes (.inboundPostedWrite t) s fun u =>
        u.micro = .row (.functionLevelReset t.f) Focus.reset :: s.micro
          ∧ (fieldNat v 7 5 ≤ 5 → fieldNat v 14 12 ≤ 5 → (u.page t.f).devctl = v.setWidth 16 &&& 0x70E0)
          ∧ (5 < fieldNat v 7 5 → fieldNat (u.page t.f).devctl 7 5 = fieldNat (s.page t.f).devctl 7 5)
          ∧ (5 < fieldNat v 14 12 → fieldNat (u.page t.f).devctl 14 12 = fieldNat (s.page t.f).devctl 14 12)))
  ∧ (∀ s id r, s.routes.find? (fun r => decide (r.id = id)) = some r → s.routeDue r = true → r.home = none →
      Completes (.routeApply id) s fun u =>
        u.micro = r.rows ++ s.micro ∧ u.agenda = s.agenda ++ [.row (.routeAck id) Focus.reset]
          ∧ (∀ x, x ∈ u.routes → x.id = id → x.applied = true) ∧ u = { s with micro := u.micro, agenda := u.agenda, routes := u.routes })
  ∧ (∀ s id r m t a, s.routes.find? (fun r => decide (r.id = id)) = some r → r.applied = false → s.dueMsg id = some m →
      r.home = some (.tile t) → r.addr = sliceAddr t a →
      (a + r.next + r.unit ≤ semBase → Completes (.routeApply id) s fun u =>
        (∀ x b, u.localByte x b = if x = t ∧ a + r.next ≤ b ∧ b < a + r.next + r.unit
            then (r.data.getD (b - a) none).getD (s.localByte x b) else s.localByte x b)
          ∧ (r.next + r.unit < r.data.length → u.net = s.net
            ∧ u.routes = s.routes.map fun x => if x.id = id then { x with next := x.next + r.unit } else x)
          ∧ (r.data.length ≤ r.next + r.unit → u.net = Without s m ∧ (∀ x, x ∈ u.routes → x.id = id → x.applied = true)
            ∧ .row (.routeAck id) Focus.reset ∈ u.agenda))
      ∧ ∀ g v, a = semBase + 64 * g + 16 → r.next = 0 → r.data = (bytesOf (v : W32) 4).map some → v ≠ 0 →
        Completes (.routeApply id) s fun u =>
          u.sem t g = { (s.sem t g).credit v.toNat with clock := (s.sem t g).clock.merge r.clock }
            ∧ (∀ x h, ¬(x = t ∧ h = g) → u.sem x h = s.sem x h) ∧ u.net = Without s m ∧ RegsKept s u)
  ∧ (∀ s id r, s.routes.find? (fun r => decide (r.id = id)) = some r → r.applied = true →
      Completes (.routeAck id) s fun u =>
        u.routes = s.routes.filter (fun x => decide (x.id ≠ id))
          ∧ ((∃ x, x ∈ u.routes ∧ x.write = r.write) → u.writes = s.writes ∧ u.net = s.net)
          ∧ ((∀ x, x ∈ u.routes → x.write ≠ r.write) → u.writes = s.writes.filter (fun e => decide (e.1 ≠ r.write))
            ∧ ∀ e, u.writes.find? (fun e => decide (e.2 = r.f)) = some e → ∃ l, u.net = s.net ++ l
              ∧ l.map Msg.id = (u.routes.filter fun x => decide (x.write = e.1) && x.home.isSome).map Route.id)
          ∧ u = { s with routes := u.routes, writes := u.writes, net := u.net })
  ∧ (∀ s (r : HostRead),
      let gives (c : Completion) (u : State) : Prop := u.completions = s.completions ++ [(r.f, r.tag, c)] ∧ BytesKept s u ∧ RegsKept s u
      (r.bar = .config → Completes (.hostRead r) s (gives (.data (bytesOf (s.configWord r.f r.addr) 4))))
      ∧ (r.bar ≠ .config → s.readHeld r = true ∨ ((s.page r.f).stalled = false ∧ 0 < r.len ∧ r.len ≤ 4096 ∧ s.readReady r = false) →
        s.pending.any (HostReq.isRead r) = false → Completes (.hostRead r) s fun u =>
          u = { s with pending := s.pending ++ [.read r ((s.writes.filter fun e => decide (e.2 = r.f)).map Prod.fst) (s.dieClock 8)] })
      ∧ (r.bar ≠ .config → s.readHeld r = false → (s.page r.f).stalled = true → Completes (.hostRead r) s (gives .abort))
      ∧ (r.bar ≠ .config → s.readHeld r = false → (s.page r.f).stalled = false → r.len = 0 ∨ 4096 < r.len →
        Completes (.hostRead r) s (gives .unsupported))
      ∧ (r.bar ≠ .config → s.readHeld r = false → (s.page r.f).stalled = false → 0 < r.len → r.len ≤ 4096 → s.readReady r = true →
          (r.bar = .bar0 → s.regOk r.f r.addr r.len = true → Completes (.hostRead r) s
            (gives (.data ((List.range (r.len / 8)).flatMap fun i => bytesOf (s.regWord (r.addr + 8 * i)) 8))))
          ∧ (r.bar = .bar2 → s.bar2Ok r.f r.addr r.len = true → (∀ i, i < r.len → s.eccBad (s.canon (r.addr + i)) = false) →
            Completes (.hostRead r) s (gives (.data ((List.range r.len).map fun i => s.packageByte (r.addr + i)))))
          ∧ (r.bar = .bar2 → s.bar2Ok r.f r.addr r.len = true → (∃ i, i < r.len ∧ s.eccBad (s.canon (r.addr + i)) = true) →
            Completes (.hostRead r) s (gives .abort))
          ∧ ((r.bar = .bar0 ∧ s.regOk r.f r.addr r.len = false) ∨ (r.bar = .bar2 ∧ s.bar2Ok r.f r.addr r.len = false) →
            Completes (.hostRead r) s (gives .unsupported))))
  ∧ (∀ s f, Completes (.functionLevelReset f) s fun u =>
      (u.page f).stalled = false
        ∧ (∀ t c x, s.ctx? t c = some x → s.owns f t c = true → x.st = .resident ∨ x.st = .saving →
          (u.ctx t c).st = .faulted ∧ (u.ctx t c).lastCode = 0x31)
        ∧ (∀ q x, q < 8 → x ∈ (u.queue q).recs → ¬(s.asidValid (recAsid x.record) = true ∧ s.asidFn (recAsid x.record) = f))
        ∧ (∀ n k, tabGet? s.keys n = some k → k.loaded = true → s.asidValid k.asid = true → s.asidFn k.asid = f →
          u.keySlot n = { k with key := 0, loaded := false })
        ∧ RegsHeld s u)
  ∧ (∀ s a, a.barrier = none → s.podAdmitted a (match a.wr with | some l => l.length | none => a.len) = false →
      Completes (.incomingPodAccess a) s fun u => u = { s with completions := s.completions ++ [(32 + a.io, a.src, .unsupported)] })
  ∧ (∀ s (a : PodAccess) l, a.barrier = none → a.wr = some l → l ≠ [] → s.podAdmitted a l.length = true →
      Completes (.incomingPodAccess a) s fun u =>
        ∃ n : List Msg, u.net = s.net ++ n ∧ u.pending = s.pending ++ [.podWrite a (n.map Msg.id)]
          ∧ n.map (fun m => (m.home, m.body)) = (s.cutHomes a.addr (l.map some)).map (fun e => (e.1, Body.write e.2.1 e.2.2 0 none))
          ∧ (∀ m, m ∈ n → m.src = a.io) ∧ u.completions = s.completions ∧ BytesKept s u ∧ RegsKept s u)
  ∧ (∀ s (a : PodAccess), a.barrier = none → a.wr = none → s.podAdmitted a a.len = true →
      (s.podReadReady a (s.dieClock a.io) = false → Completes (.incomingPodAccess a) s fun u =>
        u = { s with pending := s.pending ++ [.pod a (s.dieClock a.io)] })
      ∧ (s.podReadReady a (s.dieClock a.io) = true → (∀ i, i < a.len → s.eccBad (s.canon (a.addr + i)) = false) →
        Completes (.incomingPodAccess a) s fun u =>
          u.completions = s.completions ++ [(32 + a.io, a.src, .data ((List.range a.len).map fun i => s.packageByte (a.addr + i)))]
            ∧ BytesKept s u ∧ RegsKept s u))
  ∧ (∀ s (a : PodAccess), s.podValid = true → a.srcValid = true →
      (∀ group launch tile ctx task count, a.barrier = some (.arrival group launch tile ctx task count) → s.isPodNode = true →
        Completes (.incomingPodAccess a) s fun u => ∃ m b, u.net = s.net ++ [m] ∧ m.home = .node 8 ∧ m.body = .arrival b
          ∧ b.scope = 5 ∧ b.group = group ∧ b.launch = launch ∧ b.pkg = a.src ∧ b.tile = tile ∧ b.task = task ∧ b.count = count)
      ∧ ∀ launch tile task report, a.barrier = some (.completion launch tile task report) → tile < s.n0 →
        Completes (.incomingPodAccess a) s fun u =>
          ∃ m, u.net = s.net ++ [m] ∧ m.home = .tile tile ∧ m.body = .completion launch 5 tile task report)
  ∧ (∀ s f v, (v < vectorsOf f → Completes (.msiXUnmask f v) s fun u =>
        ((s.page f).vectorsOn = true →
          (v ∈ (s.page f).pending → tabGet 0 (u.page f).sent v = tabGet 0 (s.page f).sent v + 1) ∧ ¬ v ∈ (u.page f).pending)
          ∧ ((s.page f).vectorsOn = false → v ∈ (s.page f).pending →
            (u.page f).sent = (s.page f).sent ∧ v ∈ (u.page f).pending)
          ∧ (¬ v ∈ (s.page f).pending → (u.page f).sent = (s.page f).sent) ∧ ¬ v ∈ (u.page f).masked
          ∧ u = { s with pages := u.pages })
      ∧ (vectorsOf f ≤ v → Completes (.msiXUnmask f v) s fun u => u = s))
  ∧ (∀ s f g, f = 0 ∨ f = g →
      Completes (.stalledClear f g) s (fun u =>
          ((s.page g).stale = 0 → u = s.modPage g fun p => { p with stalled := false })
          ∧ ((s.page g).stale ≠ 0 → u = s.modPage g fun p => { p with stale := p.stale - 1 }))
        ∧ Completes (.regerrClear f g) s fun u => u = s.modPage g fun p => { p with regerr := false })
  ∧ (∀ s io lane, Completes (.podLinkFailure io lane) s fun u =>
      u.podDown = (if (io, lane) ∈ s.podDown then s.podDown else s.podDown ++ [(io, lane)]) ∧ u = { s with podDown := u.podDown, tiles := u.tiles }
        ∧ ∀ t x, x ∈ (u.tile t).sectors → (∃ y, y ∈ (s.tile t).sectors ∧ x = { y with noPath := x.noPath })
          ∧ ((io, lane) ∉ s.podDown → (x.noPath = none ↔ x.podLeft = [] ∨ u.podPath = true)))
  ∧ ∀ s lanes gts, lanes ∈ [1, 2, 4, 8, 16] → gts ∈ [2, 5, 8, 16, 32, 64, 128] →
      Completes (.pcieLinkTraining lanes gts) s fun u => u = { s with linkLanes := lanes, linkRate := gts }

/-! ### Registers, address spaces, keys, fault replies (R137, R141, R155 to R167, R346 to R351) -/

/-- Register writes change their register, for the functions that may write it; ASID entries are refused while in use; an
invalidation drops its TLB entries and no other and completes in its order; key commands answer in KRES and change their
slot on success alone; a reply restarts, or ends, what it names, marks it in the maps of a saved context, and is counted
as dropped where it finds no fault; the last step of a departed set frees it. DARG and DDATA as they stand at the write of DCMD
(assumption 59), the maps of a saved context's replies (assumption 60) and a virtual function's ignored writes (assumption 56)
are the model's readings. -/
def Obligations.RegistersSpacesKeys : Prop :=
  (∀ s f q o v, q < 8 → o < 0x100 → Completes (.registerWrite f (0x10000 + 0x1000 * q + o) v) s fun u =>
      (u.queue q).stage = setWord (s.queue q).stage o v ∧ u = { s with queues := u.queues })
  ∧ (∀ s f g v, g ≤ 16 → Completes (.registerWrite f (0x30000 + 0x100 * g + 0x90) v) s (fun u =>
        u = s.modPage g fun p => { p with cmds := p.cmds ++ [.debug v p.darg p.ddata] })
      ∧ Completes (.registerWrite f (0x30000 + 0x100 * g + 0x98) v) s (fun u => u = s.modPage g fun p => { p with darg := v })
      ∧ Completes (.registerWrite f (0x30000 + 0x100 * g + 0xA0) v) s (fun u => u = s.modPage g fun p => { p with ddata := v })
      ∧ Completes (.registerWrite f (0x30000 + 0x100 * g + 0xC0) v) s (fun u =>
        u = if v.toNat / 2 ^ 62 = 0 then s else s.modPage g fun p => { p with cmds := p.cmds ++ [.ctl v] })
      ∧ Completes (.registerWrite f (0x30000 + 0x100 * g + 0xE0) v) s (fun u =>
        u = if f = g then s.modPage g (fun p => { p with trcfg := v &&& 0x0000FFFFFFFFFF0F }) else s)
      ∧ Completes (.registerWrite f (0x30000 + 0x100 * g + 0xF0) v) s (fun u =>
        u = if f = g then s.modPage g (fun p => { p with rp := v }) else s)
      ∧ Completes (.registerWrite f (0x30000 + 0x100 * g + 0xF8) v) s (fun u =>
        u = if f = g then s.modPage g (fun p => { p with speriod := v.setWidth 32 }) else s)
      ∧ ∀ n, n < 8 →
        Completes (.registerWrite 0 (0x30000 + 0x100 * g + 0x10 + 16 * n) v) s (fun u =>
          u = s.modPage g fun p => { p with rbase := tabPut p.rbase n (v &&& ~~~0xFFE#64) })
        ∧ Completes (.registerWrite 0 (0x30000 + 0x100 * g + 0x18 + 16 * n) v) s (fun u =>
          u = s.modPage g fun p => { p with rlim := tabPut p.rlim n (v &&& ~~~0xFFF#64) })
        ∧ (f ≠ 0 → Completes (.registerWrite f (0x30000 + 0x100 * g + 0x10 + 16 * n) v) s (fun u => u = s)
          ∧ Completes (.registerWrite f (0x30000 + 0x100 * g + 0x18 + 16 * n) v) s fun u => u = s))
  ∧ (∀ s v, (∀ o, o < 0x100 → Completes (.registerWrite 0 (0x40000 + o) v) s fun u => u = { s with kstage := setWord s.kstage o v })
      ∧ Completes (.registerWrite 0 0x50000 v) s (fun u => u = { s with podid := v.extractLsb' 0 9 })
      ∧ ∀ f, Completes (.registerWrite f 0x20010 v) s fun u =>
        u = if v.toNat / 2 ^ 45 % 2 ^ 19 = 0 then s else { s with frdrop := s.frdrop + 1 })
  ∧ (∀ s f a v, Completes (.cquery f a v) s fun u =>
      u = s.modPage f fun p => { p with cquery := BitVec.ofNat 12 (v * 512 + a % 512) })
  ∧ (∀ s a v, (s.asidBusy a = true → ∀ high, Completes (.asidEntryWrite 0 a high v) s fun u =>
        u.asids = s.asids ∧ u.asidHigh = s.asidHigh ∧ (u.page 0).regerr = true ∧ u = { s with pages := u.pages })
      ∧ (s.asidBusy a = false → Completes (.asidEntryWrite 0 a true v) s fun u =>
        u = { s with asidHigh := tabPut s.asidHigh a (v &&& 0xFFFFFFFFFFFF0000) })
      ∧ (s.asidBusy a = false → Completes (.asidEntryWrite 0 a false v) s fun u =>
        (10 ≤ fieldNat v 57 53 ∧ fieldNat v 57 53 ≤ 24 →
          u = { s with asids := tabPut s.asids a ((tabGet 0 s.asidHigh a : W64) ++ (v &&& 0xFFE0FFFFFFFFF000)) })
        ∧ (¬(10 ≤ fieldNat v 57 53 ∧ fieldNat v 57 53 ≤ 24) →
          u = { s with asids := tabPut s.asids a ((tabGet 0 s.asidHigh a : W64) ++ (v &&& 0x7FE0FFFFFFFFF000)) })))
  ∧ (∀ s f asid va,
      let started := s.tiles.flatMap fun e => e.2.sectors.map fun x => x.id
      (s.mayInvalidate f asid = true →
        Completes (.invalidatePage f asid va) s (fun u =>
          (∀ t, (u.tile t).tlb = (s.tile t).tlb.filter (fun e => !e.hits asid (va.toNat * 65536))) ∧ BytesKept s u ∧ RegsKept s u
            ∧ u.invals = s.invals ++ [{ waiting := started }])
        ∧ Completes (.invalidateAsid f asid) s fun u =>
          (∀ t, (u.tile t).tlb = (s.tile t).tlb.filter (fun e => decide (e.asid ≠ asid))) ∧ BytesKept s u ∧ RegsKept s u
            ∧ u.invals = s.invals ++ [{ waiting := started }])
      ∧ (s.mayInvalidate f asid = false →
        Completes (.invalidatePage f asid va) s (fun u => u = { s with invals := s.invals ++ [{ waiting := [] }] })
        ∧ Completes (.invalidateAsid f asid) s fun u => u = { s with invals := s.invals ++ [{ waiting := [] }] })
      ∧ Completes (.invalidateAll 0) s (fun u => (∀ t, (u.tile t).tlb = []) ∧ BytesKept s u ∧ RegsKept s u
        ∧ u.invals = s.invals ++ [{ waiting := started }])
      ∧ (f ≠ 0 → Completes (.invalidateAll f) s fun u => u = { s with invals := s.invals ++ [{ waiting := [] }] })
      ∧ Completes (.invalidateNone f) s fun u => u = { s with invals := s.invals ++ [{ waiting := [] }] })
  ∧ (∀ s i l, s.invals = i :: l → (∀ t x, x ∈ (s.tile t).sectors → ¬ x.id ∈ i.waiting) → s.invalDone = true →
      Completes .invalidationDone s fun u => u = { s with invals := l, invdone := s.invdone + 1 })
  ∧ (∀ s slot,
      let b := bytesOf s.kstage 256
      let bad := byteOf s.kstage 0 ≠ 1 ∨ ∃ i, (0x14 ≤ i ∧ i < 0x18 ∨ 0x9D ≤ i ∧ i < 0xA0 ∨ 0xF0 ≤ i ∧ i < 0x100) ∧ byteOf s.kstage i ≠ 0
      let wrong := slot = 0 ∨ (byteOf s.kstage 1).toNat ≠ slot
      let gen : W32 := wordOf 32 ((b.drop 4).take 4)
      let answers (res : Byte) (u : State) : Prop :=
        u.kres = res ∧ u.kdone = s.kdone + 1 ∧ u = { s with pages := u.pages, keys := u.keys, kres := u.kres, kdone := u.kdone }
      (bad → Completes (.keyLoad slot) s fun u => u.keys = s.keys ∧ answers 1 u)
      ∧ (¬bad → wrong → Completes (.keyLoad slot) s fun u => u.keys = s.keys ∧ answers 4 u)
      ∧ (¬bad → ¬wrong → gen.toNat ≤ (s.keySlot slot).gen.toNat → Completes (.keyLoad slot) s fun u =>
        u.keys = s.keys ∧ answers 3 u)
      ∧ (¬bad → ¬wrong → (s.keySlot slot).gen.toNat < gen.toNat → Completes (.keyLoad slot) s fun u =>
        (∀ key, unwrapKey b = some key →
          u.keySlot slot = { key := wordOf 512 key, asid := wordOf 16 ((b.drop 2).take 2), gen := gen, loaded := true }
            ∧ (∀ n, n ≠ slot → u.keySlot n = s.keySlot n) ∧ answers 0 u)
        ∧ (unwrapKey b = none → u.keys = s.keys ∧ answers 2 u))
      ∧ (slot ≠ 0 → Completes (.keyClear slot) s fun u =>
        u.keySlot slot = { s.keySlot slot with key := 0, loaded := false } ∧ (∀ n, n ≠ slot → u.keySlot n = s.keySlot n) ∧ answers 0 u)
      ∧ Completes (.keyClear 0) s fun u => u.keys = s.keys ∧ answers 4 u)
  ∧ (∀ s f t n seq, s.replyTo f t n seq = none →
      Completes (.faultReplyRetry f t n seq) s (fun u => u = { s with frdrop := s.frdrop + 1 })
        ∧ Completes (.faultReplyAbort f t n seq) s fun u => u = { s with frdrop := s.frdrop + 1 })
  ∧ (∀ s f t n seq c, s.replyTo f t n seq = some c → (s.ctx? t c).isSome = true →
      ((s.ctx t c).st = .resident →
        (∀ p, (s.ctx t c).parkedAt seq = some (.hart p) →
          (Completes (.faultReplyAbort f t n seq) s fun u => (u.ctx t c).st = .faulted ∧ (u.ctx t c).lastCode = p.code)
          ∧ ∀ r d, (s.hart t c).outst.contains p.id = true →
            (s.settle t c seq).translate t ((s.settle t c seq).asidOf t c) p.va (bodyNeed p.msg) = (r, .ok d) →
            Completes (.faultReplyRetry f t n seq) s fun u =>
              ∃ m, u.net = r.net ++ [m] ∧ m.id = p.id ∧ m.home = (r.destHome d).1 ∧ m.own = some (t, c)
                ∧ (∀ q, q ∈ (u.ctx t c).parkedHart → q.id ≠ p.id) ∧ ¬ seq ∈ (u.ctx t c).parkedSeqs ∧ RegsKept s u)
        ∧ ∀ ch ord e, (s.ctx t c).parkedAt seq = some (.entry ch ord e) →
          (Completes (.faultReplyAbort f t n seq) s fun u => (u.ctx t c).st = .faulted ∧ (u.ctx t c).lastCode = e.code)
          ∧ Completes (.faultReplyRetry f t n seq) s fun u =>
            (∀ k, k ∈ (u.ctx t c).chan ch → k.ord = ord → k.parked = none)
              ∧ ¬ seq ∈ (u.ctx t c).parkedSeqs ∧ BytesKept s u ∧ RegsKept s u)
      ∧ ((s.ctx t c).st = .saved →
        (Completes (.faultReplyRetry f t n seq) s fun u => (u.ctx t c).st = .saved ∧ seq ∈ (u.ctx t c).retryMap ∧ RegsKept s u)
        ∧ ((s.ctx t c).departed = false ∨ (∃ p, (s.ctx t c).parkedAt seq = some (.hart p)) →
          Completes (.faultReplyAbort f t n seq) s fun u =>
          (u.ctx t c).st = .saved ∧ seq ∈ (u.ctx t c).abortMap ∧ RegsKept s u)
        ∧ ∀ ch ord e, (s.ctx t c).departed = true → (s.ctx t c).parkedAt seq = some (.entry ch ord e) →
          Completes (.faultReplyAbort f t n seq) s fun u => (u.ctx t c).st = .faulted ∧ (u.ctx t c).lastCode = e.code))
  ∧ ∀ s t c, s.setStuck t c = true → Completes (.departedSetFlush t c) s fun u =>
      (u.ctx t c).departed = false ∧ (u.ctx t c).st = .saved ∧ RegsKept s u

/-! ### Identity (R389; the messages are those of the family's SPDM 1.2, assumption 24) -/

/-- The sideband port answers in its order: version, capabilities, algorithms, then digests, certificate, challenge and
measurements; a request out of order is refused; nothing else of the package changes but the transcript and the count of the
free values. The fields of the messages are the family's (assumption 24). -/
def Obligations.SidebandRequests : Prop :=
  let rest (s u : State) : Prop :=
    u = { s with spdmVersion := u.spdmVersion, spdmAlgs := u.spdmAlgs, spdmLog := u.spdmLog, sideband := u.sideband, free := u.free }
  let logs (s u : State) (l : List Byte) : Prop := u.sideband = s.sideband ++ [l] ∧ ∃ q, u.spdmLog = s.spdmLog ++ [q, l]
  (∀ s, Completes .getVersion s fun u =>
      u.spdmVersion = 1 ∧ u.spdmAlgs = false ∧ u.sideband = s.sideband ++ [[0x10, 4, 0, 0, 0, 1, 0, 0x12]]
        ∧ u.spdmLog = [[0x10, 0x84, 0, 0], [0x10, 4, 0, 0, 0, 1, 0, 0x12]] ∧ rest s u)
  ∧ (∀ s, s.spdmVersion ≠ 0 → Completes .getCapabilities s fun u =>
      u.spdmVersion = 2 ∧ u.spdmAlgs = s.spdmAlgs ∧ rest s u ∧ ∃ a b, a.length = 4 ∧ b.length = 8
        ∧ logs s u ([0x12, 0x61, 0, 0] ++ a ++ [0x36, 0, 0, 0] ++ b))
  ∧ (∀ s asym hash, s.spdmVersion = 2 → Completes (.negotiateAlgorithms asym hash) s fun u =>
      u.spdmAlgs = (asym.getLsbD 8 && hash.getLsbD 2) ∧ u.spdmVersion = 2 ∧ rest s u
        ∧ logs s u ([0x12, 0x63, 0, 0, 36, 0, 1, 0, 8, 0, 0, 0] ++ bytesOf (asym &&& 0x100) 4 ++ bytesOf (hash &&& 4) 4
          ++ List.replicate 12 0 ++ [0, 0, 0, 0]))
  ∧ (∀ s, s.spdmAlgs = true →
      let signed (s u : State) (before : List (List Byte)) (l : List Byte) : Prop :=
        ∃ q, u.sideband = s.sideband ++ [l ++ Config.identitySign ((before ++ [q, l]).flatMap id)]
      Completes .getDigests s (fun u => logs s u ([0x12, 1, 0, 1] ++ sha512 Config.certificate) ∧ rest s u)
      ∧ (∀ off len, Completes (.getCertificate off len) s fun u =>
        let l := (Config.certificate.drop off).take len
        logs s u ([0x12, 2, 0, 0] ++ bytesOf (BitVec.ofNat 16 l.length) 2
          ++ bytesOf (BitVec.ofNat 16 (Config.certificate.length - off - l.length)) 2 ++ l) ∧ rest s u)
      ∧ (∀ nonce, Completes (.challenge nonce) s fun u =>
        signed s u s.spdmLog ([0x12, 3, 0, 1] ++ (sha512 Config.certificate ++ bytesOf (Config.spdmNonce s.free) 32 ++ [0, 0])) ∧ rest s u)
      ∧ ∀ index nonce, index ≤ 6 ∨ index = 255 → Completes (.getMeasurements index nonce) s fun u =>
        let l := if index = 0 then [] else if index = 255 then [1, 2, 3, 4, 5, 6] else [index]
        let blocks := l.flatMap fun n => measurementBlock n (s.measurement n)
        signed s u (s.spdmLog.filter spdmStart) (spdmHead 0x12 0x60 (if index = 0 then 6 else 0) 0
          ++ ([BitVec.ofNat 8 l.length] ++ bytesOf (BitVec.ofNat 24 blocks.length) 3 ++ blocks
            ++ bytesOf (Config.spdmNonce s.free) 32 ++ [0, 0])) ∧ rest s u)
  ∧ ∀ s i, ((s.spdmVersion = 0 ∧ i = .getCapabilities) ∨ (s.spdmVersion ≠ 2 ∧ ∃ asym hash, i = .negotiateAlgorithms asym hash)
        ∨ (s.spdmAlgs = false ∧ (i = .getDigests ∨ (∃ off len, i = .getCertificate off len) ∨ (∃ nonce, i = .challenge nonce)
          ∨ ∃ index nonce, i = .getMeasurements index nonce))) →
      Completes i s fun u => u = { s with sideband := s.sideband ++ [[0x12, 0x7F, 4, 0]] }

/-! ### The copy engine and the stack engines (R127 to R133, R139, R144 to R148, R168) -/

/-- A packet that passes its head check is marked, one that fails faults CFORM; sectors start in turn and move their bytes to
their homes with one message each, or park their copy, or take their data error; landed sectors count, credit and let
entries leave; a sector without a path is given up; commands of the stack engines run sector by sector, each sector's parts in
the turns of their engines; sessions open, wait, are refused, fold and close. How folds and parts take turns and which engines
an OPEN has (assumption 52), that a message takes a sector's bytes to a home in one step (assumption 55), and the moments of
translations and checks (assumptions 50 and 51) are the model's readings. -/
def Obligations.CopiesAndStacks : Prop :=
  (∀ s t k ch e, ch ≠ 5 → s.checkDue t k ch (fun n => !n.malformed && s.packetOk t k n.packet n.idx) = some e →
      (e.malformed = false ∧ s.packetOk t k e.packet e.idx = true → Completes (.copyHeadCheck t k ch) s fun u =>
        u = s.modEntry t k ch e.ord fun n => { n with checked := true })
      ∧ (¬(e.malformed = false ∧ s.packetOk t k e.packet e.idx = true) → (s.ctx? t k).isSome = true → (s.ctx t k).dbg.attached = false →
        Completes (.copyHeadCheck t k ch) s fun u => (u.ctx t k).st = .faulted ∧ (u.ctx t k).lastCode = 0x14 ∧ RegsHeld s u))
  ∧ (∀ s t k e, s.checkDue t k 5 (s.stackOk t k) = some e →
      (s.stackOk t k e = true → Completes (.copyHeadCheck t k 5) s fun u =>
        u = s.modEntry t k 5 e.ord fun n => { n with checked := true })
      ∧ (s.stackOk t k e = false → (s.ctx? t k).isSome = true → (s.ctx t k).dbg.attached = false →
        Completes (.copyHeadCheck t k 5) s fun u => (u.ctx t k).st = .faulted ∧ (u.ctx t k).lastCode = 0x14 ∧ RegsHeld s u))
  ∧ (∀ s k ch e, s.nextStart s.focus.tile = some (k, ch, e) → Completes .sectorStart s fun u =>
      (∃ x : Sector, (u.tile s.focus.tile).sectors = (s.tile s.focus.tile).sectors ++ [x] ∧ x.ctx = k ∧ x.ch = ch ∧ x.ord = e.ord
        ∧ x.k = e.nextSector ∧ x.packet = e.packet ∧ x.moved = false ∧ x.out = [] ∧ x.started = s.now
        ∧ u.agenda = s.agenda ++ [rowAt (moveRow e.packet x.id) s.focus.tile k])
      ∧ (∀ n, n ∈ (u.ctx s.focus.tile k).chan ch → n.ord = e.ord → n.next = e.nextSector + 1)
      ∧ BytesKept s u ∧ RegsKept s u)
  ∧ (∀ s id t x i, i ∈ [.copyMove id, .copyGather id, .copyConvert id, .copyAccum id, .copyAccumk id] →
      s.sector? id = some (t, x) → x.moved = false → x.ch < 5 → moveRow x.packet id = i →
      (∀ f, x.fault = some f → Completes i s fun u => SectorGone s u t id)
      ∧ (x.fault = none → s.readable x.clock x.src = true → x.noPath = none →
        (∀ f, s.arrivalFault x = some f → Completes i s fun u => SectorGone s u t id)
        ∧ (s.arrivalFault x = none →
          (∀ f, s.dataError t (decide (pkSeop x.packet = 2)) x.words x.src x.dst = some f → x ∈ (s.tile t).sectors →
            Completes i s fun u => { x with moved := true, fault := some f } ∈ (u.tile t).sectors ∧ BytesKept s u ∧ RegsKept s u
              ∧ u.agenda = s.agenda ++ [.row (.sectorLanded id) Focus.reset])
          ∧ (s.dataError t (decide (pkSeop x.packet = 2)) x.words x.src x.dst = none →
            Completes i s fun u =>
              (let p := x.packet
               let e := s.entry? t x.ctx x.ch x.ord
               let raw := s.piecesBytes x.src
               let data := if pkSeop p = 1 then convertBytes p raw else raw
               let on (v : Nat) := fillOpen (s.openBytes t e x v) data
               SectorSent s u id
                 (if pkSeop p = 2 then accItems (pkSfmt p) (pkDfmt p) (pkRmode p) x.dst raw (s.openBytes t e x 0)
                  else if pkDkind p = 1 then x.receivers.flatMap fun v => rawItems (x.dst.filter fun y => decide (y.home = .tile v)) (on v)
                  else rawItems x.dst (on 0)))
              ∧ (∀ y, y ∈ (u.tile t).sectors → y.id = id → y.moved = true)
              ∧ BytesKept s u ∧ RegsKept s u))))
  ∧ (∀ s id t x, s.sector? id = some (t, x) → x.moved = true → x.out = [] →
      Completes (.sectorLanded id) s (fun u => SectorGone s u t id)
      ∧ (x.ch = 6 → x.fault = none → Completes (.sectorLanded id) s fun u => ∀ n : Session, n ∈ s.sessions → n.id = x.ord →
          { n with folded := tabPut n.folded x.k (tabGet 0 n.folded x.k + 1) } ∈ u.sessions)
      ∧ (x.ch < 5 → x.fault = none →
        (pkSemen x.packet = true → pkMcast x.packet = 0 → pkSemtile x.packet = t →
          (∀ e, s.entry? t x.ctx x.ch x.ord = some e → e.parked = none) →
          (∀ e, e ∈ (s.ctx t x.ctx).chan x.ch → e.changed = []) → Completes (.sectorLanded id) s fun u =>
            u.sem t (pkSemg x.packet) = (s.creditSem t (pkSemg x.packet) x.bytes (s.dieClock (s.dieOf t))).sem t (pkSemg x.packet))
        ∧ ∀ e, (s.ctx t x.ctx).chan x.ch = [e] → e.ord = x.ord → e.checked = true → pkSectors e.packet = 1 → x.k = 0 →
          e.landed = [] → e.doneBelow = 0 → e.parked = none → Completes (.sectorLanded id) s fun u =>
            (u.ctx t x.ctx).chan x.ch = [] ∧ (u.ctx t x.ctx).count x.ch = ((s.ctx t x.ctx).count x.ch).leave (pkTlinc e.packet)))
  ∧ (∀ s id t x n, s.sector? id = some (t, x) → x.noPath = some n → x.podLeft ≠ [] → n + 1000000 ≤ s.now →
      Completes (.podSectorTimeout id) s fun u => SectorGone s u t id)
  ∧ (∀ s t k ord op i e r blocks dst, (op, i) ∈ [(1, .stackGather t k ord), (2, .stackReduce t k ord), (3, .stackConvert t k ord)] →
      s.stackLeft t k = none →
      s.stackDue t k ord op = some e → s.planStack t k e.packet e.nextSector = (r, .ok (blocks, dst)) →
      r.readable (r.stackClock t dst) (stackReads e.packet blocks dst) = true →
      s.stackServes ((pieceStacks dst).headD 0) t k = true →
      (r.dataError t (skAcc e.packet) [] (stackReads e.packet blocks dst) dst = none →
        let parts := rawItems dst (stackData e.packet (blocks.map r.piecesBytes) (r.piecesBytes dst)
          (min 4096 (stkBytes e.packet - 4096 * e.nextSector)))
        Completes i s fun u =>
          SectorSent r u r.nextId (parts.take 1)
            ∧ (∃ x, x ∈ (u.tile t).sectors ∧ x.id = r.nextId ∧ x.todo = parts.tail ∧ x.moved = parts.tail.isEmpty)
            ∧ BytesKept s u ∧ RegsKept s u)
      ∧ ∀ f, r.dataError t (skAcc e.packet) [] (stackReads e.packet blocks dst) dst = some f →
        Completes i s fun u =>
          (∃ x, x ∈ (u.tile t).sectors ∧ x.id = r.nextId ∧ x.fault = some f ∧ x.k = e.nextSector) ∧ BytesKept s u ∧ RegsKept s u)
  ∧ (∀ s t k ord op i y h part l, (op, i) ∈ [(1, .stackGather t k ord), (2, .stackReduce t k ord), (3, .stackConvert t k ord)] →
      s.stackLeft t k = some y → y.ord = ord → skOp y.packet = op → y.todo = (.stack h, part) :: l → s.stackServes h t k = true →
      Completes i s fun u =>
        SectorSent s u y.id [(.stack h, part)]
          ∧ (∀ x, x ∈ (u.tile t).sectors → x.id = y.id → x.todo = l ∧ x.moved = l.isEmpty) ∧ BytesKept s u ∧ RegsKept s u)
  ∧ (∀ s t k ord e r dst aux, s.stackDue t k ord 4 = some e → s.planOpen t k e.packet = (r, .ok (dst, aux)) →
      let held := (∃ l, l ∈ r.waitingOpens (e.ready.getD r.now) ∧ ∃ h, h ∈ l ∧ h ∈ pieceStacks dst)
        ∨ ∃ h, h ∈ pieceStacks dst ∧ 16 ≤ (r.sessions.filter fun x => x.engines.contains h).length
      (r.session? (r.asidOf t k) (skSess e.packet) = none → ¬held →
        Completes (.stackOpen t k ord) s fun u =>
          (∃ x : Session, u.sessions = s.sessions ++ [x] ∧ x.asid = s.asidOf t k ∧ x.sess = skSess e.packet ∧ x.owner = (t, k)
            ∧ x.ord = ord ∧ x.cmd = e.packet ∧ x.dst = dst ∧ x.aux = aux ∧ x.engines = pieceStacks dst ∧ x.contribs = [] ∧ x.folded = [])
          ∧ (∀ n, n ∈ (u.ctx t k).chan 5 → n.ord = ord → n.next = n.sectors 5 ∧ n.ready = none)
          ∧ BytesKept s u ∧ RegsKept s u)
      ∧ (r.session? (r.asidOf t k) (skSess e.packet) = none → held → e.ready = none →
        Completes (.stackOpen t k ord) s fun u => u = s.modEntry t k 5 ord fun n => { n with ready := some s.now })
      ∧ ∀ x, r.session? (r.asidOf t k) (skSess e.packet) = some x → ¬(x.owner = (t, k) ∧ x.ord = ord) →
        (s.ctx? t k).isSome = true → (s.ctx t k).dbg.attached = false →
        Completes (.stackOpen t k ord) s fun u => (u.ctx t k).st = .faulted ∧ (u.ctx t k).lastCode = 0x14 ∧ RegsHeld s u)
  ∧ (∀ s id stack x r dst aux, s.sessions.find? (fun n => decide (n.id = id)) = some x → s.foldDue x stack = true →
      s.planOpen x.owner.1 x.owner.2 x.cmd = (r, .ok (dst, aux)) → r.foldError x stack dst aux = none →
      r.readable (r.stackClock x.owner.1 dst) (foldReads x stack dst aux) = true →
      s.stackServes stack x.owner.1 x.owner.2 = true → r.foldItems x stack dst aux ≠ [] →
      Completes (.sessionFold id stack) s fun u =>
        SectorSent r u r.nextId (r.foldItems x stack dst aux)
          ∧ (∀ it, it ∈ r.foldItems x stack dst aux → it.2.acc = some (ssDfmt x.cmd, ssDfmt x.cmd, skRmode x.cmd))
          ∧ BytesKept s u ∧ RegsKept s u)
  ∧ ∀ s t k e, s.stackDone t k = some e → Completes (.stackEntryLeave t k) s fun u =>
      (u.ctx t k).chan 5 = ((s.ctx t k).chan 5).tail ∧ (u.ctx t k).count 5 = ((s.ctx t k).count 5).leave 1 ∧ RegsKept s u
        ∧ (∀ x, x ∈ u.sessions → ¬(x.owner = (t, k) ∧ x.ord = e.ord))
        ∧ (skSemen e.packet = false → BytesKept s u)
        ∧ (skSemen e.packet = true → skSemtile e.packet = t →
          u.sem t (skSemg e.packet) = (s.creditSem t (skSemg e.packet) 1 (u.dieClock (s.dieOf t))).sem t (skSemg e.packet))

/-! ### Commands of a function page (R346 to R350, R353, R354) -/

/-- Every command with reserved bits completes with CRES 5, one for a context its function does not own with 1; each command
does what its rule says to a context in the right state, move by move as the writes of its area are performed, and
completes with 2 in a wrong one, with 3 at a fault of its area. That a RESUME loads what it reads of sections 0 to 7 and finds
the rest in the context as it was saved (assumption 18), what DISCARD, DUMP and RESUME wait for (assumption 61), that a resident
number goes before a saved one (assumption 59), and what is due as a reply meets a saved context (assumption 60) are the model's
readings. -/
def Obligations.ContextCommands : Prop :=
  (∀ s i w, i ∈ [Instr.preempt, .resume, .dump, .abort, .discard] → s.ctlDue s.focus.fn i = some w →
      (cmdReserved w = true → Completes i s fun u => u = s.complete s.focus.fn w 5)
      ∧ (cmdReserved w = false → s.owned? s.focus.fn (cmdTile w) (cmdCtx w) = none →
        Completes i s fun u => u = s.complete s.focus.fn w 1))
  ∧ (∀ s w k, s.ctlDue s.focus.fn .preempt = some w → cmdReserved w = false →
      s.owned? s.focus.fn (cmdTile w) (cmdCtx w) = some k →
      ((s.ctx (cmdTile w) k).st ≠ .resident → Completes .preempt s fun u => u = s.complete s.focus.fn w 2)
      ∧ ((s.ctx (cmdTile w) k).st = .resident → s.preemptWaits (cmdTile w) k = true → Completes .preempt s fun u => u = s)
      ∧ ((s.ctx (cmdTile w) k).st = .resident → s.preemptWaits (cmdTile w) k = false → Completes .preempt s fun u =>
        (u.ctx (cmdTile w) k).st = .saving ∧ (u.ctx (cmdTile w) k).area = cmdArea w ∧ (u.ctx (cmdTile w) k).dbg.haltReq = false
          ∧ (∀ i, i ∈ (u.engine (cmdTile w)).items → i.ctx ≠ k) ∧ (u.engine (cmdTile w)).turn ≠ some k
          ∧ (u.page s.focus.fn).busy = true ∧ (u.page s.focus.fn).waits = none ∧ BytesKept s u ∧ RegsHeld s u))
  ∧ (∀ s w, (s.page s.focus.fn).ctl? = some w → cmdRow w = .preempt → (s.page s.focus.fn).busy = true →
      let t := cmdTile w
      let k := cmdCtx w
      let secs := s.sections t k false
      let head := s.headerBytes t k (s.saveHead t k) secs
      (¬((s.ctx? t k).isSome = true ∧ (s.ctx t k).st = .saving) → Completes .contextSave s fun u =>
        u = s.complete s.focus.fn w (if (s.ctx? t k).isSome = true ∧ (s.ctx t k).st = .resident then 3 else 2))
      ∧ ((s.ctx? t k).isSome = true → (s.ctx t k).st = .saving →
        ((s.page s.focus.fn).waits = none → s.departedSets t + s.savesBegun t < 8 →
          (∀ r ids, s.bumpFree.writeSections t k (cmdArea w) (dirOf 256 secs) ((List.range 16).zip secs) = (r, some ids) →
            Completes .contextSave s fun u => u = r.await s.focus.fn none ids)
          ∧ ∀ r, s.bumpFree.writeSections t k (cmdArea w) (dirOf 256 secs) ((List.range 16).zip secs) = (r, none) →
            Completes .contextSave s fun u => (u.page s.focus.fn).cres = 3 ∧ (u.page s.focus.fn).busy = false
              ∧ ((s.ctx t k).parkedOrder = [] → (u.ctx t k).st = .resident))
        ∧ ∀ a, (s.page s.focus.fn).waits = some a → s.areaDone a = true →
          (a.failed = true → Completes .contextSave s fun u => (u.page s.focus.fn).cres = 3 ∧ (u.page s.focus.fn).busy = false
            ∧ ((s.ctx t k).parkedOrder = [] → (u.ctx t k).st = .resident))
          ∧ (a.failed = false → a.header = none → ∀ r ids, s.writeVa t k (cmdArea w) head [] 257 = (r, some ids) →
            Completes .contextSave s fun u => u = r.await s.focus.fn (some 0) ids)
          ∧ (a.failed = false → a.header.isSome = true → Completes .contextSave s fun u =>
            u.ctx? t k = none ∧ (u.page s.focus.fn).cres = 0 ∧ (u.page s.focus.fn).busy = false
              ∧ ∃ n, 8 ≤ n ∧ (u.ctx t n).st = .saved ∧ (u.ctx t n).departed = true)))
  ∧ (∀ s w t k, s.ctlDue s.focus.fn .resume = some w → cmdReserved w = false → cmdTile w = t →
      (s.owned? s.focus.fn t (cmdCtx w)).isSome = true →
      (s.savedFor s.focus.fn t (cmdCtx w) (cmdArea w) = none → Completes .resume s fun u => u = s.complete s.focus.fn w 2)
      ∧ (s.savedFor s.focus.fn t (cmdCtx w) (cmdArea w) = some k →
        (∀ r, s.readVa t (s.asidOf t k) (cmdArea w) 256 1024 = (r, none) → Completes .resume s fun u => u = r.complete s.focus.fn w 3)
        ∧ ∀ r head, s.readVa t (s.asidOf t k) (cmdArea w) 256 1024 = (r, some head) →
          let room := r.usable t && (r.tile t).failed.isNone && (r.freeCtxs t).contains (cmdCtx w) && r.unitsFit t (s.recOf t k) 1
            && r.imageFits t (recHash (s.recOf t k))
          (headerFits head (r.asidOf t k) t (cmdCtx w) = false → Completes .resume s fun u => u = r.complete s.focus.fn w 4)
          ∧ (headerFits head (r.asidOf t k) t (cmdCtx w) = true → room = false →
            Completes .resume s fun u => u = r.complete s.focus.fn w 6)
          ∧ (headerFits head (r.asidOf t k) t (cmdCtx w) = true → room = true →
            (∀ r2, r.bringImage t (s.recOf t k) = (r2, false) → Completes .resume s fun u => u = r2.complete s.focus.fn w 3)
            ∧ (∀ r2 r3, r.bringImage t (s.recOf t k) = (r2, true) →
              r2.readSections t k (cmdArea w) head (savedSections (r2.ctx t k).departed) = (r3, false) →
              Completes .resume s fun u => u = (r3.setCtx t k (r2.ctx t k)).complete s.focus.fn w 3)
            ∧ ∀ r2 r3 r4 ids, r.bringImage t (s.recOf t k) = (r2, true) →
              r2.readSections t k (cmdArea w) head (savedSections (r2.ctx t k).departed) = (r3, true) →
              (let m := (r3.mergeDie (r3.dieOf t) (headerClock head))
               let m := m.mergeDie (r3.dieOf t) (r2.ctx t k).savedClock
               m.writeVa t k (cmdArea w + 60) [(head.getD 60 0 &&& 0xF0) ||| 2] [] 2) = (r4, some ids) →
              Completes .resume s fun u =>
                u = ((r4.rekey t k (cmdCtx w)).restart t (cmdCtx w)).await s.focus.fn (some 0) ids
                  ∧ (u.ctx? t (cmdCtx w)).isSome = true
                  ∧ ((r4.ctx t k).parkedOrder = [] → (u.ctx t (cmdCtx w)).st = .resident))))
  ∧ (∀ s w, s.ctlDue s.focus.fn .dump = some w → cmdReserved w = false →
      (s.owned? s.focus.fn (cmdTile w) (cmdCtx w)).isSome = true →
      (s.dumpable s.focus.fn (cmdTile w) (cmdCtx w) = none → Completes .dump s fun u => u = s.complete s.focus.fn w 2)
      ∧ ∀ k, s.dumpable s.focus.fn (cmdTile w) (cmdCtx w) = some k → Completes .dump s fun u =>
        (u.ctx (cmdTile w) k).dumpAsked = some s.now ∧ (u.page s.focus.fn).busy = true ∧ (u.page s.focus.fn).waits = none
          ∧ BytesKept s u ∧ RegsKept s u)
  ∧ (∀ s w, (s.page s.focus.fn).ctl? = some w → cmdRow w = .dump → (s.page s.focus.fn).busy = true →
      let t := cmdTile w
      (s.dumped? s.focus.fn w = none → Completes .dumpComplete s fun u => u = s.complete s.focus.fn w 2)
      ∧ ∀ k, s.dumped? s.focus.fn w = some k →
        let secs := s.sections t k true
        let dir := dirOf 256 secs
        let quarantined (u : State) : Prop := (u.ctx t k).st = .quarantined ∧ (u.page s.focus.fn).cres = 3 ∧ (u.page s.focus.fn).busy = false
        ((s.page s.focus.fn).waits = none → (s.ctx t k).st ≠ .dumping → s.dumpsAhead t k = 0 →
          Completes .dumpComplete s fun u => u = s.modCtx t k fun x => { x with st := .dumping, dumpBegan := some s.now })
        ∧ ((s.page s.focus.fn).waits = none → (s.ctx t k).st = .dumping → s.inflight t k = 0 →
          (∀ r, s.bumpFree.dumpSections t k secs = (r, none) → Completes .dumpComplete s quarantined)
          ∧ ∀ r l, s.bumpFree.dumpSections t k secs = (r, some l) →
            (∀ v, r.writeSections t k (cmdArea w) dir l = (v, none) → Completes .dumpComplete s quarantined)
            ∧ ∀ v ids, r.writeSections t k (cmdArea w) dir l = (v, some ids) →
              Completes .dumpComplete s fun u => u = v.await s.focus.fn none ids)
        ∧ ∀ a, (s.page s.focus.fn).waits = some a → s.areaDone a = true →
          (a.failed = true → Completes .dumpComplete s quarantined)
          ∧ (a.failed = false → a.header = some (s.ctx t k).secn → Completes .dumpComplete s fun u =>
            (u.ctx? t k = none ∨ (u.ctx t k).st = if (s.ctx t k).secn = 2 then .dumpedIncomplete else .dumped)
              ∧ (u.page s.focus.fn).cres = 0 ∧ (u.page s.focus.fn).busy = false)
          ∧ (a.failed = false → a.header ≠ some (s.ctx t k).secn →
            ∀ v ids r more, s.writeSections t k (cmdArea w) dir [(14, s.secBytes t k 14)] = (v, some ids) →
              v.writeVa t k (cmdArea w) (s.headerBytes t k (s.dumpHead t k) secs) [] 257 = (r, some more) →
              Completes .dumpComplete s fun u => u = r.await s.focus.fn (some (r.ctx t k).secn) (ids ++ more)))
  ∧ (∀ s w, s.ctlDue s.focus.fn .discard = some w → cmdReserved w = false →
      (s.owned? s.focus.fn (cmdTile w) (cmdCtx w)).isSome = true →
      (s.dumpable s.focus.fn (cmdTile w) (cmdCtx w) = none → Completes .discard s fun u => u = s.complete s.focus.fn w 2)
      ∧ ∀ k, s.dumpable s.focus.fn (cmdTile w) (cmdCtx w) = some k → Completes .discard s fun u =>
        (u.ctx? (cmdTile w) k = none ∨ (u.ctx (cmdTile w) k).st = .dumped) ∧ (u.page s.focus.fn).cres = 0
          ∧ (u.page s.focus.fn).cdone = (s.page s.focus.fn).cdone + 1)
  ∧ ∀ s w k x, s.ctlDue s.focus.fn .abort = some w → cmdReserved w = false →
      (s.owned? s.focus.fn (cmdTile w) (cmdCtx w)).isSome = true →
      (s.tile (cmdTile w)).ctxs.find? (fun e => decide (e.2.num = cmdCtx w) && (decide (e.2.st = .resident) || decide (e.2.st = .saved))
        && s.owns s.focus.fn (cmdTile w) e.1) = some (k, x) → s.ctx? (cmdTile w) k = some x →
      Completes .abort s fun u =>
        (u.ctx (cmdTile w) k).st = .faulted ∧ (u.ctx (cmdTile w) k).lastCode = 0x31 ∧ (u.page s.focus.fn).cres = 0 ∧ RegsHeld s u

/-! ### Commands of the debugger (R320, R372 to R376) -/

/-- A debug command with reserved bits completes with DCODE 4, one for a context of another function with 1, one that needs a
debugger attached or a halt with 2 without it; each command does what its rule says. That unlisted bits of DARG are ignored and
how entries are counted (assumption 60), and that an entry of section 8 is one instruction (assumption 18), are the model's
readings. -/
def Obligations.DebugCommands : Prop :=
  (∀ s i w a d, i ∈ [Instr.attach, .detach, .halt, .haltq, .cont, .step, .rdst, .wrst, .cancel, .setbp, .setwp, .catchStops, .acct] →
      s.dbgDue s.focus.fn i = some (w, a, d) →
      (fieldNat w 59 12 ≠ 0 → Completes i s fun u => DebugDone s s u w 4)
      ∧ (fieldNat w 59 12 = 0 → s.owns s.focus.fn (cmdTile w) (cmdCtx w) = false → Completes i s fun u => DebugDone s s u w 1)
      ∧ (fieldNat w 59 12 = 0 → s.owns s.focus.fn (cmdTile w) (cmdCtx w) = true → i ≠ .attach → i ≠ .detach →
        (s.ctx (cmdTile w) (cmdCtx w)).dbg.attached = false → Completes i s fun u => DebugDone s s u w 2)
      ∧ (fieldNat w 59 12 = 0 → s.owns s.focus.fn (cmdTile w) (cmdCtx w) = true → i ∈ [Instr.step, .rdst, .wrst, .cancel] →
        ¬Halted s (cmdTile w) (cmdCtx w) → Completes i s fun u => DebugDone s s u w 2))
  ∧ (∀ s w a d t c, DebugFor s .attach w a d t c →
      Completes .attach s fun u => DebugDone s (s.modDbg t c fun x => { x with attached := true }) u w 0)
  ∧ (∀ s w a d t c, DebugFor s .detach w a d t c → Completes .detach s fun u =>
      (u.ctx t c).dbg.attached = false ∧ (u.ctx t c).dbg.bps = [] ∧ (u.ctx t c).dbg.wps = [] ∧ (u.ctx t c).dbg.catchMask = 0
        ∧ (u.ctx t c).dbg.eh = false ∧ (u.ctx t c).dbg.hh = false ∧ (u.page s.focus.fn).dcode = 0 ∧ BytesKept s u ∧ RegsKept s u)
  ∧ (∀ s w a d t c, DebugFor s .cont w a d t c → Completes .cont s fun u =>
      (u.ctx t c).dbg.eh = false ∧ (u.ctx t c).dbg.hh = false ∧ (u.ctx t c).dbg.quiesce = false ∧ (u.ctx t c).dbg.pend = none
        ∧ (u.page s.focus.fn).dcode = 0
        ∧ (u.hart t c).pc = (s.hart t c).pc ∧ BytesKept s u ∧ RegsKept s u)
  ∧ (∀ s w a d t c, DebugFor s .halt w a d t c →
      (Halted s t c → Completes .halt s fun u => DebugDone s s u w 0)
      ∧ ((s.ctx t c).st ≠ .resident → ¬((s.ctx t c).dbg.eh = true ∧ (s.ctx t c).dbg.hh = true) →
        Completes .halt s fun u => DebugDone s s u w 2)
      ∧ (¬Halted s t c → (s.ctx t c).st = .resident → Completes .halt s fun u =>
        (u.ctx t c).dbg.haltReq = true ∧ (u.page s.focus.fn).dbusy = true ∧ BytesKept s u ∧ RegsKept s u))
  ∧ (∀ s w a d t c, DebugFor s .haltq w a d t c →
      ((s.ctx t c).st ≠ .resident → Completes .haltq s fun u => DebugDone s s u w 2)
      ∧ ((s.ctx t c).st = .resident → Completes .haltq s fun u =>
        (u.ctx t c).dbg.quiesce = true ∧ (¬Halted s t c → (u.ctx t c).dbg.haltReq = true) ∧ (u.page s.focus.fn).dbusy = true ∧ BytesKept s u ∧ RegsKept s u))
  ∧ (∀ s t c, At s t c → (s.ctx t c).dbg.haltReq = true → (s.ctx t c).st = .resident → s.spilling t c = false →
      Completes .haltTakesEffect s fun u =>
        Halted u t c ∧ (u.ctx t c).dbg.haltReq = false ∧ (u.hart t c).wait = none
          ∧ ((s.hart t c).wait = none → (u.hart t c).pc = (s.hart t c).pc)
          ∧ (∀ i, i ∈ (u.engine t).items → i.ctx ≠ c)
          ∧ u.micro.head? = some (Work.haltRecord t c)
          ∧ (∀ f w, s.waitingPage t c .halt = some (f, w) → (u.page f).dcode = 0 ∧ (u.page f).dbusy = false)
          ∧ BytesKept s u ∧ RegsHeld s u)
  ∧ (∀ s w, s.haltqDone s.focus.fn = some w → Completes .haltqStable s fun u => DebugDone s s u w 0)
  ∧ (∀ s w a d t c, DebugFor s .step w a d t c → Halted s t c →
      (a.getLsbD 0 = true → Completes .step s fun u =>
        (u.ctx t c).dbg.stepping = some true ∧ (u.page s.focus.fn).dbusy = true ∧ BytesKept s u ∧ RegsKept s u)
      ∧ (a.getLsbD 0 = false → Completes .step s fun u =>
        (u.ctx t c).dbg.stepping = some false ∧ (u.ctx t c).dbg.eh = false ∧ (u.page s.focus.fn).dbusy = true
          ∧ BytesKept s u ∧ RegsKept s u))
  ∧ (∀ s w a d t c, DebugFor s .rdst w a d t c → Halted s t c →
      (fieldNat a 3 0 = 15 ∨ (s.secBytes t c (fieldNat a 3 0)).length < 8 * fieldNat a 31 8 + 8 →
        Completes .rdst s fun u => DebugDone s s u w 3)
      ∧ (fieldNat a 3 0 ≠ 15 → 8 * fieldNat a 31 8 + 8 ≤ (s.secBytes t c (fieldNat a 3 0)).length → Completes .rdst s fun u =>
        (u.page s.focus.fn).ddata = wordAt (s.secBytes t c (fieldNat a 3 0)) (8 * fieldNat a 31 8)
          ∧ (u.page s.focus.fn).dcode = 0 ∧ BytesKept s u ∧ RegsKept s u))
  ∧ (∀ s w a d t c, DebugFor s .wrst w a d t c → Halted s t c →
      let n := fieldNat a 3 0
      let o := 8 * fieldNat a 31 8
      (n = 15 ∨ (8 ≤ n ∧ n ≤ 12) ∨ n = 14 ∨ (s.secBytes t c n).length < o + 8 → Completes .wrst s fun u => DebugDone s s u w 3)
      ∧ (n ≠ 15 → n ≠ 14 → (n < 8 ∨ 12 < n) → o + 8 ≤ (s.secBytes t c n).length → Completes .wrst s fun u =>
        DebugDone s (s.modCtx t c fun x => x.loadSec n (patchBytes (s.secBytes t c n) o d)) u w 0))
  ∧ (∀ s w a d t c, DebugFor s .cancel w a d t c → Halted s t c →
      ((replayEntries (s.ctx t c).replay)[fieldNat a 15 0]? = none → Completes .cancel s fun u => DebugDone s s u w 3)
      ∧ ∀ l, (replayEntries (s.ctx t c).replay)[fieldNat a 15 0]? = some l → Completes .cancel s fun u =>
        ((u.ctx t c).replay.map fun i => (i.slot, i.issued, i.due))
            = ((s.ctx t c).replay.filter (fun i => !l.contains i)).map (fun i => (i.slot, i.issued, i.due))
          ∧ (∀ i, i ∈ (u.ctx t c).replay → (∀ a d, i.kind ≠ .accPending a d) → i ∈ (s.ctx t c).replay)
          ∧ (u.bun t c).kind = (s.bun t c).kind
          ∧ ((∀ i, i ∈ l → ∀ a d, i.kind ≠ .accPending a d) →
            (u.ctx t c).replay = (s.ctx t c).replay.filter (fun i => !l.contains i) ∧ u.bun t c = s.bun t c)
          ∧ (u.page s.focus.fn).dcode = 0 ∧ BytesKept s u ∧ RegsKept s u)
  ∧ (∀ s w a d t c, DebugFor s .setbp w a d t c →
      Completes .setbp s fun u => (u.page s.focus.fn).dcode = 0 ∧ BytesKept s u ∧ RegsKept s u
        ∧ (tabGet? (u.ctx t c).dbg.bps (fieldNat a 1 0) = if a.getLsbD 2 then some (fieldNat a 18 6, fieldNat a 5 3) else none)
        ∧ ∀ n, n ≠ fieldNat a 1 0 → tabGet? (u.ctx t c).dbg.bps n = tabGet? (s.ctx t c).dbg.bps n)
  ∧ (∀ s w a d t c, DebugFor s .setwp w a d t c →
      Completes .setwp s fun u => (u.page s.focus.fn).dcode = 0 ∧ BytesKept s u ∧ RegsKept s u
        ∧ tabGet? (u.ctx t c).dbg.wps (fieldNat a 0 0)
          = some { r := a.getLsbD 1, w := a.getLsbD 2, first := fieldNat a 24 3, last := fieldNat a 46 25 })
  ∧ (∀ s w a d t c, DebugFor s .catchStops w a d t c →
      Completes .catchStops s fun u => DebugDone s (s.modDbg t c fun x => { x with catchMask := d }) u w 0)
  ∧ ∀ s w a d t c, DebugFor s .acct w a d t c →
      (s.counter t a = none → Completes .acct s fun u => DebugDone s s u w 3)
      ∧ ∀ v, s.counter t a = some v → Completes .acct s fun u =>
        (s.focus.fn = 0 → (u.page s.focus.fn).ddata = v.setWidth 64)
          ∧ (s.focus.fn ≠ 0 → fieldNat a 4 0 ≠ 31 → (fieldNat a 19 16 < 8 → s.owns s.focus.fn t (fieldNat a 19 16) = false) →
            (u.page s.focus.fn).ddata = BitVec.allOnes 64) ∧ (u.page s.focus.fn).dcode = 0
          ∧ BytesKept s u ∧ RegsKept s u

/-! ### The bundle engine (R180, R182, R208, R213, R214, R216, R272 to R285, R333 to R336, R343, R367) -/

/-- The engine turns to a context of the highest effective priority; a run is checked and starts; what is due lands and
accesses; freezes begin and end; a run that is complete leaves and credits; late stops and collisions end a context; the cycle
of a run that fails its check, or of a collision, is no issue and is charged FAULT (R363). That a credit to the tile's own
semaphores is put aside for the end of the cycle (assumption 41), an overflow access to a page of host memory (assumption 80)
and the late stop of an uncorrectable error in the scratchpad (assumption 93) are the model's readings. -/
def Obligations.BundleEngineRows : Prop :=
  (∀ s c, s.selected s.focus.tile = some c → Completes .contextSelect s fun u =>
      (u.engine s.focus.tile).turn = some c ∧ (u.engine s.focus.tile).turnClk = 0 ∧ (u.ctx s.focus.tile c).waitClk = 0
        ∧ c ∈ s.eligibles s.focus.tile ∧ (∀ d, d ∈ s.eligibles s.focus.tile → s.effOf s.focus.tile d ≤ s.effOf s.focus.tile c)
        ∧ BytesKept s u ∧ RegsKept s u)
  ∧ (∀ s c, (s.engine s.focus.tile).turn = some c → (s.ctx? s.focus.tile c).isSome = true → Completes .segmentBudgetSwitch s fun u =>
      (u.engine s.focus.tile).turn = none ∧ (∀ i, i ∈ (u.engine s.focus.tile).items → i.ctx ≠ c)
        ∧ (u.ctx s.focus.tile c).replay.length
            = (s.ctx s.focus.tile c).replay.length + ((s.engine s.focus.tile).items.filter fun i => decide (i.ctx = c)).length
        ∧ BytesKept s u ∧ RegsKept s u)
  ∧ (∀ s t c e, s.focus.tile = t → (s.engine t).turn = some c → (s.ctx? t c).isSome = true → (s.ctx t c).nextRun? = some e →
      (s.runCheck t c e = none → Completes .runStart s fun u =>
        (u.bun t c).loop = Loop.start e.desc ∧ (u.bun t c).seg = (s.bun t c).seg + 1
          ∧ (u.bun t c).p = (if rdRot e.desc then clearPreds (s.bun t c).p else (s.bun t c).p)
          ∧ (∀ n, n < 8 → tabGet? (u.tile t).charges n = some { owner := (s.ctx t c).num, cause := .loopset, pc := rdStart e.desc })
          ∧ BytesKept s u ∧ RegsKept s u)
      ∧ ∀ f, s.runCheck t c e = some f → (s.ctx t c).st = .resident → (s.ctx t c).dbg.attached = false → Completes .runStart s fun u =>
        (u.ctx t c).st = .faulted ∧ RegsHeld s u ∧ (u.engine t).ic = (s.engine t).ic
          ∧ ∃ r, (u.ctx t c).stop = some r ∧ r.code = f.1 ∧ r.reason = f.2 ∧ r.baddr = rdStart e.desc)
  ∧ (∀ s t c e l, At s t c → s.runDone t c = true → (s.ctx t c).runs = e :: l → Completes .runComplete s fun u =>
      (u.ctx t c).runs = l ∧ (u.ctx t c).count 4 = ((s.ctx t c).count 4).leave 1 ∧ BytesKept s u ∧ RegsKept s u
        ∧ (rdPen e.desc = false → (u.engine t).credits = (s.engine t).credits ∧ u.net = s.net)
        ∧ (rdPen e.desc = true → rdPtile e.desc = t →
          (u.engine t).credits = (s.engine t).credits ++ [(rdPg e.desc, rdPcnt e.desc)] ∧ u.net = s.net)
        ∧ (rdPen e.desc = true → rdPtile e.desc ≠ t → ∃ m, u.net = s.net ++ [m] ∧ m.home = .tile (rdPtile e.desc)
          ∧ m.body = .credit (rdPtile e.desc) (rdPg e.desc) (rdPcnt e.desc)))
  ∧ (∀ s i, (s.engine s.focus.tile).earliest = some i → Completes .drainIssue s fun u =>
      u = s.chargeAll s.focus.tile .drain i.ctx i.baddr)
  ∧ (∀ s, Completes .landing s fun u => RegsKept s u
      ∧ ((∀ i gs a l w r, i ∈ (s.engine s.focus.tile).dueLandings → i.kind = .window gs a l w → r ∈ l →
          s.localBad s.focus.tile r.1 r.2 = false) →
        (u.engine s.focus.tile).items.map (fun i => (i.ctx, i.slot, i.due))
          = ((s.engine s.focus.tile).items.filter fun i =>
              !(decide (i.due ≤ (s.engine s.focus.tile).ic) && !i.kind.isAccess && !i.kind.isOut)).map fun i => (i.ctx, i.slot, i.due)))
  ∧ (∀ s t i, s.focus.tile = t → (s.engine t).dueLandings = [i] → (s.engine t).cur = none → (s.ctx? t i.ctx).isSome = true →
      (∀ n mask data lat fl, i.kind = .vec (.v n) mask data lat fl → Completes .landing s fun u =>
        (∀ j, j < 128 → laneAt ((u.bun t i.ctx).vreg n) j
          = if mask.getLsbD j then laneAt data j else laneAt ((s.bun t i.ctx).vreg n) j)
        ∧ (∀ m, m ≠ n → (u.bun t i.ctx).vreg m = (s.bun t i.ctx).vreg m)
        ∧ (u.hart t i.ctx).fflags = (s.hart t i.ctx).fflags ||| fl ∧ BytesKept s u)
      ∧ (∀ n v lat, n ≠ 0 → i.kind = .scalar (.s n) v lat → Completes .landing s fun u =>
        (u.bun t i.ctx).sreg n = v ∧ (∀ m, m ≠ n → (u.bun t i.ctx).sreg m = (s.bun t i.ctx).sreg m) ∧ BytesKept s u)
      ∧ (∀ n mask bits fl, n ≠ 0 → i.kind = .pred n mask bits fl → Completes .landing s fun u =>
        (u.bun t i.ctx).pred n = (((s.bun t i.ctx).pred n &&& ~~~mask) ||| (bits &&& mask))
          ∧ (∀ m, m ≠ n → (u.bun t i.ctx).pred m = (s.bun t i.ctx).pred m) ∧ BytesKept s u)
      ∧ ∀ gs a l w r, i.kind = .window gs a l w → l.find? (fun r => s.localBad t r.1 r.2) = some r → Completes .landing s fun u =>
        (∃ x, x ∈ (u.ctx t i.ctx).lateStop ∧ x.code = 0x13 ∧ x.late = true ∧ x.addr = BitVec.ofNat 64 r.1)
          ∧ u.bun t i.ctx = s.bun t i.ctx ∧ BytesKept s u ∧ RegsKept s u)
  ∧ (∀ s t i, s.focus.tile = t → (s.engine t).dueAccesses = [i] →
      let rest := (s.engine t).items.filter fun j => !(decide (j.due ≤ (s.engine t).ic) && j.kind.isAccess)
      (∀ r, i.kind.readsOf.find? (fun r => s.localBad t r.1 r.2) = some r → (s.ctx? t i.ctx).isSome = true →
        Completes .accessCycle s fun u =>
          (u.engine t).items = rest ∧ BytesKept s u ∧ RegsKept s u
            ∧ ∃ x, x ∈ (u.ctx t i.ctx).lateStop ∧ x.code = 0x13 ∧ x.late = true ∧ x.addr = BitVec.ofNat 64 r.1)
      ∧ (∀ tgt mask l lat, i.kind = .load tgt mask l false lat → (∀ e, e ∈ l → s.localBad t e.2 4 = false) → Completes .accessCycle s fun u =>
        (u.engine t).items = rest ++ [{ i with due := (s.engine t).ic + lat, kind := .vec tgt mask (s.readLanes t l) true 0 }]
          ∧ BytesKept s u ∧ RegsKept s u)
      ∧ (∀ tgt mask x l lat, i.kind = .load tgt mask (x :: l) true lat → (∀ e, e ∈ x :: l → s.localBad t e.2 8 = false) → Completes .accessCycle s fun u =>
        (u.engine t).items = rest ++ [{ i with due := (s.engine t).ic + lat, kind := .scalar tgt (wordOf 64 (s.localBytes t x.2 8)) true }]
          ∧ BytesKept s u ∧ RegsKept s u)
      ∧ (∀ mask cells size, i.kind = .store mask cells size → Completes .accessCycle s fun u =>
        (∀ x b, u.localByte x b
          = (cells.foldl (fun (v : State) e => v.writeLocal t e.1 (bytesOf e.2 size) none) s).localByte x b) ∧ RegsKept s u)
      ∧ (∀ v g n sc, i.kind = .credit v g n sc → Completes .accessCycle s fun u =>
        (v = t → (u.engine t).credits = (s.engine t).credits ++ [(g, n)] ∧ u.net = s.net)
          ∧ (v ≠ t → ∃ m, u.net = s.net ++ [m] ∧ m.home = .tile v ∧ m.body = .credit v g n)
          ∧ BytesKept s u ∧ RegsKept s u)
      ∧ (∀ g target zero, i.kind = .arm g target zero → Completes .accessCycle s fun u =>
        u.sem t g = (if zero then (s.sem t g).rearm target else (s.sem t g).store target)
          ∧ (∀ x h, ¬(x = t ∧ h = g) → u.sem x h = s.sem x h) ∧ RegsKept s u)
      ∧ (∀ ent a, i.kind = .fmtC ent a → s.localBad t a 64 = false → Completes .accessCycle s fun u =>
        (u.engine t).items = rest ++ [{ i with due := (s.engine t).ic + 1, kind := .fmtBits ent 74 512 (wordOf 512 (s.localBytes t a 64)) }]
          ∧ BytesKept s u ∧ RegsKept s u)
      ∧ ∀ n w, bankLoad [i] = (n, some w) → 1 < n → Completes .accessCycle s fun u =>
        (u.engine t).bankDue = some (n - 1, w.ctx, w.baddr) ∧ u.micro.head? = some (rowAt .bankFreeze t w.ctx))
  ∧ (∀ s n c b, (s.engine s.focus.tile).bankDue = some (n, c, b) → Completes .bankFreeze s fun u =>
      u = s.modEngine s.focus.tile fun e =>
        { e with bankDue := none, freezes := e.freezes ++ [{ cause := .bankfrz, left := some n, owner := c, pc := b }] })
  ∧ (∀ s t i id a k host mask tgt isFill got, s.focus.tile = t → (s.ctx? t i.ctx).isSome = true →
      (s.engine t).items.find? (fun i => i.kind.isOut) = some i → i.kind = .spillOut id a k host mask tgt isFill got →
      let alone : Prop := (∀ j, j ∈ (s.engine t).items → j ≠ i → j.kind.isOut = false) ∧ (s.engine t).spillDue (s.engine t).prevented = none
      (isFill = false → got = none → alone → Completes .spillAccessDone s fun u =>
          (∀ f, f ∈ (u.engine t).freezes → f.cause ≠ .spillfrz)
            ∧ (u.engine t).items = (s.engine t).items.filter (fun j => decide (j ≠ i)) ∧ BytesKept s u ∧ RegsKept s u)
      ∧ (∀ x code reason off, got = some x → x.fault = some (code, reason, off) → Completes .spillAccessDone s fun u =>
          (∃ r, r ∈ (u.ctx t i.ctx).lateStop ∧ r.code = code ∧ r.reason = reason ∧ r.late = true) ∧ RegsKept s u)
      ∧ ∀ x, isFill = true → got = some x → x.fault = none → Completes .spillAccessDone s fun u =>
          ({ i with due := i.due + 4, kind := .vec tgt mask (lanesOf fun j => wordOf 32 ((x.bytes.drop (4 * j)).take 4)) true 0 } : Item)
              ∈ (u.engine t).items
            ∧ (alone → u.dieClock (s.dieOf t) = (s.dieClock (s.dieOf t)).merge x.clock) ∧ BytesKept s u ∧ RegsKept s u)
  ∧ (∀ s t c e, At s t c → (s.ctx t c).curRun? = some e → Completes .fetchFreeze s fun u =>
      u = s.modEngine t fun g =>
        { g with fetched := some (c, (s.bun t c).loop.addr e.desc),
                 freezes := g.freezes ++ [{ cause := .fetch, left := some 2, owner := c, pc := (s.bun t c).loop.addr e.desc }] })
  ∧ (∀ s f, f ∈ (s.engine s.focus.tile).freezes → f.cause = .semwait → Completes .swaitRelease s fun u =>
      u = s.modEngine s.focus.tile fun e => { e with freezes := e.freezes.filter fun f => decide (f.cause ≠ .semwait) })
  ∧ (∀ s t c r l, At s t c → (s.ctx t c).lateStop = r :: l → (s.ctx t c).st = .resident → (s.ctx t c).dbg.attached = false →
      r.code ≠ 0x0B → r.code ≠ 0x0C → Completes .lateStop s fun u =>
        (u.ctx t c).st = .faulted ∧ (u.ctx t c).stop = some { r with tick := s.now } ∧ RegsHeld s u)
  ∧ (∀ s t c e, At s t c → (s.ctx t c).curRun? = some e → (s.ctx t c).st = .resident → (s.ctx t c).dbg.attached = false →
      Completes .wcol s fun u =>
        (u.ctx t c).st = .faulted ∧ RegsHeld s u ∧ (u.engine t).ic = (s.engine t).ic
          ∧ (∀ n, n < 8 → tabGet? (u.tile t).charges n
            = some { owner := (s.ctx t c).num, cause := .fault, pc := (s.bun t c).loop.addr e.desc })
          ∧ ∃ r, (u.ctx t c).stop = some r ∧ r.code = 2 ∧ r.slot = s.focus.slot ∧ r.done = 0
            ∧ r.baddr = (s.bun t c).loop.addr e.desc)
  ∧ (∀ s, Completes .sample s fun u =>
      (u.tile s.focus.tile).samples = (s.tile s.focus.tile).samples + 1 ∧ BytesKept s u ∧ RegsKept s u
        ∧ ∀ k, tabGet? (s.tile s.focus.tile).charges ((s.tile s.focus.tile).samples % 9) = some k →
          (k.owner = 8 ∧ s.focus.fn = 0 ∨ k.owner ≠ 8 ∧ s.asidFn (s.asidOf s.focus.tile k.owner) = s.focus.fn) →
          u = (s.modTile s.focus.tile fun x => { x with samples := x.samples + 1 }).ring s.focus.fn s.focus.tile {
              kind := 1
              id := 0
              slot := (s.tile s.focus.tile).samples % 9
              pc := k.pc
              cause := k.cause.code
              ctx := if k.owner = 8 then 0 else k.owner
              data0 := BitVec.ofNat 64 k.owner
              data1 := 0 })
  ∧ ∀ s t c, At s t c →
      (∀ n, s.bundleOverdue t c = some n → Completes .watchdog s fun u => (u.ctx t c).heldReported = n ∧ RegsKept s u)
      ∧ ∀ w n, s.bundleOverdue t c = none → s.hartOverdue t c = some (w, n) → Completes .watchdog s fun u =>
        (u.hart t c).wait = some { w with reported := n } ∧ (u.hart t c).pc = (s.hart t c).pc ∧ RegsKept s u

/-! ### Rating, sparing, power (R4, R28, R38, R39, R274, R349, R379 to R388) -/

/-- The trim rule of the rating controller, the squashed cycle and TILEFAIL, the move of a logical number, rate sheets, sparing,
heat and power: each does what its rule says. The model's readings: memory after power is down and over a reset (assumption 67),
the shutdown causes 0 and 1 (66), the links, the mesh and retirement by cause 2 (69 and 105), what a move carries (65 and 103),
spares used at manufacture (92), the checked image and its record (106). -/
def Obligations.RatingAndPower : Prop :=
  (∀ s t pct, s.enabled t = true → pct ≤ 50 → Completes (.clockStretch t pct) s fun u =>
      u = s.modTile t fun x => { x with stretched := pct })
  ∧ (∀ s link, s.deadLinks.contains link = false → link < 654 →
      Completes (.laneSwap link) s fun u =>
        if link < 14 ∧ s.lanesLeft link ≠ 0 then
          tabGet 0 u.lifetime.lanesSpared link = min 255 (tabGet 0 s.lifetime.lanesSpared link + 1)
            ∧ tabGet 0 u.lanesUsed link = tabGet 0 s.lanesUsed link + 1 ∧ u.deadLinks = s.deadLinks
            ∧ u = { s with lifetime := u.lifetime, lanesUsed := u.lanesUsed }
        else
          let life : Lifetime :=
            if link < 14 then { s.lifetime with linksDisabled := min 255 (s.lifetime.linksDisabled + 1) } else s.lifetime
          let v : State := { s with deadLinks := s.deadLinks ++ [link], lifetime := life }
          u.deadLinks = v.deadLinks ∧ u.lifetime = v.lifetime ∧ (v.cutOff = [] → u = v)
            ∧ (∀ t, t ∈ v.cutOff → (u.tile t).failed = some s.now ∧ (u.tile t).retireCause = 2) ∧ BytesKept s u ∧ RegsHeld s u)
  ∧ (∀ s link, Completes (.linkRetrain link) s fun u => u = s)
  ∧ (∀ s stack row, stack < 24 → s.rowFails stack row = false → s.rowWorn stack row = true ∨ (stack, row) ∈ s.rewritten →
      Completes (.rowRepair stack row) s fun u =>
        if s.bankUsed stack row < 32 then
          u.repaired = s.repaired ++ [(stack, row)] ∧ u.rowWorn stack row = false ∧ ¬ (stack, row) ∈ u.rewritten
            ∧ tabGet 0 u.lifetime.rowsUsed stack = min 65535 (tabGet 0 s.lifetime.rowsUsed stack + 1)
            ∧ u = { s with repaired := u.repaired, rewritten := u.rewritten, rowErrs := u.rowErrs, lifetime := u.lifetime }
        else u = s)
  ∧ (∀ s p, s.focus.tile = p →
      (s.focus.slot = 0 → Completes .rateSheetWrite s fun u =>
        (u.site p).sheet0 = (s.site p).written s.lifetime.hours ∧ (u.site p).avg0 = (s.site p).avg ∧ u.mram = s.lifetime ∧ u.agenda = s.agenda ++ [sheetRow p 1]
          ∧ u = { s with sites := u.sites, mram := u.mram, agenda := u.agenda })
      ∧ (s.focus.slot ≠ 0 → Completes .rateSheetWrite s fun u =>
        (u.site p).sheet1 = { (s.site p).written s.lifetime.hours with drift := (s.site p).sheet0.drift } ∧ u.mram = s.lifetime
          ∧ u = { s with sites := u.sites, mram := u.mram }))
  ∧ (∀ s t, s.focus.tile = t → s.enabled t = true → (s.tile t).failed = none →
      ((s.tile t).errs < 2 → Completes .lateTransition s fun u =>
        (u.tile t).errs = (s.tile t).errs + 1 ∧ (u.tile t).clk = (s.tile t).clk + 1 ∧ (u.engine t).ic = (s.engine t).ic
          ∧ (u.engine t).items = (s.engine t).items ∧ (u.tile t).failed = none
          ∧ ((s.tile t).errs = 0 → (u.site (s.siteOf t)).r = (s.site (s.siteOf t)).r + 1) ∧ RegsKept s u)
      ∧ (2 ≤ (s.tile t).errs → Completes .lateTransition s fun u =>
        (u.tile t).failed = some s.now ∧ (u.tile t).retireCause = 0 ∧ (u.tile t).errs = 0 ∧ (u.site (s.siteOf t)).v = 700
          ∧ (s.spills t = false → ∀ i, i ∈ (u.engine t).items → ¬ i.ctx ∈ s.residents t) ∧ RegsHeld s u))
  ∧ (∀ s t, s.focus.tile = t → s.enabled t = true → (s.tile t).drainingOut = true → Completes .lateTransition s fun u =>
      ∀ c, c ∈ s.bound t → u.ctx? t c = none ∨ (u.ctx t c).st = .dumpedIncomplete)
  ∧ (∀ s t, s.focus.tile = t → (s.tile t).failed.isSome = true → (s.tile t).sectors = [] → s.enabled t = true → s.spills t = false →
      let r := ({ (s.drainRest t) with holding := insNat t s.holding } : State).retireSite (s.siteOf t) (s.tile t).retireCause
      (r.moveChoice t = none → Completes .tileMove s fun u =>
        (u.tile t).moveWait.isSome = true ∧ (u.tile t).failed = (s.tile t).failed ∧ u.siteOf t = s.siteOf t ∧ BytesKept s u ∧ RegsKept s u)
      ∧ ∀ n p v, r.moveChoice t = some (n, p, v) → (∀ c, c ∈ s.bound t → (s.ctx t c).parkedOrder = []) →
        Completes .tileMove s fun u =>
          u.siteOf t = p ∧ (u.tile t).failed = none ∧ (u.tile t).moveWait = none ∧ (u.tile t).sems = (s.tile t).sems
            ∧ (s.bound t = [] → (u.tile t).tlb = [])
            ∧ (∀ w, v = some w → w ∈ u.fenced)
            ∧ (∀ c o, (s.ctx? t c).isSome = true → (s.carve t c).1 ≤ o → o < (s.carve t c).2 → o < semBase →
              u.localByte t o = s.localByte t o)
            ∧ (∀ d q, u.getX t d q = s.getX t d q))
  ∧ (∀ s t, s.focus.tile = t → s.enabled t = true → (s.tile t).failed = none →
      (Completes .ratingStep s fun u =>
        let x := s.site (s.siteOf t)
        let y := u.site (s.siteOf t)
        let late := 1000000 ≤ x.b ∧ 2 * x.b < x.r * 1000000
        let clean := 2 ^ 32 ≤ x.cb ∧ x.cr * 1000000 ≤ x.cb / 2
        (late → x.v < 680 → y.v = x.v + 5 ∧ y.w = x.w ∧ y.cb = 0 ∧ y.cr = 0)
          ∧ (late → 680 ≤ x.v → 1550 < x.w → y.v = x.v ∧ y.w = x.w - 5 ∧ y.cb = 0 ∧ y.cr = 0)
          ∧ (late → 680 ≤ x.v → x.w ≤ 1550 → y.askRetire = true ∧ y.v = x.v ∧ y.w = x.w)
          ∧ (¬late → clean → y.v = (if 540 < x.v then x.v - 5 else x.v) ∧ y.w = x.w ∧ y.cb = 0 ∧ y.cr = 0)
          ∧ (¬late → ¬clean → y.v = x.v ∧ y.w = x.w ∧ y.cb = x.cb ∧ y.cr = x.cr)
          ∧ y.b = 0 ∧ y.r = 0 ∧ u.tiles = s.tiles ∧ BytesKept s u ∧ RegsKept s u)
      ∧ ((s.site (s.siteOf t)).askRetire = true → Completes .rateFloorRetirement s fun u =>
        (u.tile t).failed = some s.now ∧ (u.tile t).retireCause = 1 ∧ u.sites = s.sites ∧ RegsHeld s u))
  ∧ (∀ s t, s.focus.tile = t → s.enabled t = true →
      Completes .thermalThrottle s (fun u =>
        (u.tile t).throttled = true ∧ (u.site (s.siteOf t)).thermal = true ∧ BytesKept s u ∧ RegsKept s u)
      ∧ ((s.site (s.siteOf t)).thermal = true → Completes .thermalRecovery s fun u =>
        (u.tile t).throttled = false ∧ (u.site (s.siteOf t)).thermal = false ∧ BytesKept s u ∧ RegsKept s u))
  ∧ (∀ s die on, Completes (.powerLimitThrottle die on) s fun u =>
      (∀ t, t ∈ s.tilesOn die → (u.tile t).throttled
        = ((s.site (s.siteOf t)).thermal || (on && decide (s.nextThrottled die = some t)))) ∧ BytesKept s u ∧ RegsKept s u)
  ∧ (∀ s i cause, (i, cause) ∈ [(Instr.orderlyShutdown, 0), (.thermalShutdown, 1)] → Completes i s fun u =>
      u.boot = .off ∧ u.mem = [] ∧ u.mram = u.lifetime
        ∧ (∃ r, u.lifetime.shutdowns.getLast? = some r ∧ r.cause = cause ∧ r.tick = s.now)
        ∧ ∀ p, p < 384 → (u.site p).sheet0.valid = true ∧ (u.site p).sheet1.valid = true ∧ (u.site p).sheet0.vnow = (s.site p).v)
  ∧ (∀ s, Completes .powerLoss s fun u => u.boot = .lost ∧ u.mem = [] ∧ u.mram = s.mram ∧ u.sites = s.sites)
  ∧ ∀ s, s.boot ≠ .lost →
      Completes .packageReset s fun u =>
        u.lifetime = s.mram
          ∧ if s.imageValid s.free = true then
              u.secVersion = max s.secVersion (Config.firmware s.free).version ∧ u.imageNo = s.free ∧ u.boot = .running ∧ u.launches = [] ∧ u.dies = [] ∧ u.net = [] ∧ u.now = 0 ∧ (∀ t g, u.sem t g = Sem.reset)
                ∧ (∀ t c, u.ctx? t c = none) ∧ u.mem = s.mem
            else u.boot = .inBoot ∧ u.secVersion = s.secVersion ∧ u.n0 = 0 ∧ ∀ t, u.enabled t = false

/-! ### Encodings (R60, R68 to R70, R171 to R174, R187 to R191) -/

/-- Words written out from the encodings of the spec decode to the instructions they stand for. -/
def Obligations.DecodeWords : Prop :=
  decodeHart 0b01111000000001011000010100001011 = (.kLda 3 6 false 10 11, 4)
    ∧ decodeHart 0b10000000001000000010001011110011 = (.csrr 0x802 5, 4)
    ∧ decodeHart 0b00100000000000101011000001011011 = (.kHyield 5, 4)
    ∧ decodeHart 0b00000000111001101001111000101011 = (.kRuni 28 13 14, 4)
    ∧ decodeHart 0b00000000000100000101000000101011 = (.kMfence 1, 4)
    ∧ decodeHart 0b00000000000000110110001110101011 = (.kTlwait 0 7 6 0, 4)
    ∧ decodeHart 0b00000010000001011010001100101011 = (.kCopy 1 6 11, 4)
    ∧ decodeHart 0b11111111111100110000001010010011 = (.controlCompute (.aluImm .addi 5 6 0xFFF), 4)
    ∧ decodeHart 0b00000000011100110011100000100011 = (.controlStore 3 6 7 16, 4)
    ∧ decodeHart 0b00000000000000000000001010000101 = (.controlCompute (.aluImm .addi 5 5 1), 2)
    ∧ decodeSlot .sa 0b00000010000111000011000000001001 = .add ⟨0, 28, 12, 9⟩
    ∧ decodeSlot .sb 0b10100100000000000000000000000000 = .yield
    ∧ decodeSlot .sa 0b10100100000000000000000000000000 = .ienc 0b10100100000000000000000000000000
    ∧ decodeSlot .vec 0b10001000001000001100001000000101 = .vaddI32 ⟨1, 3, 4, 5⟩
    ∧ decodeSlot .vec 0b00100000000000001000000110000100 = .fma ⟨.f, 0, 2, 3, 4⟩
    ∧ decodeSlot .x 0b00000100100000101000011000000000 = .rsqa ⟨2, 5, 6⟩
    ∧ decodeSlot .x 0b01000011110001000110100010100001 = .mmaAcc ⟨15, 2, 3, 4, 5⟩
    ∧ decodeSlot .ma 0b00000100000001010001000000000011 = .vld ⟨0, 10, 2, 3⟩
    ∧ decodeSlot .mb 0b10000000000000110001010000000000 = .swait 5 3
    ∧ decodeSlot .mb 0b10000100000001001000000000000010 = .spost 4 4 2

/-- The decoder gives back every well-formed instruction from the word the encoder makes of it, with every operand at every value
its field admits: the control core's instructions from its decoder, a bundle instruction in every slot class that holds
it. -/
def Obligations.EncodeDecode : Prop :=
  ∀ (i : Instr) (w : W32), wellFormed i = true → encode i = some w →
    (ofHart i = true → decodeHart w = (i, 4))
      ∧ ∀ p, p ∈ placesOf i → decodeSlot p w = i

/-! ### Invariant, reset, steps -/

/-- Every step keeps the canonical form of the package's memory and of host memory (assumption 4). -/
def Obligations.InvariantKept : Prop :=
  ∀ s u : State, s.Canon → step s = .next u → u.Canon

/-- What reset leaves: no byte of memory written, every semaphore, clock, register and timeline zero, no context, launch or
message; the memories are in canonical form. Reset values that the spec does not give are the model's (assumptions 3, 4, 11). -/
def Obligations.ResetState : Prop :=
  State.reset.Canon ∧ State.reset.now = 0 ∧ State.reset.launches = [] ∧ State.reset.net = []
    ∧ (∀ t c, State.reset.ctx? t c = none) ∧ (∀ t g, State.reset.sem t g = Sem.reset)
    ∧ (∀ t c q, State.reset.getX t c q = 0) ∧ (∀ d, State.reset.dieClock d = Clock.zero)
    ∧ (∀ q, (State.reset.queue q).timeline = 0) ∧ ∀ t b, State.reset.localByte t b = 0

/-- A step whose next work is a hart's issue executes the instruction decoded at its pc, for that hart, and nothing else; one
whose next work is a slot executes the instruction decoded from the slot's word, after charging the slot. -/
def Obligations.StepRunsDecoded : Prop :=
  (∀ s t c l, s.boot = .running → s.micro = .hart t c :: l → (s.ctx? t c).isSome = true → (s.hart t c).pc.toNat < 0x10000 →
      step s = exec (decodeHart (s.fetchWord t (s.hart t c).pc.toNat)).1
        { s with micro := l,
                 focus := { tile := t, ctx := c, slot := 8, len := (decodeHart (s.fetchWord t (s.hart t c).pc.toNat)).2, fn := 0 } })
  ∧ ∀ s t c n b l, s.boot = .running → s.micro = .slot t c n :: l → (s.engine t).stopAt = none → (s.engine t).cur = some (c, b) →
      (s.engine t).doneMask.getLsbD n = false → (s.ctx t c).dbg.attached = false → (s.env t c n).word ≠ 0 →
      let i := decodeSlot (Place.ofSlot n) (s.env t c n).word
      step s = exec i { (({ s with micro := l } : State).charge t [n]
          (if !(s.env t c n).bad i && (s.env t c n).off (useOf i) then Cause.predoff else Cause.exec) (s.ctx t c).num b) with
        focus := { tile := t, ctx := c, slot := n, len := 4, fn := 0 } }
end

