-- ==== Sys2Proof/Laws/Exec.lean ====
section
/-! SUPPORT. Which meaning each instruction and event has: one equation per arm of exec. -/

namespace Sys2Proof.Machine

theorem exec_functionLevelReset (f : Nat) (s : State) : exec (.functionLevelReset f) s = execFunctionLevelReset f s := rfl
theorem exec_inboundPostedWrite (u : Tlp) (s : State) : exec (.inboundPostedWrite u) s = execInboundPostedWrite u s := rfl
theorem exec_routeApply (id : Nat) (s : State) : exec (.routeApply id) s = execRouteApply id s := rfl
theorem exec_routeAck (id : Nat) (s : State) : exec (.routeAck id) s = execRouteAck id s := rfl
theorem exec_hostRead (r : HostRead) (s : State) : exec (.hostRead r) s = execHostRead r s := rfl
theorem exec_registerWrite (f : Nat) (off : Nat) (v : W64) (s : State) : exec (.registerWrite f off v) s = execRegisterWrite f off v s := rfl
theorem exec_doorbell (f : Nat) (q : Nat) (s : State) : exec (.doorbell f q) s = execDoorbell f q s := rfl
theorem exec_tlarmWrite (f : Nat) (q : Nat) (v : W64) (s : State) : exec (.tlarmWrite f q v) s = execTlarmWrite f q v s := rfl
theorem exec_qownWrite (f : Nat) (q : Nat) (v : BitVec 5) (s : State) : exec (.qownWrite f q v) s = execQownWrite f q v s := rfl
theorem exec_asidEntryWrite (f : Nat) (a : Nat) (high : Bool) (v : W64) (s : State) : exec (.asidEntryWrite f a high v) s = execAsidEntryWrite f a high v s := rfl
theorem exec_stalledClear (f : Nat) (page : Nat) (s : State) : exec (.stalledClear f page) s = execStalledClear f page s := rfl
theorem exec_regerrClear (f : Nat) (page : Nat) (s : State) : exec (.regerrClear f page) s = execRegerrClear f page s := rfl
theorem exec_invalidatePage (f : Nat) (asid : W16) (va : BitVec 32) (s : State) : exec (.invalidatePage f asid va) s = execInvalidatePage f asid va s := rfl
theorem exec_invalidateAsid (f : Nat) (asid : W16) (s : State) : exec (.invalidateAsid f asid) s = execInvalidateAsid f asid s := rfl
theorem exec_invalidateAll (f : Nat) (s : State) : exec (.invalidateAll f) s = execInvalidateAll f s := rfl
theorem exec_invalidateNone (f : Nat) (s : State) : exec (.invalidateNone f) s = execInvalidateNone f s := rfl
theorem exec_faultReplyRetry (f : Nat) (u : Nat) (c : Nat) (seq : W32) (s : State) : exec (.faultReplyRetry f u c seq) s = execFaultReplyRetry f u c seq s := rfl
theorem exec_faultReplyAbort (f : Nat) (u : Nat) (c : Nat) (seq : W32) (s : State) : exec (.faultReplyAbort f u c seq) s = execFaultReplyAbort f u c seq s := rfl
theorem exec_keyLoad (slot : Nat) (s : State) : exec (.keyLoad slot) s = execKeyLoad slot s := rfl
theorem exec_keyClear (slot : Nat) (s : State) : exec (.keyClear slot) s = execKeyClear slot s := rfl
theorem exec_departedSetFlush (u : Nat) (k : Nat) (s : State) : exec (.departedSetFlush u k) s = execDepartedSetFlush u k s := rfl
theorem exec_cquery (f : Nat) (u : Nat) (c : Nat) (s : State) : exec (.cquery f u c) s = execCquery f u c s := rfl
theorem exec_negotiateAlgorithms (asym : W32) (hash : W32) (s : State) : exec (.negotiateAlgorithms asym hash) s = execNegotiateAlgorithms asym hash s := rfl
theorem exec_getCertificate (off : Nat) (len : Nat) (s : State) : exec (.getCertificate off len) s = execGetCertificate off len s := rfl
theorem exec_challenge (nonce : BitVec 256) (s : State) : exec (.challenge nonce) s = execChallenge nonce s := rfl
theorem exec_getMeasurements (index : Nat) (nonce : BitVec 256) (s : State) : exec (.getMeasurements index nonce) s = execGetMeasurements index nonce s := rfl
theorem exec_launchHeadValidation (q : Nat) (s : State) : exec (.launchHeadValidation q) s = execLaunchHeadValidation q s := rfl
theorem exec_clockStretch (u : Nat) (pct : Nat) (s : State) : exec (.clockStretch u pct) s = execClockStretch u pct s := rfl
theorem exec_laneSwap (link : Nat) (s : State) : exec (.laneSwap link) s = execLaneSwap link s := rfl
theorem exec_linkRetrain (link : Nat) (s : State) : exec (.linkRetrain link) s = execLinkRetrain link s := rfl
theorem exec_rowRepair (stack : Nat) (row : Nat) (s : State) : exec (.rowRepair stack row) s = execRowRepair stack row s := rfl
theorem exec_barrierArrival (id : Nat) (s : State) : exec (.barrierArrival id) s = execBarrierArrival id s := rfl
theorem exec_retirementMessage (id : Nat) (s : State) : exec (.retirementMessage id) s = execRetirementMessage id s := rfl
theorem exec_barrierCompletion (id : Nat) (s : State) : exec (.barrierCompletion id) s = execBarrierCompletion id s := rfl
theorem exec_semaphoreCredit (id : Nat) (s : State) : exec (.semaphoreCredit id) s = execSemaphoreCredit id s := rfl
theorem exec_writeApply (id : Nat) (s : State) : exec (.writeApply id) s = execWriteApply id s := rfl
theorem exec_remoteAtomic (id : Nat) (s : State) : exec (.remoteAtomic id) s = execRemoteAtomic id s := rfl
theorem exec_futurePutApply (id : Nat) (s : State) : exec (.futurePutApply id) s = execFuturePutApply id s := rfl
theorem exec_readServe (id : Nat) (s : State) : exec (.readServe id) s = execReadServe id s := rfl
theorem exec_readResponse (id : Nat) (s : State) : exec (.readResponse id) s = execReadResponse id s := rfl
theorem exec_frontierMessage (src : Nat) (home : Nat) (s : State) : exec (.frontierMessage src home) s = execFrontierMessage src home s := rfl
theorem exec_frontierRequest (home : Nat) (src : Nat) (s : State) : exec (.frontierRequest home src) s = execFrontierRequest home src s := rfl
theorem exec_frontierUpdate (id : Nat) (s : State) : exec (.frontierUpdate id) s = execFrontierUpdate id s := rfl
theorem exec_copyHeadCheck (u : Nat) (k : Nat) (ch : Nat) (s : State) : exec (.copyHeadCheck u k ch) s = execCopyHeadCheck u k ch s := rfl
theorem exec_copyMove (id : Nat) (s : State) : exec (.copyMove id) s = execCopyMove id s := rfl
theorem exec_copyGather (id : Nat) (s : State) : exec (.copyGather id) s = execCopyGather id s := rfl
theorem exec_copyConvert (id : Nat) (s : State) : exec (.copyConvert id) s = execCopyConvert id s := rfl
theorem exec_copyAccum (id : Nat) (s : State) : exec (.copyAccum id) s = execCopyAccum id s := rfl
theorem exec_copyAccumk (id : Nat) (s : State) : exec (.copyAccumk id) s = execCopyAccumk id s := rfl
theorem exec_sectorLanded (id : Nat) (s : State) : exec (.sectorLanded id) s = execSectorLanded id s := rfl
theorem exec_stackGather (u : Nat) (k : Nat) (ord : Nat) (s : State) : exec (.stackGather u k ord) s = execStackGather u k ord s := rfl
theorem exec_stackReduce (u : Nat) (k : Nat) (ord : Nat) (s : State) : exec (.stackReduce u k ord) s = execStackReduce u k ord s := rfl
theorem exec_stackConvert (u : Nat) (k : Nat) (ord : Nat) (s : State) : exec (.stackConvert u k ord) s = execStackConvert u k ord s := rfl
theorem exec_stackOpen (u : Nat) (k : Nat) (ord : Nat) (s : State) : exec (.stackOpen u k ord) s = execStackOpen u k ord s := rfl
theorem exec_sessionFold (id : Nat) (stack : Nat) (s : State) : exec (.sessionFold id stack) s = execSessionFold id stack s := rfl
theorem exec_stackEntryLeave (u : Nat) (k : Nat) (s : State) : exec (.stackEntryLeave u k) s = execStackEntryLeave u k s := rfl
theorem exec_podSectorTimeout (id : Nat) (s : State) : exec (.podSectorTimeout id) s = execPodSectorTimeout id s := rfl
theorem exec_csrr (csr : BitVec 12) (rd : BitVec 5) (s : State) : exec (.csrr csr rd) s = execCsrr csr rd s := rfl
theorem exec_csrWrite (op : CsrOp) (csr : BitVec 12) (rd : BitVec 5) (rs : BitVec 5) (s : State) : exec (.csrWrite op csr rd rs) s = execCsrWrite op csr rd rs s := rfl
theorem exec_controlLoad (op : LoadOp) (rd : BitVec 5) (rs1 : BitVec 5) (imm : BitVec 12) (s : State) : exec (.controlLoad op rd rs1 imm) s = execControlLoad op rd rs1 imm s := rfl
theorem exec_controlStore (sz : BitVec 2) (rs1 : BitVec 5) (rs2 : BitVec 5) (imm : BitVec 12) (s : State) : exec (.controlStore sz rs1 rs2 imm) s = execControlStore sz rs1 rs2 imm s := rfl
theorem exec_lr (dbl : Bool) (aq : Bool) (rl : Bool) (rd : BitVec 5) (rs1 : BitVec 5) (s : State) : exec (.lr dbl aq rl rd rs1) s = execLr dbl aq rl rd rs1 s := rfl
theorem exec_sc (dbl : Bool) (aq : Bool) (rl : Bool) (rd : BitVec 5) (rs1 : BitVec 5) (rs2 : BitVec 5) (s : State) : exec (.sc dbl aq rl rd rs1 rs2) s = execSc dbl aq rl rd rs1 rs2 s := rfl
theorem exec_controlAmo (op : AmoOp) (dbl : Bool) (aq : Bool) (rl : Bool) (rd : BitVec 5) (rs1 : BitVec 5) (rs2 : BitVec 5) (s : State) : exec (.controlAmo op dbl aq rl rd rs1 rs2) s = execControlAmo op dbl aq rl rd rs1 rs2 s := rfl
theorem exec_fence (imm : BitVec 12) (rs1 : BitVec 5) (rd : BitVec 5) (s : State) : exec (.fence imm rs1 rd) s = execFence imm rs1 rd s := rfl
theorem exec_fenceI (imm : BitVec 12) (rs1 : BitVec 5) (rd : BitVec 5) (s : State) : exec (.fenceI imm rs1 rd) s = execFenceI imm rs1 rd s := rfl
theorem exec_controlCompute (op : ComputeOp) (s : State) : exec (.controlCompute op) s = execControlCompute op s := rfl
theorem exec_kLda (sz : BitVec 2) (scope : BitVec 3) (spad : Bool) (rd : BitVec 5) (rs1 : BitVec 5) (s : State) : exec (.kLda sz scope spad rd rs1) s = execKLda sz scope spad rd rs1 s := rfl
theorem exec_kStl (sz : BitVec 2) (scope : BitVec 3) (spad : Bool) (rs1 : BitVec 5) (rs2 : BitVec 5) (s : State) : exec (.kStl sz scope spad rs1 rs2) s = execKStl sz scope spad rs1 rs2 s := rfl
theorem exec_kAmoW (op : KAmoOp) (scope : BitVec 3) (spad : Bool) (rd : BitVec 5) (rs1 : BitVec 5) (rs2 : BitVec 5) (s : State) : exec (.kAmoW op scope spad rd rs1 rs2) s = execKAmoW op scope spad rd rs1 rs2 s := rfl
theorem exec_kAmoD (op : KAmoOp) (scope : BitVec 3) (spad : Bool) (rd : BitVec 5) (rs1 : BitVec 5) (rs2 : BitVec 5) (s : State) : exec (.kAmoD op scope spad rd rs1 rs2) s = execKAmoD op scope spad rd rs1 rs2 s := rfl
theorem exec_kFence (scope : BitVec 3) (s : State) : exec (.kFence scope) s = execKFence scope s := rfl
theorem exec_kSarm (rs1 : BitVec 5) (rs2 : BitVec 5) (s : State) : exec (.kSarm rs1 rs2) s = execKSarm rs1 rs2 s := rfl
theorem exec_kSarmZ (rs1 : BitVec 5) (rs2 : BitVec 5) (s : State) : exec (.kSarmZ rs1 rs2) s = execKSarmZ rs1 rs2 s := rfl
theorem exec_kSpost (scope : BitVec 3) (rs1 : BitVec 5) (rs2 : BitVec 5) (s : State) : exec (.kSpost scope rs1 rs2) s = execKSpost scope rs1 rs2 s := rfl
theorem exec_kSwait (rd : BitVec 5) (rs1 : BitVec 5) (rs2 : BitVec 5) (s : State) : exec (.kSwait rd rs1 rs2) s = execKSwait rd rs1 rs2 s := rfl
theorem exec_kSread (rd : BitVec 5) (rs1 : BitVec 5) (s : State) : exec (.kSread rd rs1) s = execKSread rd rs1 s := rfl
theorem exec_kFput (scope : BitVec 3) (rs1 : BitVec 5) (rs2 : BitVec 5) (s : State) : exec (.kFput scope rs1 rs2) s = execKFput scope rs1 rs2 s := rfl
theorem exec_kFget (rd : BitVec 5) (rs1 : BitVec 5) (s : State) : exec (.kFget rd rs1) s = execKFget rd rs1 s := rfl
theorem exec_kFtry (rd : BitVec 5) (rs1 : BitVec 5) (s : State) : exec (.kFtry rd rs1) s = execKFtry rd rs1 s := rfl
theorem exec_kRun (rd : BitVec 5) (rs1 : BitVec 5) (s : State) : exec (.kRun rd rs1) s = execKRun rd rs1 s := rfl
theorem exec_kRuni (rd : BitVec 5) (rs1 : BitVec 5) (rs2 : BitVec 5) (s : State) : exec (.kRuni rd rs1 rs2) s = execKRuni rd rs1 rs2 s := rfl
theorem exec_kCopy (ch : BitVec 2) (rd : BitVec 5) (rs1 : BitVec 5) (s : State) : exec (.kCopy ch rd rs1) s = execKCopy ch rd rs1 s := rfl
theorem exec_kCopyiIn (ch : BitVec 2) (rd : BitVec 5) (rs1 : BitVec 5) (rs2 : BitVec 5) (s : State) : exec (.kCopyiIn ch rd rs1 rs2) s = execKCopyiIn ch rd rs1 rs2 s := rfl
theorem exec_kCopyiOut (ch : BitVec 2) (rd : BitVec 5) (rs1 : BitVec 5) (rs2 : BitVec 5) (s : State) : exec (.kCopyiOut ch rd rs1 rs2) s = execKCopyiOut ch rd rs1 rs2 s := rfl
theorem exec_kStk (rd : BitVec 5) (rs1 : BitVec 5) (s : State) : exec (.kStk rd rs1) s = execKStk rd rs1 s := rfl
theorem exec_kMfence (mask : BitVec 6) (s : State) : exec (.kMfence mask) s = execKMfence mask s := rfl
theorem exec_kTlwait (q : BitVec 3) (rd : BitVec 5) (rs1 : BitVec 5) (rs2 : BitVec 5) (s : State) : exec (.kTlwait q rd rs1 rs2) s = execKTlwait q rd rs1 rs2 s := rfl
theorem exec_kTlread (q : BitVec 3) (rd : BitVec 5) (s : State) : exec (.kTlread q rd) s = execKTlread q rd s := rfl
theorem exec_kQstat (q : BitVec 3) (rd : BitVec 5) (s : State) : exec (.kQstat q rd) s = execKQstat q rd s := rfl
theorem exec_kParcel (rd : BitVec 5) (s : State) : exec (.kParcel rd) s = execKParcel rd s := rfl
theorem exec_kPinfo (sel : BitVec 3) (rd : BitVec 5) (rs1 : BitVec 5) (s : State) : exec (.kPinfo sel rd rs1) s = execKPinfo sel rd rs1 s := rfl
theorem exec_kBar (scope : BitVec 3) (rd : BitVec 5) (rs1 : BitVec 5) (rs2 : BitVec 5) (s : State) : exec (.kBar scope rd rs1 rs2) s = execKBar scope rd rs1 rs2 s := rfl
theorem exec_kBarw (scope : BitVec 3) (rd : BitVec 5) (rs1 : BitVec 5) (rs2 : BitVec 5) (s : State) : exec (.kBarw scope rd rs1 rs2) s = execKBarw scope rd rs1 rs2 s := rfl
theorem exec_kClosure (scope : BitVec 3) (rd : BitVec 5) (rs1 : BitVec 5) (s : State) : exec (.kClosure scope rd rs1) s = execKClosure scope rd rs1 s := rfl
theorem exec_kLaunch (q : BitVec 3) (rd : BitVec 5) (rs1 : BitVec 5) (rs2 : BitVec 5) (s : State) : exec (.kLaunch q rd rs1 rs2) s = execKLaunch q rd rs1 rs2 s := rfl
theorem exec_kHyield (rs1 : BitVec 5) (s : State) : exec (.kHyield rs1) s = execKHyield rs1 s := rfl
theorem exec_kPause (n : BitVec 12) (s : State) : exec (.kPause n) s = execKPause n s := rfl
theorem exec_kStamp (id : BitVec 12) (rd : BitVec 5) (s : State) : exec (.kStamp id rd) s = execKStamp id rd s := rfl
theorem exec_kTrace (id : BitVec 12) (rs1 : BitVec 5) (s : State) : exec (.kTrace id rs1) s = execKTrace id rs1 s := rfl
theorem exec_kAcct (rd : BitVec 5) (rs1 : BitVec 5) (s : State) : exec (.kAcct rd rs1) s = execKAcct rd rs1 s := rfl
theorem exec_kRaise (rs1 : BitVec 5) (s : State) : exec (.kRaise rs1) s = execKRaise rs1 s := rfl
theorem exec_kRaiseF (rs1 : BitVec 5) (s : State) : exec (.kRaiseF rs1) s = execKRaiseF rs1 s := rfl
theorem exec_add (g : SR) (s : State) : exec (.add g) s = execAdd g s := rfl
theorem exec_sub (g : SR) (s : State) : exec (.sub g) s = execSub g s := rfl
theorem exec_mul (g : SR) (s : State) : exec (.mul g) s = execMul g s := rfl
theorem exec_mulh (g : SR) (s : State) : exec (.mulh g) s = execMulh g s := rfl
theorem exec_mulhn (g : SR) (s : State) : exec (.mulhn g) s = execMulhn g s := rfl
theorem exec_and (g : SR) (s : State) : exec (.and g) s = execAnd g s := rfl
theorem exec_or (g : SR) (s : State) : exec (.or g) s = execOr g s := rfl
theorem exec_xor (g : SR) (s : State) : exec (.xor g) s = execXor g s := rfl
theorem exec_andn (g : SR) (s : State) : exec (.andn g) s = execAndn g s := rfl
theorem exec_shl (g : SR) (s : State) : exec (.shl g) s = execShl g s := rfl
theorem exec_shr (g : SR) (s : State) : exec (.shr g) s = execShr g s := rfl
theorem exec_sra (g : SR) (s : State) : exec (.sra g) s = execSra g s := rfl
theorem exec_rotl (g : SR) (s : State) : exec (.rotl g) s = execRotl g s := rfl
theorem exec_min (g : SR) (s : State) : exec (.min g) s = execMin g s := rfl
theorem exec_max (g : SR) (s : State) : exec (.max g) s = execMax g s := rfl
theorem exec_minn (g : SR) (s : State) : exec (.minn g) s = execMinn g s := rfl
theorem exec_maxn (g : SR) (s : State) : exec (.maxn g) s = execMaxn g s := rfl
theorem exec_clz (g : SU) (s : State) : exec (.clz g) s = execClz g s := rfl
theorem exec_popc (g : SU) (s : State) : exec (.popc g) s = execPopc g s := rfl
theorem exec_sel (g : SR) (s : State) : exec (.sel g) s = execSel g s := rfl
theorem exec_addi (g : SI) (s : State) : exec (.addi g) s = execAddi g s := rfl
theorem exec_movi (g : SM) (s : State) : exec (.movi g) s = execMovi g s := rfl
theorem exec_movhi (g : SI) (s : State) : exec (.movhi g) s = execMovhi g s := rfl
theorem exec_shlI (g : SSh) (s : State) : exec (.shlI g) s = execShlI g s := rfl
theorem exec_shrI (g : SSh) (s : State) : exec (.shrI g) s = execShrI g s := rfl
theorem exec_sraI (g : SSh) (s : State) : exec (.sraI g) s = execSraI g s := rfl
theorem exec_rotlI (g : SSh) (s : State) : exec (.rotlI g) s = execRotlI g s := rfl
theorem exec_andI (g : SI) (s : State) : exec (.andI g) s = execAndI g s := rfl
theorem exec_orI (g : SI) (s : State) : exec (.orI g) s = execOrI g s := rfl
theorem exec_xorI (g : SI) (s : State) : exec (.xorI g) s = execXorI g s := rfl
theorem exec_ceq (g : SC) (s : State) : exec (.ceq g) s = execCeq g s := rfl
theorem exec_cne (g : SC) (s : State) : exec (.cne g) s = execCne g s := rfl
theorem exec_clt (g : SC) (s : State) : exec (.clt g) s = execClt g s := rfl
theorem exec_cle (g : SC) (s : State) : exec (.cle g) s = execCle g s := rfl
theorem exec_cltn (g : SC) (s : State) : exec (.cltn g) s = execCltn g s := rfl
theorem exec_clen (g : SC) (s : State) : exec (.clen g) s = execClen g s := rfl
theorem exec_ceqI (g : SCI) (s : State) : exec (.ceqI g) s = execCeqI g s := rfl
theorem exec_cneI (g : SCI) (s : State) : exec (.cneI g) s = execCneI g s := rfl
theorem exec_cltI (g : SCI) (s : State) : exec (.cltI g) s = execCltI g s := rfl
theorem exec_cleI (g : SCI) (s : State) : exec (.cleI g) s = execCleI g s := rfl
theorem exec_cltnI (g : SCI) (s : State) : exec (.cltnI g) s = execCltnI g s := rfl
theorem exec_clenI (g : SCI) (s : State) : exec (.clenI g) s = execClenI g s := rfl
theorem exec_kand (g : SK) (s : State) : exec (.kand g) s = execKand g s := rfl
theorem exec_kor (g : SK) (s : State) : exec (.kor g) s = execKor g s := rfl
theorem exec_kxor (g : SK) (s : State) : exec (.kxor g) s = execKxor g s := rfl
theorem exec_smov (g : SM) (s : State) : exec (.smov g) s = execSmov g s := rfl
theorem exec_aset (kc : BitVec 3) (ad : BitVec 4) (sa : BitVec 6) (imm : BitVec 10) (s : State) : exec (.aset kc ad sa imm) s = execAset kc ad sa imm s := rfl
theorem exec_aadd (kc : BitVec 3) (ad : BitVec 4) (imm : BitVec 10) (s : State) : exec (.aadd kc ad imm) s = execAadd kc ad imm s := rfl
theorem exec_aget (kc : BitVec 3) (sd : BitVec 6) (aa : BitVec 4) (s : State) : exec (.aget kc sd aa) s = execAget kc sd aa s := rfl
theorem exec_bbc (kc : BitVec 3) (n : BitVec 14) (s : State) : exec (.bbc kc n) s = execBbc kc n s := rfl
theorem exec_mark (id : BitVec 12) (s : State) : exec (.mark id) s = execMark id s := rfl
theorem exec_fadd (g : VF) (s : State) : exec (.fadd g) s = execFadd g s := rfl
theorem exec_fsub (g : VF) (s : State) : exec (.fsub g) s = execFsub g s := rfl
theorem exec_fmul (g : VF) (s : State) : exec (.fmul g) s = execFmul g s := rfl
theorem exec_fma (g : VF) (s : State) : exec (.fma g) s = execFma g s := rfl
theorem exec_fms (g : VF) (s : State) : exec (.fms g) s = execFms g s := rfl
theorem exec_fnma (g : VF) (s : State) : exec (.fnma g) s = execFnma g s := rfl
theorem exec_fnms (g : VF) (s : State) : exec (.fnms g) s = execFnms g s := rfl
theorem exec_fmin (g : VF) (s : State) : exec (.fmin g) s = execFmin g s := rfl
theorem exec_fmax (g : VF) (s : State) : exec (.fmax g) s = execFmax g s := rfl
theorem exec_fminn (g : VF) (s : State) : exec (.fminn g) s = execFminn g s := rfl
theorem exec_fmaxn (g : VF) (s : State) : exec (.fmaxn g) s = execFmaxn g s := rfl
theorem exec_fceq (g : VFC) (s : State) : exec (.fceq g) s = execFceq g s := rfl
theorem exec_fclt (g : VFC) (s : State) : exec (.fclt g) s = execFclt g s := rfl
theorem exec_fcle (g : VFC) (s : State) : exec (.fcle g) s = execFcle g s := rfl
theorem exec_fcun (g : VFC) (s : State) : exec (.fcun g) s = execFcun g s := rfl
theorem exec_fclass (g : VFU) (s : State) : exec (.fclass g) s = execFclass g s := rfl
theorem exec_vaddI32 (g : V3) (s : State) : exec (.vaddI32 g) s = execVaddI32 g s := rfl
theorem exec_vsubI32 (g : V3) (s : State) : exec (.vsubI32 g) s = execVsubI32 g s := rfl
theorem exec_vmulI32 (g : V3) (s : State) : exec (.vmulI32 g) s = execVmulI32 g s := rfl
theorem exec_vand (g : V3) (s : State) : exec (.vand g) s = execVand g s := rfl
theorem exec_vor (g : V3) (s : State) : exec (.vor g) s = execVor g s := rfl
theorem exec_vxor (g : V3) (s : State) : exec (.vxor g) s = execVxor g s := rfl
theorem exec_vandn (g : V3) (s : State) : exec (.vandn g) s = execVandn g s := rfl
theorem exec_vshl (g : V3) (s : State) : exec (.vshl g) s = execVshl g s := rfl
theorem exec_vshr (g : V3) (s : State) : exec (.vshr g) s = execVshr g s := rfl
theorem exec_vsra (g : V3) (s : State) : exec (.vsra g) s = execVsra g s := rfl
theorem exec_vminI32 (g : V3) (s : State) : exec (.vminI32 g) s = execVminI32 g s := rfl
theorem exec_vmaxI32 (g : V3) (s : State) : exec (.vmaxI32 g) s = execVmaxI32 g s := rfl
theorem exec_vminN32 (g : V3) (s : State) : exec (.vminN32 g) s = execVminN32 g s := rfl
theorem exec_vmaxN32 (g : V3) (s : State) : exec (.vmaxN32 g) s = execVmaxN32 g s := rfl
theorem exec_vceqI32 (g : VC) (s : State) : exec (.vceqI32 g) s = execVceqI32 g s := rfl
theorem exec_vcltI32 (g : VC) (s : State) : exec (.vcltI32 g) s = execVcltI32 g s := rfl
theorem exec_vcltN32 (g : VC) (s : State) : exec (.vcltN32 g) s = execVcltN32 g s := rfl
theorem exec_vmov (g : V2) (s : State) : exec (.vmov g) s = execVmov g s := rfl
theorem exec_vmovi (g : VImm) (s : State) : exec (.vmovi g) s = execVmovi g s := rfl
theorem exec_vbcs (g : VS) (s : State) : exec (.vbcs g) s = execVbcs g s := rfl
theorem exec_vsel (g : V3) (s : State) : exec (.vsel g) s = execVsel g s := rfl
theorem exec_pack (g : V3) (s : State) : exec (.pack g) s = execPack g s := rfl
theorem exec_unpack (g : VN 2) (s : State) : exec (.unpack g) s = execUnpack g s := rfl
theorem exec_perm (g : V3) (s : State) : exec (.perm g) s = execPerm g s := rfl
theorem exec_bcl (g : VN 4) (s : State) : exec (.bcl g) s = execBcl g s := rfl
theorem exec_xcl (g : VN 3) (s : State) : exec (.xcl g) s = execXcl g s := rfl
theorem exec_vredAddF (g : V2) (s : State) : exec (.vredAddF g) s = execVredAddF g s := rfl
theorem exec_vredMaxF (g : V2) (s : State) : exec (.vredMaxF g) s = execVredMaxF g s := rfl
theorem exec_vredAddI32 (g : V2) (s : State) : exec (.vredAddI32 g) s = execVredAddI32 g s := rfl
theorem exec_part (g : V2) (s : State) : exec (.part g) s = execPart g s := rfl
theorem exec_pand (g : PL) (s : State) : exec (.pand g) s = execPand g s := rfl
theorem exec_por (g : PL) (s : State) : exec (.por g) s = execPor g s := rfl
theorem exec_pxor (g : PL) (s : State) : exec (.pxor g) s = execPxor g s := rfl
theorem exec_pandn (g : PL) (s : State) : exec (.pandn g) s = execPandn g s := rfl
theorem exec_ppop (g : PP) (s : State) : exec (.ppop g) s = execPpop g s := rfl
theorem exec_cvt (g : Cvt) (s : State) : exec (.cvt g) s = execCvt g s := rfl
theorem exec_rsqa (g : V2) (s : State) : exec (.rsqa g) s = execRsqa g s := rfl
theorem exec_rcpa (g : V2) (s : State) : exec (.rcpa g) s = execRcpa g s := rfl
theorem exec_exp2a (g : V2) (s : State) : exec (.exp2a g) s = execExp2a g s := rfl
theorem exec_log2a (g : V2) (s : State) : exec (.log2a g) s = execLog2a g s := rfl
theorem exec_sina (g : V2) (s : State) : exec (.sina g) s = execSina g s := rfl
theorem exec_cosa (g : V2) (s : State) : exec (.cosa g) s = execCosa g s := rfl
theorem exec_tanha (g : V2) (s : State) : exec (.tanha g) s = execTanha g s := rfl
theorem exec_mma (g : XM) (s : State) : exec (.mma g) s = execMma g s := rfl
theorem exec_mmaAcc (g : XM) (s : State) : exec (.mmaAcc g) s = execMmaAcc g s := rfl
theorem exec_mzero (acc : BitVec 5) (s : State) : exec (.mzero acc) s = execMzero acc s := rfl
theorem exec_mdrain (g : XD) (s : State) : exec (.mdrain g) s = execMdrain g s := rfl
theorem exec_msetF (ent : BitVec 4) (sr : BitVec 6) (s : State) : exec (.msetF ent sr) s = execMsetF ent sr s := rfl
theorem exec_msetC (ent : BitVec 4) (a : BitVec 4) (s : State) : exec (.msetC ent a) s = execMsetC ent a s := rfl
theorem exec_msetS (ent : BitVec 4) (sr : BitVec 6) (a : BitVec 4) (s : State) : exec (.msetS ent sr a) s = execMsetS ent sr a s := rfl
theorem exec_rstat (g : XR) (s : State) : exec (.rstat g) s = execRstat g s := rfl
theorem exec_vld (g : MO) (s : State) : exec (.vld g) s = execVld g s := rfl
theorem exec_vldB (g : MO) (s : State) : exec (.vldB g) s = execVldB g s := rfl
theorem exec_vldS (g : MS) (s : State) : exec (.vldS g) s = execVldS g s := rfl
theorem exec_vldx (g : MX) (s : State) : exec (.vldx g) s = execVldx g s := rfl
theorem exec_vst (g : MO) (s : State) : exec (.vst g) s = execVst g s := rfl
theorem exec_vstS (g : MS) (s : State) : exec (.vstS g) s = execVstS g s := rfl
theorem exec_vstx (g : MX) (s : State) : exec (.vstx g) s = execVstx g s := rfl
theorem exec_sld (g : MSc) (s : State) : exec (.sld g) s = execSld g s := rfl
theorem exec_sst (g : MSc) (s : State) : exec (.sst g) s = execSst g s := rfl
theorem exec_spill (g : MSp) (s : State) : exec (.spill g) s = execSpill g s := rfl
theorem exec_fill (g : MSp) (s : State) : exec (.fill g) s = execFill g s := rfl
theorem exec_swait (g : BitVec 6) (sr : BitVec 6) (s : State) : exec (.swait g sr) s = execSwait g sr s := rfl
theorem exec_spost (sr : BitVec 6) (scope : BitVec 3) (count : BitVec 13) (s : State) : exec (.spost sr scope count) s = execSpost sr scope count s := rfl
theorem exec_sarm (g : BitVec 6) (sr : BitVec 6) (s : State) : exec (.sarm g sr) s = execSarm g sr s := rfl
theorem exec_sarmZ (g : BitVec 6) (sr : BitVec 6) (s : State) : exec (.sarmZ g sr) s = execSarmZ g sr s := rfl
theorem exec_podLinkFailure (io : Nat) (lane : Nat) (s : State) : exec (.podLinkFailure io lane) s = execPodLinkFailure io lane s := rfl
theorem exec_incomingPodAccess (a : PodAccess) (s : State) : exec (.incomingPodAccess a) s = execIncomingPodAccess a s := rfl
theorem exec_podAcknowledgement (id : Nat) (s : State) : exec (.podAcknowledgement id) s = execPodAcknowledgement id s := rfl
theorem exec_pcieLinkTraining (lanes : Nat) (gts : Nat) (s : State) : exec (.pcieLinkTraining lanes gts) s = execPcieLinkTraining lanes gts s := rfl
theorem exec_msiXUnmask (f : Nat) (v : Nat) (s : State) : exec (.msiXUnmask f v) s = execMsiXUnmask f v s := rfl
theorem exec_powerLimitThrottle (die : Nat) (on : Bool) (s : State) : exec (.powerLimitThrottle die on) s = execPowerLimitThrottle die on s := rfl
theorem exec_illegalInstruction (w : W32) (s : State) : exec (.illegalInstruction w) s = execIllegalInstruction w s := rfl
theorem exec_ienc (w : W32) (s : State) : exec (.ienc w) s = execIenc w s := rfl
theorem exec_packageReset (s : State) : exec .packageReset s = execPackageReset s := rfl
theorem exec_invalidationDone (s : State) : exec .invalidationDone s = execInvalidationDone s := rfl
theorem exec_preempt (s : State) : exec .preempt s = execPreempt s := rfl
theorem exec_contextSave (s : State) : exec .contextSave s = execContextSave s := rfl
theorem exec_resume (s : State) : exec .resume s = execResume s := rfl
theorem exec_dump (s : State) : exec .dump s = execDump s := rfl
theorem exec_discard (s : State) : exec .discard s = execDiscard s := rfl
theorem exec_abort (s : State) : exec .abort s = execAbort s := rfl
theorem exec_dumpComplete (s : State) : exec .dumpComplete s = execDumpComplete s := rfl
theorem exec_attach (s : State) : exec .attach s = execAttach s := rfl
theorem exec_detach (s : State) : exec .detach s = execDetach s := rfl
theorem exec_halt (s : State) : exec .halt s = execHalt s := rfl
theorem exec_haltq (s : State) : exec .haltq s = execHaltq s := rfl
theorem exec_haltTakesEffect (s : State) : exec .haltTakesEffect s = execHaltTakesEffect s := rfl
theorem exec_haltqStable (s : State) : exec .haltqStable s = execHaltqStable s := rfl
theorem exec_cont (s : State) : exec .cont s = execCont s := rfl
theorem exec_step (s : State) : exec .step s = execStep s := rfl
theorem exec_rdst (s : State) : exec .rdst s = execRdst s := rfl
theorem exec_wrst (s : State) : exec .wrst s = execWrst s := rfl
theorem exec_cancel (s : State) : exec .cancel s = execCancel s := rfl
theorem exec_setbp (s : State) : exec .setbp s = execSetbp s := rfl
theorem exec_setwp (s : State) : exec .setwp s = execSetwp s := rfl
theorem exec_catchStops (s : State) : exec .catchStops s = execCatchStops s := rfl
theorem exec_acct (s : State) : exec .acct s = execAcct s := rfl
theorem exec_getVersion (s : State) : exec .getVersion s = execGetVersion s := rfl
theorem exec_getCapabilities (s : State) : exec .getCapabilities s = execGetCapabilities s := rfl
theorem exec_getDigests (s : State) : exec .getDigests s = execGetDigests s := rfl
theorem exec_allocationAttempt (s : State) : exec .allocationAttempt s = execAllocationAttempt s := rfl
theorem exec_blockingHead (s : State) : exec .blockingHead s = execBlockingHead s := rfl
theorem exec_taskRetirement (s : State) : exec .taskRetirement s = execTaskRetirement s := rfl
theorem exec_tileMove (s : State) : exec .tileMove s = execTileMove s := rfl
theorem exec_heldTrafficRelease (s : State) : exec .heldTrafficRelease s = execHeldTrafficRelease s := rfl
theorem exec_lateTransition (s : State) : exec .lateTransition s = execLateTransition s := rfl
theorem exec_ratingStep (s : State) : exec .ratingStep s = execRatingStep s := rfl
theorem exec_rateFloorRetirement (s : State) : exec .rateFloorRetirement s = execRateFloorRetirement s := rfl
theorem exec_distributorWeightUpdate (s : State) : exec .distributorWeightUpdate s = execDistributorWeightUpdate s := rfl
theorem exec_rateSheetWrite (s : State) : exec .rateSheetWrite s = execRateSheetWrite s := rfl
theorem exec_thermalThrottle (s : State) : exec .thermalThrottle s = execThermalThrottle s := rfl
theorem exec_thermalShutdown (s : State) : exec .thermalShutdown s = execThermalShutdown s := rfl
theorem exec_watchdog (s : State) : exec .watchdog s = execWatchdog s := rfl
theorem exec_dealStep (s : State) : exec .dealStep s = execDealStep s := rfl
theorem exec_reclaim (s : State) : exec .reclaim s = execReclaim s := rfl
theorem exec_sectorStart (s : State) : exec .sectorStart s = execSectorStart s := rfl
theorem exec_contextSelect (s : State) : exec .contextSelect s = execContextSelect s := rfl
theorem exec_segmentBudgetSwitch (s : State) : exec .segmentBudgetSwitch s = execSegmentBudgetSwitch s := rfl
theorem exec_runStart (s : State) : exec .runStart s = execRunStart s := rfl
theorem exec_runComplete (s : State) : exec .runComplete s = execRunComplete s := rfl
theorem exec_drainIssue (s : State) : exec .drainIssue s = execDrainIssue s := rfl
theorem exec_landing (s : State) : exec .landing s = execLanding s := rfl
theorem exec_accessCycle (s : State) : exec .accessCycle s = execAccessCycle s := rfl
theorem exec_bankFreeze (s : State) : exec .bankFreeze s = execBankFreeze s := rfl
theorem exec_spillAccessDone (s : State) : exec .spillAccessDone s = execSpillAccessDone s := rfl
theorem exec_fetchFreeze (s : State) : exec .fetchFreeze s = execFetchFreeze s := rfl
theorem exec_swaitRelease (s : State) : exec .swaitRelease s = execSwaitRelease s := rfl
theorem exec_lateStop (s : State) : exec .lateStop s = execLateStop s := rfl
theorem exec_sample (s : State) : exec .sample s = execSample s := rfl
theorem exec_pauseEnd (s : State) : exec .pauseEnd s = execPauseEnd s := rfl
theorem exec_kSwaitTimeout (s : State) : exec .kSwaitTimeout s = execKSwaitTimeout s := rfl
theorem exec_kTlwaitTimeout (s : State) : exec .kTlwaitTimeout s = execKTlwaitTimeout s := rfl
theorem exec_kBarwTimeout (s : State) : exec .kBarwTimeout s = execKBarwTimeout s := rfl
theorem exec_ecall (s : State) : exec .ecall s = execEcall s := rfl
theorem exec_ebreak (s : State) : exec .ebreak s = execEbreak s := rfl
theorem exec_wfi (s : State) : exec .wfi s = execWfi s := rfl
theorem exec_kFret (s : State) : exec .kFret s = execKFret s := rfl
theorem exec_kJoin (s : State) : exec .kJoin s = execKJoin s := rfl
theorem exec_kExit (s : State) : exec .kExit s = execKExit s := rfl
theorem exec_noOperation (s : State) : exec .noOperation s = execNoOperation s := rfl
theorem exec_yield (s : State) : exec .yield s = execYield s := rfl
theorem exec_powerLoss (s : State) : exec .powerLoss s = execPowerLoss s := rfl
theorem exec_orderlyShutdown (s : State) : exec .orderlyShutdown s = execOrderlyShutdown s := rfl
theorem exec_thermalRecovery (s : State) : exec .thermalRecovery s = execThermalRecovery s := rfl
theorem exec_wcol (s : State) : exec .wcol s = execWcol s := rfl

end Sys2Proof.Machine
end

