-- ==== Sys2Proof/Laws/Tables.lean ====
section
/-! SUPPORT. Reading a sparse table after an entry was put into it or taken out of it. -/

namespace Sys2Proof.Machine

@[simp] theorem tabGet?_put_same {α : Type} (l : Tab α) (k : Nat) (v : α) : tabGet? (tabPut l k v) k = some v := by
  induction l with
  | nil => simp [tabPut, tabGet?]
  | cons e l ih =>
    obtain ⟨j, w⟩ := e
    simp only [tabPut]
    split
    · simp [tabGet?]
    · split
      · simp [tabGet?]
      · simp [tabGet?, *]

theorem tabGet?_put_other {α : Type} (l : Tab α) {j k : Nat} (v : α) (h : j ≠ k) :
    tabGet? (tabPut l k v) j = tabGet? l j := by
  induction l with
  | nil => simp [tabPut, tabGet?, Ne.symm h]
  | cons e l ih =>
    obtain ⟨i, w⟩ := e
    simp only [tabPut]
    split
    · next hi => subst hi; simp [tabGet?, Ne.symm h]
    · split
      · simp [tabGet?, Ne.symm h]
      · simp [tabGet?, ih]

theorem tabGet?_put {α : Type} (l : Tab α) (j k : Nat) (v : α) :
    tabGet? (tabPut l k v) j = if j = k then some v else tabGet? l j := by
  split
  · next h => subst h; simp
  · next h => exact tabGet?_put_other l v h

@[simp] theorem tabGet_put_same {α : Type} (d : α) (l : Tab α) (k : Nat) (v : α) : tabGet d (tabPut l k v) k = v := by
  simp [tabGet]

theorem tabGet_put_other {α : Type} (d : α) (l : Tab α) {j k : Nat} (v : α) (h : j ≠ k) :
    tabGet d (tabPut l k v) j = tabGet d l j := by
  simp [tabGet, tabGet?_put_other l v h]

theorem tabGet_put {α : Type} (d : α) (l : Tab α) (j k : Nat) (v : α) :
    tabGet d (tabPut l k v) j = if j = k then v else tabGet d l j := by
  simp only [tabGet, tabGet?_put]
  split <;> simp

@[simp] theorem tabGet?_del_same {α : Type} (l : Tab α) (k : Nat) : tabGet? (tabDel l k) k = none := by
  induction l with
  | nil => rfl
  | cons e l ih =>
    obtain ⟨j, w⟩ := e
    simp only [tabDel, List.filter] at ih ⊢
    by_cases h : j = k
    · simpa [h] using ih
    · simpa [h, tabGet?] using ih

theorem tabGet?_del_other {α : Type} (l : Tab α) {j k : Nat} (h : j ≠ k) : tabGet? (tabDel l k) j = tabGet? l j := by
  induction l with
  | nil => rfl
  | cons e l ih =>
    obtain ⟨i, w⟩ := e
    simp only [tabDel, List.filter] at ih ⊢
    by_cases hi : i = k
    · subst hi; simpa [tabGet?, Ne.symm h] using ih
    · by_cases hj : i = j
      · subst hj; simp [hi, tabGet?]
      · simpa [hi, hj, tabGet?] using ih

end Sys2Proof.Machine
end

