-- ==== Sys2Proof/Laws/Contexts.lean ====
section
/-! SUPPORT. What a tile, a context, a hart, an engine, a semaphore holds after an update of one of them. -/

namespace Sys2Proof.Machine

/-! ### Tiles -/

theorem State.tile_setTile (s : State) (t u : Nat) (x : Tile) : (s.setTile t x).tile u = if u = t then x else s.tile u :=
  tabGet_put _ _ _ _ _

theorem State.tile_modTile (s : State) (t u : Nat) (f : Tile → Tile) :
    (s.modTile t f).tile u = if u = t then f (s.tile t) else s.tile u := s.tile_setTile t u _

@[simp] theorem State.tile_setTile_same (s : State) (t : Nat) (x : Tile) : (s.setTile t x).tile t = x := by
  simp [State.tile_setTile]

@[simp] theorem State.tile_modTile_same (s : State) (t : Nat) (f : Tile → Tile) : (s.modTile t f).tile t = f (s.tile t) := by
  simp [State.tile_modTile]

theorem State.tile_modTile_other (s : State) {t u : Nat} (f : Tile → Tile) (h : u ≠ t) : (s.modTile t f).tile u = s.tile u := by
  simp [State.tile_modTile, h]

/-! ### Engines -/

theorem State.tile_modEngine (s : State) (t u : Nat) (f : Engine → Engine) :
    (s.modEngine t f).tile u = if u = t then { s.tile t with engine := f (s.tile t).engine } else s.tile u :=
  s.tile_modTile t u _

@[simp] theorem State.engine_modEngine (s : State) (t : Nat) (f : Engine → Engine) :
    (s.modEngine t f).engine t = f (s.engine t) := by
  simp [State.engine, State.tile_modEngine]

theorem State.engine_modEngine_other (s : State) {t u : Nat} (f : Engine → Engine) (h : u ≠ t) :
    (s.modEngine t f).engine u = s.engine u := by
  simp [State.engine, State.tile_modEngine, h]

@[simp] theorem State.ctx?_modEngine (s : State) (t u c : Nat) (f : Engine → Engine) :
    (s.modEngine t f).ctx? u c = s.ctx? u c := by
  simp only [State.ctx?, State.tile_modEngine]
  split
  · next h => rw [h]
  · rfl

@[simp] theorem State.ctx_modEngine (s : State) (t u c : Nat) (f : Engine → Engine) :
    (s.modEngine t f).ctx u c = s.ctx u c := by
  simp only [State.ctx, State.tile_modEngine]
  split
  · next h => rw [h]
  · rfl

/-! ### Contexts -/

theorem State.tile_setCtx (s : State) (t u c : Nat) (x : Ctx) :
    (s.setCtx t c x).tile u = if u = t then { s.tile t with ctxs := tabPut (s.tile t).ctxs c x } else s.tile u :=
  s.tile_modTile t u _

theorem State.ctx_setCtx (s : State) (t u c d : Nat) (x : Ctx) :
    (s.setCtx t c x).ctx u d = if u = t ∧ d = c then x else s.ctx u d := by
  simp only [State.ctx, State.tile_setCtx]
  by_cases h : u = t
  · subst h; simp [tabGet_put]
  · simp [h]

theorem State.ctx?_setCtx (s : State) (t u c d : Nat) (x : Ctx) :
    (s.setCtx t c x).ctx? u d = if u = t ∧ d = c then some x else s.ctx? u d := by
  simp only [State.ctx?, State.tile_setCtx]
  by_cases h : u = t
  · subst h; simp [tabGet?_put]
  · simp [h]

theorem State.ctx_modCtx (s : State) (t u c d : Nat) (f : Ctx → Ctx) :
    (s.modCtx t c f).ctx u d = if u = t ∧ d = c then f (s.ctx t c) else s.ctx u d := s.ctx_setCtx t u c d _

@[simp] theorem State.ctx_modCtx_same (s : State) (t c : Nat) (f : Ctx → Ctx) :
    (s.modCtx t c f).ctx t c = f (s.ctx t c) := by simp [State.ctx_modCtx]

theorem State.ctx_modCtx_other (s : State) {t u c d : Nat} (f : Ctx → Ctx) (h : ¬(u = t ∧ d = c)) :
    (s.modCtx t c f).ctx u d = s.ctx u d := by simp [State.ctx_modCtx, h]

@[simp] theorem State.engine_setCtx (s : State) (t u c : Nat) (x : Ctx) : (s.setCtx t c x).engine u = s.engine u := by
  simp only [State.engine, State.tile_setCtx]
  split
  · next h => rw [h]
  · rfl

@[simp] theorem State.engine_modCtx (s : State) (t u c : Nat) (f : Ctx → Ctx) : (s.modCtx t c f).engine u = s.engine u :=
  s.engine_setCtx t u c _

@[simp] theorem State.sem_setCtx (s : State) (t u c g : Nat) (x : Ctx) : (s.setCtx t c x).sem u g = s.sem u g := by
  simp only [State.sem, State.tile_setCtx]
  split
  · next h => rw [h]
  · rfl

@[simp] theorem State.sem_modCtx (s : State) (t u c g : Nat) (f : Ctx → Ctx) : (s.modCtx t c f).sem u g = s.sem u g :=
  s.sem_setCtx t u c g _

@[simp] theorem State.sem_modEngine (s : State) (t u g : Nat) (f : Engine → Engine) :
    (s.modEngine t f).sem u g = s.sem u g := by
  simp only [State.sem, State.tile_modEngine]
  split
  · next h => rw [h]
  · rfl

/-! ### Harts -/

@[simp] theorem State.hart_modHart (s : State) (t c : Nat) (f : Hart → Hart) : (s.modHart t c f).hart t c = f (s.hart t c) := by
  simp [State.hart, State.modHart]

theorem State.hart_modHart_other (s : State) {t u c d : Nat} (f : Hart → Hart) (h : ¬(u = t ∧ d = c)) :
    (s.modHart t c f).hart u d = s.hart u d := by simp [State.hart, State.modHart, State.ctx_modCtx, h]

@[simp] theorem State.bun_modHart (s : State) (t u c d : Nat) (f : Hart → Hart) : (s.modHart t c f).bun u d = s.bun u d := by
  simp only [State.bun, State.modHart, State.ctx_modCtx]
  split
  · next h => rw [h.1, h.2]
  · rfl

@[simp] theorem State.engine_modHart (s : State) (t u c : Nat) (f : Hart → Hart) : (s.modHart t c f).engine u = s.engine u :=
  s.engine_modCtx t u c _

@[simp] theorem State.sem_modHart (s : State) (t u c g : Nat) (f : Hart → Hart) : (s.modHart t c f).sem u g = s.sem u g :=
  s.sem_modCtx t u c g _

@[simp] theorem State.hart_modBun (s : State) (t u c d : Nat) (f : Bun → Bun) : (s.modBun t c f).hart u d = s.hart u d := by
  simp only [State.hart, State.modBun, State.ctx_modCtx]
  split
  · next h => rw [h.1, h.2]
  · rfl

@[simp] theorem State.bun_modBun (s : State) (t c : Nat) (f : Bun → Bun) : (s.modBun t c f).bun t c = f (s.bun t c) := by
  simp [State.bun, State.modBun]

@[simp] theorem State.hart_modEngine (s : State) (t u c : Nat) (f : Engine → Engine) :
    (s.modEngine t f).hart u c = s.hart u c := by simp [State.hart]

@[simp] theorem State.bun_modEngine (s : State) (t u c : Nat) (f : Engine → Engine) :
    (s.modEngine t f).bun u c = s.bun u c := by simp [State.bun]

/-! ### Registers of a hart -/

/-- x0 reads zero. -/
@[simp] theorem State.getX_zero (s : State) (t c : Nat) : s.getX t c 0 = 0 := by simp [State.getX]

theorem State.getX_setX (s : State) (t c : Nat) (r q : BitVec 5) (v : W64) :
    (s.setX t c r v).getX t c q = if q = 0 then 0 else if q = r then v else s.getX t c q := by
  unfold State.setX
  split
  · next h =>
    subst h
    by_cases hq : q = 0
    · rw [if_pos hq]
      simp [State.getX, hq]
    · rw [if_neg hq, if_neg hq]
  · next h =>
    by_cases hq : q = 0
    · simp [State.getX, hq]
    · simp only [State.getX, hq, if_false, State.hart_modHart, tabGet_put]
      by_cases hr : q = r
      · subst hr; simp
      · rw [if_neg (by simpa [BitVec.toNat_inj] using hr), if_neg hr]

theorem State.setX_pc (s : State) (t c : Nat) (r : BitVec 5) (v : W64) : ((s.setX t c r v).hart t c).pc = (s.hart t c).pc := by
  unfold State.setX
  split
  · rfl
  · simp

/-! ### Semaphores, pages, queues, sites -/

@[simp] theorem State.sem_setSem (s : State) (t g : Nat) (x : Sem) : (s.setSem t g x).sem t g = x := by
  simp [State.sem, State.setSem]

theorem State.sem_setSem_other (s : State) {t u g h : Nat} (x : Sem) (n : ¬(u = t ∧ h = g)) :
    (s.setSem t g x).sem u h = s.sem u h := by
  simp only [State.sem, State.setSem, State.tile_modTile]
  by_cases e : u = t
  · subst e
    have : h ≠ g := fun hg => n ⟨rfl, hg⟩
    simp [tabGet_put_other _ _ _ this]
  · simp [e]

@[simp] theorem State.page_modPage (s : State) (f : Nat) (g : FnPage → FnPage) : (s.modPage f g).page f = g (s.page f) :=
  tabGet_put_same _ _ _ _

theorem State.page_modPage_other (s : State) {f h : Nat} (g : FnPage → FnPage) (n : h ≠ f) :
    (s.modPage f g).page h = s.page h := tabGet_put_other _ _ _ n

@[simp] theorem State.queue_modQueue (s : State) (q : Nat) (g : LQueue → LQueue) : (s.modQueue q g).queue q = g (s.queue q) :=
  tabGet_put_same _ _ _ _

theorem State.queue_modQueue_other (s : State) {q h : Nat} (g : LQueue → LQueue) (n : h ≠ q) :
    (s.modQueue q g).queue h = s.queue h := tabGet_put_other _ _ _ n

end Sys2Proof.Machine
end

