-- ==== Sys2Proof/Laws/Ops.lean ====
section
/-! SUPPORT. One lemma for each shared operation: what it answers, what it changes, what it leaves. -/

namespace Sys2Proof.Machine

/-! ### Two updates of one place -/

theorem tabPut_put {α : Type} (l : Tab α) (k : Nat) (v w : α) : tabPut (tabPut l k v) k w = tabPut l k w := by
  induction l with
  | nil => simp [tabPut]
  | cons e l ih =>
    obtain ⟨j, u⟩ := e
    by_cases h : j = k
    · simp [tabPut, h]
    · by_cases hl : k < j
      · simp [tabPut, h, hl]
      · simp [tabPut, h, hl, ih]

theorem State.modTile_modTile (s : State) (t : Nat) (f g : Tile → Tile) :
    (s.modTile t f).modTile t g = s.modTile t fun x => g (f x) := by
  simp [State.modTile, State.setTile, State.tile, tabPut_put]

theorem State.modCtx_modCtx (s : State) (t c : Nat) (f g : Ctx → Ctx) :
    (s.modCtx t c f).modCtx t c g = s.modCtx t c fun x => g (f x) := by
  rw [State.modCtx, State.ctx_modCtx_same]
  simp only [State.modCtx, State.setCtx, State.modTile_modTile, tabPut_put]

theorem State.modHart_modHart (s : State) (t c : Nat) (f g : Hart → Hart) :
    (s.modHart t c f).modHart t c g = s.modHart t c fun h => g (f h) := s.modCtx_modCtx t c _ _

theorem State.modEngine_modEngine (s : State) (t : Nat) (f g : Engine → Engine) :
    (s.modEngine t f).modEngine t g = s.modEngine t fun e => g (f e) := s.modTile_modTile t _ _

/-! ### Bytes (R11, R22, R23) -/

@[simp] theorem State.localByte_modHart (s : State) (t c u a : Nat) (f : Hart → Hart) :
    (s.modHart t c f).localByte u a = s.localByte u a := by
  simp only [State.localByte, State.sem_modHart]
  rfl

@[simp] theorem State.localByte_modEngine (s : State) (t u a : Nat) (f : Engine → Engine) :
    (s.modEngine t f).localByte u a = s.localByte u a := by
  simp only [State.localByte, State.sem_modEngine]
  rfl

@[simp] theorem State.localByte_modCtx (s : State) (t c u a : Nat) (f : Ctx → Ctx) :
    (s.modCtx t c f).localByte u a = s.localByte u a := by
  simp only [State.localByte, State.sem_modCtx]
  rfl

@[simp] theorem State.localBytes_modHart (s : State) (t c u a n : Nat) (f : Hart → Hart) :
    (s.modHart t c f).localBytes u a n = s.localBytes u a n := by simp [State.localBytes]

/-! ### The form of an instruction of the control core -/

theorem State.withCtx_some {s : State} {t c : Nat} (h : (s.ctx? t c).isSome = true) (f : Ctx → Out) :
    s.withCtx t c f = f (s.ctx t c) := by
  obtain ⟨x, hx⟩ := Option.isSome_iff_exists.1 h
  simp [State.withCtx, hx, State.ctx, tabGet, show tabGet? (s.tile t).ctxs c = some x from hx]

/-- An instruction with legal operand codes does what it does for the context of the focus. -/
theorem State.hartDo_next {s : State} {i : Instr} (h : (s.ctx? s.focus.tile s.focus.ctx).isSome = true)
    (w : wellFormed i = true) (f : Nat → Nat → State → State) :
    s.hartDo i f = .next (f s.focus.tile s.focus.ctx s) := by
  simp [State.hartDo, State.withCtx_some h, w]

/-- A reserved operand code is an illegal instruction (R68). -/
theorem State.hartDo_illegal {s : State} {i : Instr} (h : (s.ctx? s.focus.tile s.focus.ctx).isSome = true)
    (w : wellFormed i = false) (f : Nat → Nat → State → State) :
    s.hartDo i f = .next (s.illegal s.focus.tile s.focus.ctx) := by
  simp [State.hartDo, State.withCtx_some h, w]

/-! ### Results -/

theorem State.advance_eq (s : State) (t c : Nat) :
    s.advance t c = s.modHart t c fun h => { h with pc := h.pc + BitVec.ofNat 64 s.focus.len } := rfl

@[simp] theorem State.setRd_zero (s : State) (t c lat : Nat) (v : W64) : s.setRd t c 0 v lat = s := by simp [State.setRd]

theorem State.focus_setRd (s : State) (t c : Nat) (rd : BitVec 5) (v : W64) (lat : Nat) :
    (s.setRd t c rd v lat).focus = s.focus := by
  unfold State.setRd
  dsimp only
  split <;> rfl

/-- A result as one update of the hart. -/
theorem State.result_eq (s : State) (t c : Nat) (rd : BitVec 5) (v : W64) (lat : Nat) :
    s.result t c rd v lat = s.modHart t c fun h =>
      { h with x := if rd = 0 then h.x else tabPut h.x rd.toNat v,
               regAt := if rd = 0 then h.regAt else tabPut h.regAt rd.toNat ((s.tile t).clk + lat),
               pc := h.pc + BitVec.ofNat 64 s.focus.len } := by
  rw [State.result, State.advance_eq, State.focus_setRd, State.setRd]
  split
  · rfl
  · rw [State.modHart_modHart]

theorem State.getX_modHart (s : State) (t c : Nat) (f : Hart → Hart) (q : BitVec 5) :
    (s.modHart t c f).getX t c q = if q = 0 then 0 else tabGet 0 (f (s.hart t c)).x q.toNat := by
  simp [State.getX]

theorem State.getX_result (s : State) (t c : Nat) (rd q : BitVec 5) (v : W64) (lat : Nat) :
    (s.result t c rd v lat).getX t c q = if q = 0 then 0 else if q = rd then v else s.getX t c q := by
  rw [State.result_eq, State.getX_modHart]
  by_cases hq : q = 0#5
  · simp [hq]
  · by_cases hr : rd = 0#5
    · subst hr; simp [hq, State.getX]
    · by_cases h : q = rd
      · subst h; simp [hq]
      · have : q.toNat ≠ rd.toNat := by simpa [BitVec.toNat_inj] using h
        simp [hq, hr, h, tabGet_put_other _ _ _ this, State.getX]

theorem State.hart_result_pc (s : State) (t c : Nat) (rd : BitVec 5) (v : W64) (lat : Nat) :
    ((s.result t c rd v lat).hart t c).pc = (s.hart t c).pc + BitVec.ofNat 64 s.focus.len := by
  simp [State.result_eq]

/-! ### Accesses of the scratchpad (R22, R61) -/

/-- An access that is aligned, reachable, unwatched and, where it reads, without error does what it does. -/
theorem State.hartAccess_ok {s : State} {t c : Nat} {a : W64} {n mis : Nat} {r w : Bool} (f : State → State)
    (ha : a.toNat % n = 0) (hr : s.hartReaches t c a n = true)
    (hw : ((r && (s.ctx t c).watched false a.toNat n) || (w && (s.ctx t c).watched true a.toNat n)) = false)
    (he : (r && s.localBad t a.toNat n) = false) : s.hartAccess t c a n mis r w f = f s := by
  simp only [State.hartAccess, State.accessCause, ha, hr]
  simp [hw, he]

/-- A transfer of control to an address that raises no exception: rd takes the link, the pc the address, the next issue is 2 cycles
on (R61, R62). -/
theorem State.jump_ok {s : State} {t c : Nat} {rd : BitVec 5} {link a : W64} (h : jumpCause a = none) :
    s.jump t c rd link a = (s.setRd t c rd link 1).modHart t c fun h => { h with pc := a, nextAt := (s.tile t).clk + 2 } := by
  simp [State.jump, h]

theorem State.jump_raises {s : State} {t c k : Nat} {rd : BitVec 5} {link a : W64} (h : jumpCause a = some k) :
    s.jump t c rd link a = s.raise t c k a := by
  simp [State.jump, h]

theorem State.hartAccess_misaligned {s : State} {t c : Nat} {a : W64} {n mis : Nat} {r w : Bool} (f : State → State)
    (ha : a.toNat % n ≠ 0) : s.hartAccess t c a n mis r w f = s.raise t c mis a := by
  simp [State.hartAccess, State.accessCause, ha]

theorem State.hartAccess_outside {s : State} {t c : Nat} {a : W64} {n mis : Nat} {r w : Bool} (f : State → State)
    (ha : a.toNat % n = 0) (hr : s.hartReaches t c a n = false) : s.hartAccess t c a n mis r w f = s.raise t c (mis + 1) a := by
  simp [State.hartAccess, State.accessCause, ha, hr]

/-! ### What a stop leaves of memory (R343) -/

/-- Memory, host memory and every semaphore are what they were. -/
def State.Quiet (s u : State) : Prop := u.mem = s.mem ∧ u.hostMem = s.hostMem ∧ ∀ x g, u.sem x g = s.sem x g

theorem State.Quiet.refl (s : State) : s.Quiet s := ⟨rfl, rfl, fun _ _ => rfl⟩

theorem State.Quiet.trans {s u v : State} (h : s.Quiet u) (k : u.Quiet v) : s.Quiet v :=
  ⟨k.1.trans h.1, k.2.1.trans h.2.1, fun x g => (k.2.2 x g).trans (h.2.2 x g)⟩

/-- A change of the tiles that keeps every semaphore is quiet. -/
theorem State.quiet_modTile (s : State) (t : Nat) (f : Tile → Tile) (h : ∀ x, (f x).sems = x.sems) : s.Quiet (s.modTile t f) := by
  refine ⟨rfl, rfl, fun x g => ?_⟩
  simp only [State.sem, State.tile_modTile]
  split
  · next e => rw [h, e]
  · rfl

theorem State.quiet_modEngine (s : State) (t : Nat) (f : Engine → Engine) : s.Quiet (s.modEngine t f) := s.quiet_modTile t _ fun _ => rfl

theorem State.quiet_modCtx (s : State) (t c : Nat) (f : Ctx → Ctx) : s.Quiet (s.modCtx t c f) := s.quiet_modTile t _ fun _ => rfl

/-- A state with the tiles, memory and host memory of another is quiet. -/
theorem State.quiet_same {s u : State} (h : u.tiles = s.tiles) (m : u.mem = s.mem) (k : u.hostMem = s.hostMem) : s.Quiet u :=
  ⟨m, k, fun _ _ => by simp only [State.sem, State.tile, h]⟩

theorem State.quiet_noteEcc (s : State) (l : List Nat) : s.Quiet (s.noteEcc l) := by
  unfold State.noteEcc
  split <;> exact State.quiet_same rfl rfl rfl

theorem State.quiet_translate (s : State) (t : Nat) (a : W16) (va : W64) (n : Need) : s.Quiet (s.translate t a va n).1 := by
  have fill (e : TlbEntry) : s.Quiet (s.tlbFill t e) := by
    unfold State.tlbFill
    dsimp only
    split
    · exact s.quiet_modTile t _ fun _ => rfl
    · exact (s.quiet_modTile t (fun x => { x with tlb := (s.tile t).tlb.eraseIdx (Config.tlbVictim s.free % 256) ++ [e] })
        fun _ => rfl).trans (State.quiet_same rfl rfl rfl)
  unfold State.translate
  dsimp only
  repeat' split
  all_goals first
    | exact fill _
    | exact s.quiet_noteEcc _
    | exact State.Quiet.refl _

theorem State.quiet_send (s : State) (d : Nat) (h : Home) (b : Body) (l : List Nat) (o : Option (Nat × Nat)) (va : W64) :
    s.Quiet (s.send d h b l o va).1 := by
  unfold State.send
  split <;> exact State.quiet_same rfl rfl rfl

theorem State.quiet_record (s : State) (t c : Nat) (r : FaultRec) : s.Quiet (s.record t c r).1 := by
  unfold State.record
  dsimp only
  split
  · exact State.Quiet.refl _
  · split
    · exact s.quiet_modCtx t c _
    · generalize hp : s.translate t (s.asidOf t c) _ _ = p
      have htr : s.Quiet p.1 := by rw [← hp]; exact s.quiet_translate t _ _ _
      obtain ⟨v, e⟩ := p
      cases e with
      | error _ => exact htr.trans (v.quiet_modCtx t c _)
      | ok d =>
        have ok (l : List Byte) (f : Option Nat) :
            s.Quiet ((v.postBytes t c d l f []).1.modCtx t c fun x => { x with seq := x.seq + 1 }) :=
          (htr.trans (v.quiet_send _ _ _ _ _ _)).trans (State.quiet_modCtx _ t c _)
        cases d with
        | host a => exact ok _ _
        | hbm a k =>
          dsimp only
          by_cases hb : v.eccBad a = true
          · rw [if_pos hb]; exact htr.trans (v.quiet_modCtx t c _)
          · rw [if_neg hb]; exact ok _ _

theorem State.quiet_event (s : State) (t c code reason : Nat) (arg : W64) : s.Quiet (s.event t c code reason arg) := by
  unfold State.event
  split
  · exact State.Quiet.refl _
  · exact s.quiet_record t c _

/-- A fatal stop of a hart that is not blocked leaves memory and semaphores as they are (R343, R353). -/
theorem State.fatal_quiet {s : State} {t c : Nat} (r : Stop) (hst : (s.ctx t c).st = .resident) (hw : (s.hart t c).wait = none) :
    s.Quiet (s.fatal t c r) := by
  have hh : (((s.drainItems t c).leaveTurn t c).dropLoop t c).hart t c = s.hart t c := by
    simp [State.dropLoop, State.leaveTurn, State.drainItems, State.hart]
  have hb (v : State) (hv : (v.hart t c).wait = none) :
      v.hartBoundary t c = v.modHart t c fun h => { h with reservation := none } := by simp [State.hartBoundary, hv]
  rw [State.fatal]
  dsimp only
  split
  · exact State.Quiet.refl _
  rw [if_neg (by simp [hst]), if_neg (by simp [hst]), hb _ (by rw [hh]; exact hw)]
  have h0 : s.Quiet (((s.drainItems t c).leaveTurn t c).dropLoop t c) :=
    (((s.quiet_modEngine t _).trans (State.quiet_modCtx _ t c _)).trans (State.quiet_modEngine _ t _)).trans
      (State.quiet_modEngine _ t _)
  have q (v : State) (l : List Session) : v.Quiet { v with sessions := l } := State.quiet_same rfl rfl rfl
  exact (((h0.trans (State.quiet_modCtx _ t c _)).trans (q _ _)).trans (State.quiet_modCtx _ t c _)).trans
    (State.quiet_event _ t c r.code 0 0)

/-! ### What a stop leaves of its context (R341, R343, R353) -/

theorem State.ctx_tlbFill (s : State) (t u c : Nat) (e : TlbEntry) : (s.tlbFill t e).ctx u c = s.ctx u c := by
  have key (f : Tile → Tile) (hf : ∀ x, (f x).ctxs = x.ctxs) : (s.modTile t f).ctx u c = s.ctx u c := by
    simp only [State.ctx, State.tile_modTile]
    split
    · next h => rw [hf, h]
    · rfl
  unfold State.tlbFill
  dsimp only
  split
  · exact key _ fun _ => rfl
  · exact key (fun x => { x with tlb := (s.tile t).tlb.eraseIdx (Config.tlbVictim s.free % 256) ++ [e] }) fun _ => rfl

@[simp] theorem State.ctx_noteEcc (s : State) (l : List Nat) (u c : Nat) : (s.noteEcc l).ctx u c = s.ctx u c := by
  unfold State.noteEcc
  split <;> rfl

/-- Translation leaves every context as it is. -/
theorem State.ctx_translate (s : State) (t u c : Nat) (a : W16) (va : W64) (n : Need) :
    (s.translate t a va n).1.ctx u c = s.ctx u c := by
  unfold State.translate
  dsimp only
  repeat' split
  all_goals first
    | exact s.ctx_tlbFill t u c _
    | exact s.ctx_noteEcc _ u c
    | rfl

/-- A message on its way leaves every tile as it is: its own die's clock and the messages change. -/
theorem State.tiles_send (s : State) (d : Nat) (h : Home) (b : Body) (l : List Nat) (o : Option (Nat × Nat)) (va : W64) :
    (s.send d h b l o va).1.tiles = s.tiles := by
  unfold State.send
  split <;> rfl

theorem State.ctx_postBytes (s : State) (t c : Nat) (d : Dest) (l : List Byte) (f : Option Nat) (o : List Nat) (u k : Nat) :
    (s.postBytes t c d l f o).1.ctx u k = s.ctx u k := by
  simp only [State.ctx, State.tile, State.postBytes, State.tiles_send]

@[simp] theorem State.ctx_modPage (s : State) (f u c : Nat) (g : FnPage → FnPage) : (s.modPage f g).ctx u c = s.ctx u c := rfl

theorem State.ctx_msix (s : State) (f v u c : Nat) : (s.msix f v).ctx u c = s.ctx u c := rfl

/-- What a record in a fault queue leaves of a context: its count of records or of lost ones has changed at most. -/
def Ctx.Logged (x y : Ctx) : Prop := y = { x with seq := y.seq, lost := y.lost }

theorem Ctx.logged_refl (x : Ctx) : x.Logged x := rfl

theorem State.record_logged (s : State) (t c : Nat) (r : FaultRec) (u d : Nat) :
    (s.ctx u d).Logged ((s.record t c r).1.ctx u d) := by
  have lose (v : State) (hv : v.ctx u d = s.ctx u d) (w : v.ctx t c = s.ctx t c) :
      (s.ctx u d).Logged ((v.modCtx t c fun x => { x with lost := x.lost + 1 }).ctx u d) := by
    rw [State.ctx_modCtx]
    split
    · next h => rw [w, h.1, h.2]; rfl
    · rw [hv]; rfl
  unfold State.record
  dsimp only
  split
  · rfl
  · split
    · exact lose s rfl rfl
    · generalize hp : s.translate t (s.asidOf t c) _ _ = p
      have htr (u d : Nat) : p.1.ctx u d = s.ctx u d := by rw [← hp]; exact s.ctx_translate t u d _ _ _
      obtain ⟨v, e⟩ := p
      cases e with
      | error _ => exact lose v (htr u d) (htr t c)
      | ok d' =>
        have ok (l : List Byte) (f : Option Nat) : (s.ctx u d).Logged (((v.postBytes t c d' l f []).1.modCtx t c fun x =>
            { x with seq := x.seq + 1 }).ctx u d) := by
          simp only [State.ctx_modCtx, State.ctx_postBytes]
          split
          · next hu => rw [hu.1, hu.2, htr t c]; rfl
          · rw [htr u d]; rfl
        cases d' with
        | host a => exact ok _ _
        | hbm a k =>
          dsimp only
          by_cases hb : v.eccBad a = true
          · rw [if_pos hb]; exact lose v (htr u d) (htr t c)
          · rw [if_neg hb]; exact ok _ _

theorem State.event_logged (s : State) (t c code reason : Nat) (arg : W64) (u d : Nat) :
    (s.ctx u d).Logged ((s.event t c code reason arg).ctx u d) := by
  unfold State.event
  split
  · rfl
  · exact s.record_logged t c _ u d

/-- A fatal stop of a resident or saved context whose hart is not blocked: the context is faulted and keeps its stop, its
hart its registers and pc (R343, R353). -/
theorem State.fatal_ctx {s : State} {t c : Nat} (r : Stop) (h : (s.ctx? t c).isSome = true)
    (hst : (s.ctx t c).st = .resident) (hw : (s.hart t c).wait = none) :
    ((s.fatal t c r).ctx t c).st = .faulted ∧ ((s.fatal t c r).ctx t c).stop = some r
      ∧ ((s.fatal t c r).hart t c) = { s.hart t c with reservation := none } := by
  have hn : (s.ctx? t c).isNone = false := by simpa using h
  have hb (v : State) (hv : (v.hart t c).wait = none) :
      v.hartBoundary t c = v.modHart t c fun h => { h with reservation := none } := by simp [State.hartBoundary, hv]
  have hh : (((s.drainItems t c).leaveTurn t c).dropLoop t c).hart t c = s.hart t c := by
    simp [State.dropLoop, State.leaveTurn, State.drainItems, State.hart]
  rw [State.fatal]
  dsimp only
  rw [if_neg (by simp [hn]), if_neg (by simp [hst]), if_neg (by simp [hst]), hb _ (by rw [hh]; exact hw)]
  generalize hv : State.modCtx _ t c _ = v
  have key : (v.ctx t c).st = .faulted ∧ (v.ctx t c).stop = some r ∧ (v.ctx t c).hart = { s.hart t c with reservation := none } := by
    rw [← hv, State.ctx_modCtx_same, ← hh]
    refine ⟨rfl, rfl, ?_⟩
    exact State.hart_modHart (((s.drainItems t c).leaveTurn t c).dropLoop t c) t c (fun h => { h with reservation := none })
  have hl := v.event_logged t c r.code 0 0 t c
  simp only [Ctx.Logged] at hl
  refine ⟨?_, ?_, ?_⟩
  · rw [hl]; exact key.1
  · rw [hl]; exact key.2.1
  · rw [State.hart, hl]; exact key.2.2

/-- A stop that no debugger catches is fatal. -/
theorem State.takeStop_fatal {s : State} {t c : Nat} {r : Stop} (hd : (s.ctx t c).dbg.attached = false)
    (h1 : r.code ≠ 0x0B) (h2 : r.code ≠ 0x0C) : s.takeStop t c r = s.fatal t c r := by
  simp [State.takeStop, h1, h2, hd, Debug.catches]

@[simp] theorem State.ctx_charge (s : State) (t u c : Nat) (l : List Nat) (k : Cause) (o p : Nat) :
    (s.charge t l k o p).ctx u c = s.ctx u c := by
  simp only [State.charge, State.ctx, State.tile_modTile]
  split
  · next h => rw [h]
  · rfl

theorem State.ctx?_charge (s : State) (t u c : Nat) (l : List Nat) (k : Cause) (o p : Nat) :
    (s.charge t l k o p).ctx? u c = s.ctx? u c := by
  simp only [State.charge, State.ctx?, State.tile_modTile]
  split
  · next h => rw [h]
  · rfl

theorem State.hartStop_code (s : State) (t c cause : Nat) (v : W64) (w : W32) : (s.hartStop t c cause v w).code = 0x40 + cause :=
  rfl

/-- An exception of a hart that runs without a debugger: the context is faulted with the stop of R344, and its hart keeps
every register and its pc (R61, R343). -/
theorem State.raise_ctx {s : State} {t c cause : Nat} {v : W64} (h : (s.ctx? t c).isSome = true)
    (hst : (s.ctx t c).st = .resident) (hd : (s.ctx t c).dbg.attached = false) (hw : (s.hart t c).wait = none) :
    ((s.raise t c cause v).ctx t c).st = .faulted
      ∧ ((s.raise t c cause v).ctx t c).stop = some (s.hartStop t c cause v (s.pcWord t c))
      ∧ (s.raise t c cause v).hart t c = { s.hart t c with reservation := none } := by
  have e : (s.raise t c cause v) =
      (s.charge t [8] .fault (s.ctx t c).num (s.ctx t c).hart.pc.toNat).fatal t c (s.hartStop t c cause v (s.pcWord t c)) := by
    rw [State.raise]
    rw [State.takeStop_fatal (r := s.hartStop t c cause v (s.pcWord t c)) (by simpa using hd)
      (by rw [State.hartStop_code]; omega) (by rw [State.hartStop_code]; omega)]
    simp [hd, Debug.catches]
  rw [e]
  have := State.fatal_ctx (s := s.charge t [8] .fault (s.ctx t c).num (s.ctx t c).hart.pc.toNat)
    (s.hartStop t c cause v (s.pcWord t c)) (by rw [State.ctx?_charge]; exact h) (by simpa using hst)
    (by simpa [State.hart] using hw)
  simpa [State.hart] using this

/-- An exception of a hart that runs without a debugger leaves memory and semaphores as they are (R343). -/
theorem State.raise_quiet {s : State} {t c : Nat} (hst : (s.ctx t c).st = .resident) (hd : (s.ctx t c).dbg.attached = false)
    (hw : (s.hart t c).wait = none) (cause : Nat) (v : W64) : s.Quiet (s.raise t c cause v) := by
  rw [State.raise, State.takeStop_fatal (r := s.hartStop t c cause v (s.pcWord t c)) (by simpa using hd)
      (by rw [State.hartStop_code]; omega) (by rw [State.hartStop_code]; omega)]
  generalize hv : s.charge t [8] _ _ _ = v'
  have e (u k : Nat) : v'.ctx u k = s.ctx u k := by rw [← hv, State.ctx_charge]
  have q : s.Quiet v' := by rw [← hv]; exact s.quiet_modTile t _ fun _ => rfl
  exact q.trans (State.fatal_quiet _ (by rw [e]; exact hst) (by rw [State.hart, e]; exact hw))

/-- A fatal stop leaves every other hart as it is. -/
theorem State.fatal_hart_other {s : State} {t c : Nat} (r : Stop) (h : (s.ctx? t c).isSome = true)
    (hst : (s.ctx t c).st = .resident) (hw : (s.hart t c).wait = none) {u d : Nat} (n : ¬(u = t ∧ d = c)) :
    (s.fatal t c r).hart u d = s.hart u d := by
  have hn : (s.ctx? t c).isNone = false := by simpa using h
  have hb (v : State) (hv : (v.hart t c).wait = none) :
      v.hartBoundary t c = v.modHart t c fun h => { h with reservation := none } := by simp [State.hartBoundary, hv]
  have hh (u d : Nat) : (((s.drainItems t c).leaveTurn t c).dropLoop t c).ctx u d = (s.drainItems t c).ctx u d := by
    simp [State.dropLoop, State.leaveTurn]
  have hk : (((s.drainItems t c).leaveTurn t c).dropLoop t c).hart t c = s.hart t c := by
    simp [State.dropLoop, State.leaveTurn, State.drainItems, State.hart]
  rw [State.fatal]
  dsimp only
  rw [if_neg (by simp [hn]), if_neg (by simp [hst]), if_neg (by simp [hst]), hb _ (by rw [hk]; exact hw)]
  generalize hv : State.modCtx _ t c _ = v
  have key : (v.ctx u d).hart = s.hart u d := by
    rw [← hv, State.ctx_modCtx_other _ _ n]
    have := State.hart_modHart_other (((s.drainItems t c).leaveTurn t c).dropLoop t c) (fun h => { h with reservation := none }) n
    refine (show _ = (State.hart _ u d) from rfl).trans (this.trans ?_)
    rw [State.hart, hh, State.drainItems]
    simp [State.ctx_modCtx_other _ _ n, State.hart]
  have hl := v.event_logged t c r.code 0 0 u d
  simp only [Ctx.Logged] at hl
  rw [State.hart, hl]; exact key

theorem State.raise_hart_other {s : State} {t c cause : Nat} {v : W64} (h : (s.ctx? t c).isSome = true)
    (hst : (s.ctx t c).st = .resident) (hd : (s.ctx t c).dbg.attached = false) (hw : (s.hart t c).wait = none)
    {u d : Nat} (n : ¬(u = t ∧ d = c)) : (s.raise t c cause v).hart u d = s.hart u d := by
  rw [State.raise, State.takeStop_fatal (r := s.hartStop t c cause v (s.pcWord t c)) (by simpa using hd)
      (by rw [State.hartStop_code]; omega) (by rw [State.hartStop_code]; omega),
    State.fatal_hart_other _ (by rw [State.ctx?_charge]; exact h) (by simpa using hst) (by simpa [State.hart] using hw) n]
  simp [State.hart]

/-! ### Writes of the scratchpad (R22, R61) -/

/-- Writing bytes below the semaphore block changes memory only. -/
theorem State.pokeLocals_eq (t : Nat) (l : List Byte) : ∀ (s : State) (a : Nat),
    s.pokeLocals t a l = { s with mem := (s.pokeLocals t a l).mem } := by
  induction l with
  | nil => intro _ _; rfl
  | cons b l ih =>
    intro s a
    rw [State.pokeLocals, ih]
    unfold State.pokeLocal
    split <;> rfl

/-- A byte of package memory after bytes were written below the semaphore block. -/
theorem State.cellRead_pokeLocals (t : Nat) (l : List Byte) : ∀ (s : State) (a p : Nat), a + l.length ≤ semBase →
    cellRead (s.pokeLocals t a l).mem p =
      if sliceAddr t a ≤ p ∧ p < sliceAddr t a + l.length then l.getD (p - sliceAddr t a) 0 else cellRead s.mem p := by
  induction l with
  | nil => intro s a p _; simp [State.pokeLocals] <;> omega
  | cons b l ih =>
    intro s a p h
    simp only [List.length_cons] at h ⊢
    have hs : sliceAddr t (a + 1) = sliceAddr t a + 1 := by simp [sliceAddr]; omega
    rw [State.pokeLocals, ih _ _ _ (by omega), hs]
    have hm : (s.pokeLocal t a b).mem = cellWrite s.mem (sliceAddr t a) b := by
      unfold State.pokeLocal; rw [if_neg (by omega)]
    by_cases h1 : p = sliceAddr t a
    · subst h1
      rw [if_neg (by omega), if_pos (by omega), hm]
      simp
    · by_cases h2 : sliceAddr t a + 1 ≤ p ∧ p < sliceAddr t a + 1 + l.length
      · rw [if_pos h2, if_pos (by omega)]
        obtain ⟨k, hk⟩ : ∃ k, p - sliceAddr t a = k + 1 := ⟨p - sliceAddr t a - 1, by omega⟩
        rw [hk, show p - (sliceAddr t a + 1) = k by omega]
        rfl
      · rw [if_neg h2, if_neg (by omega), hm, cellRead_write_other _ _ h1]

theorem State.mem_writeLocal (s : State) (t a : Nat) (l : List Byte) (c : Option Nat) :
    (s.writeLocal t a l c).mem = (s.pokeLocals t a l).mem := rfl

/-- A write of the scratchpad changes nothing outside memory and the tiles. -/
theorem State.writeLocal_frame (s : State) (t a : Nat) (l : List Byte) (c : Option Nat) :
    { s.writeLocal t a l c with mem := s.mem, tiles := s.tiles } = s := by
  have h := s.pokeLocals_eq t l a
  simp only [State.writeLocal, State.taintWindows, State.breakReservations, State.modTile, State.setTile]
  rw [h]

theorem tabGet?_map {α : Type} (f : α → α) (l : Tab α) (k : Nat) :
    tabGet? (l.map fun e => (e.1, f e.2)) k = (tabGet? l k).map f := by
  induction l with
  | nil => rfl
  | cons e l ih =>
    simp only [List.map_cons, tabGet?]
    split
    · rfl
    · exact ih

/-- What breaking reservations may change of a context. -/
theorem State.ctx_breakReservations (s : State) (t a n : Nat) (w : Option Nat) (u d : Nat) :
    ∃ r, (s.breakReservations t a n w).ctx u d = { s.ctx u d with hart := { (s.ctx u d).hart with reservation := r } } := by
  by_cases h : u = t
  · subst h
    simp only [State.ctx, State.breakReservations, State.tile_modTile_same, tabGet]
    have key : ∀ (l : Tab Ctx), ∃ r, (tabGet? (l.map fun e => (e.1, match e.2.hart.reservation with
        | some l => if lineOf a ≤ l ∧ l ≤ lineOf (a + n - 1) ∧ w ≠ some e.1 then
            { e.2 with hart := { e.2.hart with reservation := none } } else e.2
        | none => e.2)) d).getD Ctx.reset
        = { (tabGet? l d).getD Ctx.reset with hart := { ((tabGet? l d).getD Ctx.reset).hart with reservation := r } } := by
      intro l
      induction l with
      | nil => exact ⟨_, rfl⟩
      | cons e l ih =>
        simp only [List.map_cons, tabGet?]
        split
        · simp only [Option.getD_some]
          split
          · split
            · exact ⟨_, rfl⟩
            · exact ⟨e.2.hart.reservation, rfl⟩
          · exact ⟨e.2.hart.reservation, rfl⟩
        · exact ih
    exact key _
  · exact ⟨(s.ctx u d).hart.reservation, by simp [State.ctx, State.breakReservations, State.tile_modTile, h]⟩

/-- What a write may disturb in a context: the taint of its saved windows, the changed words of its gathers. -/
theorem State.ctx_taintWindows (s : State) (t a n : Nat) (u d : Nat) :
    ∃ (f : Item → Item) (g : Entry → Entry), (s.taintWindows t a n).ctx u d =
      { s.ctx u d with replay := (s.ctx u d).replay.map f, chans := (s.ctx u d).chans.map fun q => (q.1, q.2.map g) } := by
  by_cases h : u = t
  · subst h
    refine ⟨fun i => { i with kind := i.kind.taint a n }, s.taintEntry u a n, ?_⟩
    have := tabGet?_map (s.taintCtx u a n) (s.tile u).ctxs d
    simp only [State.ctx, State.taintWindows, State.tile_modTile_same, tabGet]
    rw [this]
    cases tabGet? (s.tile u).ctxs d <;> rfl
  · exact ⟨id, id, by simp [State.ctx, State.taintWindows, State.tile_modTile, h]⟩

theorem State.ctx_pokeLocals (s : State) (t a : Nat) (l : List Byte) (u d : Nat) : (s.pokeLocals t a l).ctx u d = s.ctx u d := by
  rw [State.pokeLocals_eq]; rfl

/-- What a write of the scratchpad may change of a context: its hart's reservation, the taint of its saved windows, the changed
words of its gathers. -/
theorem State.ctx_writeLocal (s : State) (t a : Nat) (l : List Byte) (w : Option Nat) (u d : Nat) :
    ∃ (f : Item → Item) (g : Entry → Entry) (r : Option Nat), (s.writeLocal t a l w).ctx u d =
      { s.ctx u d with replay := (s.ctx u d).replay.map f, chans := (s.ctx u d).chans.map fun q => (q.1, q.2.map g),
                       hart := { (s.ctx u d).hart with reservation := r } } := by
  obtain ⟨f, g, hf⟩ := ((s.pokeLocals t a l).breakReservations t a l.length w).ctx_taintWindows t a l.length u d
  obtain ⟨r, hr⟩ := (s.pokeLocals t a l).ctx_breakReservations t a l.length w u d
  refine ⟨f, g, r, ?_⟩
  rw [State.writeLocal, hf, hr, State.ctx_pokeLocals]

theorem State.sem_breakReservations (s : State) (t a n : Nat) (w : Option Nat) (u g : Nat) :
    (s.breakReservations t a n w).sem u g = s.sem u g := by
  simp only [State.sem, State.breakReservations, State.tile_modTile]
  split
  · next h => rw [h]
  · rfl

theorem State.sem_writeLocal (s : State) (t a : Nat) (l : List Byte) (w : Option Nat) (u g : Nat) :
    (s.writeLocal t a l w).sem u g = s.sem u g := by
  have h1 (v : State) : (v.taintWindows t a l.length).sem u g = v.sem u g := by
    simp only [State.sem, State.taintWindows, State.tile_modTile]
    split
    · next h => rw [h]
    · rfl
  rw [State.writeLocal, h1, State.sem_breakReservations, State.pokeLocals_eq]
  rfl

end Sys2Proof.Machine
end

