-- ==== Sys2Proof/Laws/Claims.lean ====
section
/-! SUPPORT. How the shared operations meet the terms of the claims: results, passing on, exceptions, stores. -/

namespace Sys2Proof.Safety

open Sys2Proof.Machine

theorem bytesKept_quiet {s u : State} (h : s.Quiet u) : BytesKept s u :=
  ⟨fun _ => by rw [h.1], h.2.2, fun _ => by rw [h.2.1]⟩

theorem BytesKept.refl (s : State) : BytesKept s s := ⟨fun _ => rfl, fun _ _ => rfl, fun _ => rfl⟩

theorem bytesKept_modHart (s : State) (t c : Nat) (f : Hart → Hart) : BytesKept s (s.modHart t c f) :=
  ⟨fun _ => rfl, fun _ _ => s.sem_modHart t _ c _ f, fun _ => rfl⟩

theorem bytesKept_modCtx (s : State) (t c : Nat) (f : Ctx → Ctx) : BytesKept s (s.modCtx t c f) :=
  ⟨fun _ => rfl, fun _ _ => s.sem_modCtx t _ c _ f, fun _ => rfl⟩

theorem onlyHart_modHart (s : State) (t c : Nat) (f : Hart → Hart) : OnlyHart s (s.modHart t c f) t c := by
  simp only [OnlyHart, State.hart_modHart]
  rfl

/-- An instruction of the control core with legal operand codes completes as what it does leaves the state. -/
theorem completes_hart {s : State} {t c : Nat} {i : Instr} {P : State → Prop} (h : At s t c) (f : Nat → Nat → State → State)
    (e : exec i s = s.hartDo i f) (w : wellFormed i = true) (p : P (f t c s)) : Completes i s P := by
  obtain ⟨rfl, rfl, h⟩ := h
  exact ⟨_, e.trans (State.hartDo_next h w f), p⟩

theorem completes_illegal {s : State} {t c : Nat} {i : Instr} {P : State → Prop} (h : At s t c) (f : Nat → Nat → State → State)
    (e : exec i s = s.hartDo i f) (w : wellFormed i = false) (p : P (s.illegal t c)) : Completes i s P := by
  obtain ⟨rfl, rfl, h⟩ := h
  exact ⟨_, e.trans (State.hartDo_illegal h w f), p⟩

/-- A result sets its register. -/
theorem sets_result (s : State) (t c : Nat) (rd : BitVec 5) (v : W64) (lat : Nat) :
    Sets s (s.result t c rd v lat) t c rd v lat := by
  refine ⟨fun q => s.getX_result t c rd q v lat, ?_, s.hart_result_pc t c rd v lat, ?_, ?_⟩
  · intro h
    rw [State.result_eq]
    simp only [State.hart_modHart, if_neg h, tabGet_put_same]
  · simp only [State.result_eq, State.hart_modHart]
    rfl
  · rw [State.result_eq]; exact bytesKept_modHart _ _ _ _

theorem passes_advance (s : State) (t c : Nat) : Passes s (s.advance t c) t c := ⟨rfl, bytesKept_modHart _ _ _ _⟩

/-- An exception of a hart that runs traps. -/
theorem traps_raise {s : State} {t c : Nat} (h : At s t c) (r : Running s t c) (cause : Nat) (v : W64) :
    Traps s (s.raise t c cause v) t c cause v := by
  obtain ⟨-, -, h⟩ := h
  obtain ⟨h1, h2, h3⟩ := r
  have k := State.raise_ctx (cause := cause) (v := v) h h1 h2 h3
  refine ⟨k.1, ⟨_, k.2.1, rfl, rfl, rfl, rfl, rfl, rfl, rfl⟩, by rw [k.2.2], fun x d q => ?_,
    bytesKept_quiet (s.raise_quiet h1 h2 h3 cause v)⟩
  by_cases n : x = t ∧ d = c
  · rw [n.1, n.2]; simp [State.getX, k.2.2]
  · simp [State.getX, State.raise_hart_other h h1 h2 h3 n]

/-- A write of the scratchpad below the semaphore block stores its bytes and nothing else (R22, R61). -/
theorem stores_writeLocal (s : State) (t a : Nat) (l : List Byte) (c : Option Nat) (h : a + l.length ≤ semBase) :
    Stores s (s.writeLocal t a l c) t a l := by
  have hm (p : Nat) := State.cellRead_pokeLocals t l s a p h
  refine ⟨fun x b => ?_, fun p hp => ?_, fun x g => s.sem_writeLocal t a l c x g, fun x d => ?_, s.writeLocal_frame t a l c⟩
  · unfold State.localByte
    split
    · rw [State.sem_writeLocal, if_neg (by omega)]
    · next hb =>
      rw [State.mem_writeLocal, hm]
      have hs : sliceAddr x b = sliceAddr t a + (b - a) ↔ x = t ∧ a ≤ b := by
        simp only [sliceAddr, semBase] at *; omega
      by_cases hx : x = t ∧ a ≤ b ∧ b < a + l.length
      · have := hs.2 ⟨hx.1, hx.2.1⟩
        rw [if_pos hx, if_pos (by omega), this]
        congr 1
        omega
      · rw [if_neg hx, if_neg]
        simp only [sliceAddr, semBase] at *; omega
  · rw [State.mem_writeLocal, hm, if_neg (by omega)]
  · obtain ⟨f, g, r, e⟩ := s.ctx_writeLocal t a l c x d
    rw [State.bun, e]; rfl

/-- Such a write leaves every hart but for reservations. -/
theorem hart_writeLocal (s : State) (t a : Nat) (l : List Byte) (c : Option Nat) (x d : Nat) :
    ∃ r, (s.writeLocal t a l c).hart x d = { s.hart x d with reservation := r } := by
  obtain ⟨f, g, r, e⟩ := s.ctx_writeLocal t a l c x d
  exact ⟨r, by rw [State.hart, e]; rfl⟩

/-- What a hart does to itself besides takes nothing from a store. -/
theorem stores_modHart {s u : State} {t a : Nat} {l : List Byte} (h : Stores s u t a l) (x d : Nat) (f : Hart → Hart) :
    Stores s (u.modHart x d f) t a l := by
  obtain ⟨h1, h2, h3, h4, h5⟩ := h
  exact ⟨fun y b => by rw [State.localByte_modHart]; exact h1 y b, h2, fun y g => by rw [State.sem_modHart]; exact h3 y g,
    fun y e => by rw [State.bun_modHart]; exact h4 y e, h5⟩

/-- An access that a hart's address allows goes through. -/
theorem hartAccess_reaches {s : State} {t c : Nat} {a : W64} {n mis : Nat} {r w : Bool} (f : State → State)
    (h : Reaches s t c a n r w) : s.hartAccess t c a n mis r w f = f s := by
  obtain ⟨h1, h2, h3, h4, h5⟩ := h
  refine State.hartAccess_ok f h1 h2 ?_ ?_ <;> cases r <;> cases w <;> simp_all

/-- An aligned access that begins below the semaphore block ends there. -/
theorem Reaches.ends {s : State} {t c : Nat} {a : W64} {n : Nat} {r w : Bool} (h : Reaches s t c a n r w) (hn : n ∣ 4096)
    (hb : a.toNat < semBase) : a.toNat + n ≤ semBase := by
  obtain ⟨k, hk⟩ := hn
  have h0 := Nat.div_add_mod a.toNat n
  rw [h.1] at h0
  have hs : semBase = n * (k * 1023) := by rw [← Nat.mul_assoc, ← hk]; rfl
  rw [hs] at hb ⊢
  have h1 : n * (a.toNat / n) < n * (k * 1023) := by omega
  have h2 : a.toNat / n < k * 1023 := Nat.lt_of_mul_lt_mul_left h1
  have h3 := Nat.mul_le_mul_left n (show a.toNat / n + 1 ≤ k * 1023 from h2)
  rw [Nat.mul_add] at h3
  omega

/-- A store of the control core below the semaphore block: its bytes, and no register. -/
theorem stores_hartStore {s : State} {t c : Nat} {a : Nat} {l : List Byte} (h : a + l.length ≤ semBase) (h0 : l ≠ []) :
    Stores s (s.hartStore t c a l) t a l ∧ (∀ x d, ∃ r, (s.hartStore t c a l).hart x d = { s.hart x d with reservation := r })
      ∧ (s.hartStore t c a l).focus = s.focus ∧ ((s.hartStore t c a l).tile t).clk = (s.tile t).clk := by
  have hp := List.length_pos_iff.2 h0
  have e : s.hartStore t c a l = s.writeLocal t a l (some c) := by rw [State.hartStore, if_neg (by omega)]
  have st := stores_writeLocal s t a l (some c) h
  rw [e]
  refine ⟨st, fun x d => hart_writeLocal s t a l (some c) x d, ?_, ?_⟩
  · have := congrArg (fun v : State => v.focus) st.2.2.2.2
    exact this
  · simp only [State.writeLocal, State.taintWindows, State.breakReservations, State.tile_modTile_same]
    rw [State.pokeLocals_eq]; rfl

/-- Every instruction of a bundle slot is one run of its slot: the checks of State.slotRun, then its own effect. -/
theorem exec_slotRun (i : Instr) (h : Safety.placesOf i ≠ []) (h' : i ≠ .noOperation) : ∃ f, ∀ s, exec i s = s.slotRun i f := by
  cases i <;> first | exact absurd rfl h | exact absurd rfl h' | (
    constructor
    intro s
    simp only [exec, execAdd, execSub, execMul, execMulh, execMulhn, execAnd, execOr, execXor, execAndn, execShl, execShr,
      execSra, execRotl, execMin, execMax, execMinn, execMaxn, execClz, execPopc, execSel, execAddi,
      execMovi, execMovhi, execShlI, execShrI, execSraI, execRotlI, execAndI, execOrI, execXorI, execCeq,
      execCne, execClt, execCle, execCltn, execClen, execCeqI, execCneI, execCltI, execCleI, execCltnI,
      execClenI, execKand, execKor, execKxor, execSmov, execAset, execAadd, execAget, execBbc, execMark,
      execYield, execFadd, execFsub, execFmul, execFma, execFms, execFnma, execFnms, execFmin, execFmax,
      execFminn, execFmaxn, execFceq, execFclt, execFcle, execFcun, execFclass, execVaddI32, execVsubI32,
      execVmulI32, execVand, execVor, execVxor, execVandn, execVshl, execVshr, execVsra, execVminI32,
      execVmaxI32, execVminN32, execVmaxN32, execVceqI32, execVcltI32, execVcltN32, execVmov, execVmovi,
      execVbcs, execVsel, execPack, execUnpack, execPerm, execBcl, execXcl, execVredAddF, execVredMaxF,
      execVredAddI32, execPart, execPand, execPor, execPxor, execPandn, execPpop, execCvt, execRsqa,
      execRcpa, execExp2a, execLog2a, execSina, execCosa, execTanha, execMma, execMmaAcc, execMzero,
      execMdrain, execMsetF, execMsetC, execMsetS, execRstat, execVld, execVldB, execVldS, execVldx,
      execVst, execVstS, execVstx, execSld, execSst, execSpill, execFill, execSwait, execSpost, execSarm,
      execSarmZ, scalarRR, scalarR, scalarRI, scalarSh, scalarCmp, scalarCmpI, scalarFlag, vec2, fpArith,
      fpSel, fpCompare, vecCmp, predLogic, vecMap, approx, mmaRun]
    rfl)

end Sys2Proof.Safety
end

