-- ==== Sys2Proof/Laws/Coding.lean ====
section
/-! SUPPORT. The fields of the words that the encoder builds (R171 to R174, R197, R206, R245, R302, R306): what each field
of a word is, so that no later proof opens a concatenation. -/

namespace Sys2Proof.Laws

/-- A field that lies in the low part of a concatenation. -/
theorem extract_append_low {m k : Nat} (a : BitVec m) (b : BitVec k) (lo n : Nat) (h : lo + n ≤ k) :
    BitVec.extractLsb' lo n (a ++ b) = BitVec.extractLsb' lo n b := by
  apply BitVec.eq_of_getLsbD_eq
  intro i hi
  simp [BitVec.getLsbD_append, hi, show lo + i < k by omega]

/-- A field that lies in the high part of a concatenation. -/
theorem extract_append_high {m k : Nat} (a : BitVec m) (b : BitVec k) (lo n : Nat) (h : k ≤ lo) :
    BitVec.extractLsb' lo n (a ++ b) = BitVec.extractLsb' (lo - k) n a := by
  apply BitVec.eq_of_getLsbD_eq
  intro i hi
  simp only [BitVec.getLsbD_extractLsb', BitVec.getLsbD_append, hi, decide_true, Bool.true_and,
    show ¬ lo + i < k by omega, if_false]
  congr 1; omega

/-- The whole of a bit vector. -/
theorem extract_all {n : Nat} (a : BitVec n) : BitVec.extractLsb' 0 n a = a := by simp

/-! ### Scalar words (R171, R197) -/

@[simp] theorem sWord_opc (opc : BitVec 7) (kc : BitVec 3) (ds oa : BitVec 6) (ob : BitVec 10) :
    BitVec.extractLsb' 25 7 (sWord opc kc ds oa ob) = opc :=
  (extract_append_high _ _ _ 7 (by decide)).trans ((extract_append_high _ _ _ 7 (by decide)).trans ((extract_append_high _ _ _ 7 (by decide)).trans ((extract_append_high _ _ _ 7 (by decide)).trans (extract_all _))))

@[simp] theorem sWord_kc (opc : BitVec 7) (kc : BitVec 3) (ds oa : BitVec 6) (ob : BitVec 10) :
    BitVec.extractLsb' 22 3 (sWord opc kc ds oa ob) = kc :=
  (extract_append_high _ _ _ 3 (by decide)).trans ((extract_append_high _ _ _ 3 (by decide)).trans ((extract_append_high _ _ _ 3 (by decide)).trans ((extract_append_low _ _ _ 3 (by decide)).trans (extract_all _))))

@[simp] theorem sWord_ds (opc : BitVec 7) (kc : BitVec 3) (ds oa : BitVec 6) (ob : BitVec 10) :
    BitVec.extractLsb' 16 6 (sWord opc kc ds oa ob) = ds :=
  (extract_append_high _ _ _ 6 (by decide)).trans ((extract_append_high _ _ _ 6 (by decide)).trans ((extract_append_low _ _ _ 6 (by decide)).trans (extract_all _)))

@[simp] theorem sWord_oa (opc : BitVec 7) (kc : BitVec 3) (ds oa : BitVec 6) (ob : BitVec 10) :
    BitVec.extractLsb' 10 6 (sWord opc kc ds oa ob) = oa :=
  (extract_append_high _ _ _ 6 (by decide)).trans ((extract_append_low _ _ _ 6 (by decide)).trans (extract_all _))

@[simp] theorem sWord_ob (opc : BitVec 7) (kc : BitVec 3) (ds oa : BitVec 6) (ob : BitVec 10) :
    BitVec.extractLsb' 0 10 (sWord opc kc ds oa ob) = ob :=
  (extract_append_low _ _ _ 10 (by decide)).trans (extract_all _)

/-- A part of the field ds. -/
theorem sWord_ds_part (opc : BitVec 7) (kc : BitVec 3) (ds oa : BitVec 6) (ob : BitVec 10) (lo n : Nat) (h0 : 16 ≤ lo) (h1 : lo + n ≤ 22) :
    BitVec.extractLsb' lo n (sWord opc kc ds oa ob) = BitVec.extractLsb' (lo - 16) n ds := by
  apply BitVec.eq_of_getLsbD_eq
  intro i hi
  have e : BitVec.getLsbD (sWord opc kc ds oa ob) (lo + i) = BitVec.getLsbD ds (lo - 16 + i) := by
    unfold sWord
    simp only [BitVec.getLsbD_append]
    repeat (first | rw [if_pos (by omega)] | rw [if_neg (by omega)])
    congr 1 <;> omega
  simp only [BitVec.getLsbD_extractLsb', hi, decide_true, Bool.true_and, e]

/-- A part of the field oa. -/
theorem sWord_oa_part (opc : BitVec 7) (kc : BitVec 3) (ds oa : BitVec 6) (ob : BitVec 10) (lo n : Nat) (h0 : 10 ≤ lo) (h1 : lo + n ≤ 16) :
    BitVec.extractLsb' lo n (sWord opc kc ds oa ob) = BitVec.extractLsb' (lo - 10) n oa := by
  apply BitVec.eq_of_getLsbD_eq
  intro i hi
  have e : BitVec.getLsbD (sWord opc kc ds oa ob) (lo + i) = BitVec.getLsbD oa (lo - 10 + i) := by
    unfold sWord
    simp only [BitVec.getLsbD_append]
    repeat (first | rw [if_pos (by omega)] | rw [if_neg (by omega)])
    congr 1 <;> omega
  simp only [BitVec.getLsbD_extractLsb', hi, decide_true, Bool.true_and, e]

/-- A part of the field ob. -/
theorem sWord_ob_part (opc : BitVec 7) (kc : BitVec 3) (ds oa : BitVec 6) (ob : BitVec 10) (lo n : Nat) (h0 : 0 ≤ lo) (h1 : lo + n ≤ 10) :
    BitVec.extractLsb' lo n (sWord opc kc ds oa ob) = BitVec.extractLsb' (lo - 0) n ob := by
  apply BitVec.eq_of_getLsbD_eq
  intro i hi
  have e : BitVec.getLsbD (sWord opc kc ds oa ob) (lo + i) = BitVec.getLsbD ob (lo - 0 + i) := by
    unfold sWord
    simp only [BitVec.getLsbD_append]
    repeat (first | rw [if_pos (by omega)] | rw [if_neg (by omega)])
    congr 1 <;> omega
  simp only [BitVec.getLsbD_extractLsb', hi, decide_true, Bool.true_and, e]

/-! ### Vector words (R172, R245) -/

@[simp] theorem vWord_opc (opc : BitVec 7) (pr : BitVec 4) (d a b : BitVec 7) :
    BitVec.extractLsb' 25 7 (vWord opc pr d a b) = opc :=
  (extract_append_high _ _ _ 7 (by decide)).trans ((extract_append_high _ _ _ 7 (by decide)).trans ((extract_append_high _ _ _ 7 (by decide)).trans ((extract_append_high _ _ _ 7 (by decide)).trans (extract_all _))))

@[simp] theorem vWord_pr (opc : BitVec 7) (pr : BitVec 4) (d a b : BitVec 7) :
    BitVec.extractLsb' 21 4 (vWord opc pr d a b) = pr :=
  (extract_append_high _ _ _ 4 (by decide)).trans ((extract_append_high _ _ _ 4 (by decide)).trans ((extract_append_high _ _ _ 4 (by decide)).trans ((extract_append_low _ _ _ 4 (by decide)).trans (extract_all _))))

@[simp] theorem vWord_d (opc : BitVec 7) (pr : BitVec 4) (d a b : BitVec 7) :
    BitVec.extractLsb' 14 7 (vWord opc pr d a b) = d :=
  (extract_append_high _ _ _ 7 (by decide)).trans ((extract_append_high _ _ _ 7 (by decide)).trans ((extract_append_low _ _ _ 7 (by decide)).trans (extract_all _)))

@[simp] theorem vWord_a (opc : BitVec 7) (pr : BitVec 4) (d a b : BitVec 7) :
    BitVec.extractLsb' 7 7 (vWord opc pr d a b) = a :=
  (extract_append_high _ _ _ 7 (by decide)).trans ((extract_append_low _ _ _ 7 (by decide)).trans (extract_all _))

@[simp] theorem vWord_b (opc : BitVec 7) (pr : BitVec 4) (d a b : BitVec 7) :
    BitVec.extractLsb' 0 7 (vWord opc pr d a b) = b :=
  (extract_append_low _ _ _ 7 (by decide)).trans (extract_all _)

/-- A part of the field d. -/
theorem vWord_d_part (opc : BitVec 7) (pr : BitVec 4) (d a b : BitVec 7) (lo n : Nat) (h0 : 14 ≤ lo) (h1 : lo + n ≤ 21) :
    BitVec.extractLsb' lo n (vWord opc pr d a b) = BitVec.extractLsb' (lo - 14) n d := by
  apply BitVec.eq_of_getLsbD_eq
  intro i hi
  have e : BitVec.getLsbD (vWord opc pr d a b) (lo + i) = BitVec.getLsbD d (lo - 14 + i) := by
    unfold vWord
    simp only [BitVec.getLsbD_append]
    repeat (first | rw [if_pos (by omega)] | rw [if_neg (by omega)])
    congr 1 <;> omega
  simp only [BitVec.getLsbD_extractLsb', hi, decide_true, Bool.true_and, e]

/-- A part of the field a. -/
theorem vWord_a_part (opc : BitVec 7) (pr : BitVec 4) (d a b : BitVec 7) (lo n : Nat) (h0 : 7 ≤ lo) (h1 : lo + n ≤ 14) :
    BitVec.extractLsb' lo n (vWord opc pr d a b) = BitVec.extractLsb' (lo - 7) n a := by
  apply BitVec.eq_of_getLsbD_eq
  intro i hi
  have e : BitVec.getLsbD (vWord opc pr d a b) (lo + i) = BitVec.getLsbD a (lo - 7 + i) := by
    unfold vWord
    simp only [BitVec.getLsbD_append]
    repeat (first | rw [if_pos (by omega)] | rw [if_neg (by omega)])
    congr 1 <;> omega
  simp only [BitVec.getLsbD_extractLsb', hi, decide_true, Bool.true_and, e]

/-- A part of the field b. -/
theorem vWord_b_part (opc : BitVec 7) (pr : BitVec 4) (d a b : BitVec 7) (lo n : Nat) (h0 : 0 ≤ lo) (h1 : lo + n ≤ 7) :
    BitVec.extractLsb' lo n (vWord opc pr d a b) = BitVec.extractLsb' (lo - 0) n b := by
  apply BitVec.eq_of_getLsbD_eq
  intro i hi
  have e : BitVec.getLsbD (vWord opc pr d a b) (lo + i) = BitVec.getLsbD b (lo - 0 + i) := by
    unfold vWord
    simp only [BitVec.getLsbD_append]
    repeat (first | rw [if_pos (by omega)] | rw [if_neg (by omega)])
    congr 1 <;> omega
  simp only [BitVec.getLsbD_extractLsb', hi, decide_true, Bool.true_and, e]

/-! ### Memory words (R173, R206) -/

@[simp] theorem mWord_opc (opc : BitVec 6) (pr : BitVec 4) (dm : BitVec 7) (ar : BitVec 4) (om : BitVec 11) :
    BitVec.extractLsb' 26 6 (mWord opc pr dm ar om) = opc :=
  (extract_append_high _ _ _ 6 (by decide)).trans ((extract_append_high _ _ _ 6 (by decide)).trans ((extract_append_high _ _ _ 6 (by decide)).trans ((extract_append_high _ _ _ 6 (by decide)).trans (extract_all _))))

@[simp] theorem mWord_pr (opc : BitVec 6) (pr : BitVec 4) (dm : BitVec 7) (ar : BitVec 4) (om : BitVec 11) :
    BitVec.extractLsb' 22 4 (mWord opc pr dm ar om) = pr :=
  (extract_append_high _ _ _ 4 (by decide)).trans ((extract_append_high _ _ _ 4 (by decide)).trans ((extract_append_high _ _ _ 4 (by decide)).trans ((extract_append_low _ _ _ 4 (by decide)).trans (extract_all _))))

@[simp] theorem mWord_dm (opc : BitVec 6) (pr : BitVec 4) (dm : BitVec 7) (ar : BitVec 4) (om : BitVec 11) :
    BitVec.extractLsb' 15 7 (mWord opc pr dm ar om) = dm :=
  (extract_append_high _ _ _ 7 (by decide)).trans ((extract_append_high _ _ _ 7 (by decide)).trans ((extract_append_low _ _ _ 7 (by decide)).trans (extract_all _)))

@[simp] theorem mWord_ar (opc : BitVec 6) (pr : BitVec 4) (dm : BitVec 7) (ar : BitVec 4) (om : BitVec 11) :
    BitVec.extractLsb' 11 4 (mWord opc pr dm ar om) = ar :=
  (extract_append_high _ _ _ 4 (by decide)).trans ((extract_append_low _ _ _ 4 (by decide)).trans (extract_all _))

@[simp] theorem mWord_om (opc : BitVec 6) (pr : BitVec 4) (dm : BitVec 7) (ar : BitVec 4) (om : BitVec 11) :
    BitVec.extractLsb' 0 11 (mWord opc pr dm ar om) = om :=
  (extract_append_low _ _ _ 11 (by decide)).trans (extract_all _)

/-- A part of the field dm. -/
theorem mWord_dm_part (opc : BitVec 6) (pr : BitVec 4) (dm : BitVec 7) (ar : BitVec 4) (om : BitVec 11) (lo n : Nat) (h0 : 15 ≤ lo) (h1 : lo + n ≤ 22) :
    BitVec.extractLsb' lo n (mWord opc pr dm ar om) = BitVec.extractLsb' (lo - 15) n dm := by
  apply BitVec.eq_of_getLsbD_eq
  intro i hi
  have e : BitVec.getLsbD (mWord opc pr dm ar om) (lo + i) = BitVec.getLsbD dm (lo - 15 + i) := by
    unfold mWord
    simp only [BitVec.getLsbD_append]
    repeat (first | rw [if_pos (by omega)] | rw [if_neg (by omega)])
    congr 1 <;> omega
  simp only [BitVec.getLsbD_extractLsb', hi, decide_true, Bool.true_and, e]

/-- A part of the field om. -/
theorem mWord_om_part (opc : BitVec 6) (pr : BitVec 4) (dm : BitVec 7) (ar : BitVec 4) (om : BitVec 11) (lo n : Nat) (h0 : 0 ≤ lo) (h1 : lo + n ≤ 11) :
    BitVec.extractLsb' lo n (mWord opc pr dm ar om) = BitVec.extractLsb' (lo - 0) n om := by
  apply BitVec.eq_of_getLsbD_eq
  intro i hi
  have e : BitVec.getLsbD (mWord opc pr dm ar om) (lo + i) = BitVec.getLsbD om (lo - 0 + i) := by
    unfold mWord
    simp only [BitVec.getLsbD_append]
    repeat (first | rw [if_pos (by omega)] | rw [if_neg (by omega)])
    congr 1 <;> omega
  simp only [BitVec.getLsbD_extractLsb', hi, decide_true, Bool.true_and, e]

/-! ### Words that set a format pair (R302) -/

@[simp] theorem xsWord_opc (opc : BitVec 6) (e : BitVec 4) (s : BitVec 6) (a : BitVec 4) :
    BitVec.extractLsb' 26 6 (xsWord opc e s a) = opc :=
  (extract_append_high _ _ _ 6 (by decide)).trans ((extract_append_high _ _ _ 6 (by decide)).trans ((extract_append_high _ _ _ 6 (by decide)).trans ((extract_append_high _ _ _ 6 (by decide)).trans (extract_all _))))

@[simp] theorem xsWord_e (opc : BitVec 6) (e : BitVec 4) (s : BitVec 6) (a : BitVec 4) :
    BitVec.extractLsb' 22 4 (xsWord opc e s a) = e :=
  (extract_append_high _ _ _ 4 (by decide)).trans ((extract_append_high _ _ _ 4 (by decide)).trans ((extract_append_high _ _ _ 4 (by decide)).trans ((extract_append_low _ _ _ 4 (by decide)).trans (extract_all _))))

@[simp] theorem xsWord_s (opc : BitVec 6) (e : BitVec 4) (s : BitVec 6) (a : BitVec 4) :
    BitVec.extractLsb' 16 6 (xsWord opc e s a) = s :=
  (extract_append_high _ _ _ 6 (by decide)).trans ((extract_append_high _ _ _ 6 (by decide)).trans ((extract_append_low _ _ _ 6 (by decide)).trans (extract_all _)))

@[simp] theorem xsWord_a (opc : BitVec 6) (e : BitVec 4) (s : BitVec 6) (a : BitVec 4) :
    BitVec.extractLsb' 12 4 (xsWord opc e s a) = a :=
  (extract_append_high _ _ _ 4 (by decide)).trans ((extract_append_low _ _ _ 4 (by decide)).trans (extract_all _))

/-! ### Words of the control core -/

@[simp] theorem rType_f7 (f7 : BitVec 7) (rs2 rs1 : BitVec 5) (f3 : BitVec 3) (rd : BitVec 5) (op : BitVec 7) :
    BitVec.extractLsb' 25 7 (rType f7 rs2 rs1 f3 rd op) = f7 :=
  (extract_append_high _ _ _ 7 (by decide)).trans ((extract_append_high _ _ _ 7 (by decide)).trans ((extract_append_high _ _ _ 7 (by decide)).trans ((extract_append_high _ _ _ 7 (by decide)).trans ((extract_append_high _ _ _ 7 (by decide)).trans (extract_all _)))))

@[simp] theorem rType_rs2 (f7 : BitVec 7) (rs2 rs1 : BitVec 5) (f3 : BitVec 3) (rd : BitVec 5) (op : BitVec 7) :
    BitVec.extractLsb' 20 5 (rType f7 rs2 rs1 f3 rd op) = rs2 :=
  (extract_append_high _ _ _ 5 (by decide)).trans ((extract_append_high _ _ _ 5 (by decide)).trans ((extract_append_high _ _ _ 5 (by decide)).trans ((extract_append_high _ _ _ 5 (by decide)).trans ((extract_append_low _ _ _ 5 (by decide)).trans (extract_all _)))))

@[simp] theorem rType_rs1 (f7 : BitVec 7) (rs2 rs1 : BitVec 5) (f3 : BitVec 3) (rd : BitVec 5) (op : BitVec 7) :
    BitVec.extractLsb' 15 5 (rType f7 rs2 rs1 f3 rd op) = rs1 :=
  (extract_append_high _ _ _ 5 (by decide)).trans ((extract_append_high _ _ _ 5 (by decide)).trans ((extract_append_high _ _ _ 5 (by decide)).trans ((extract_append_low _ _ _ 5 (by decide)).trans (extract_all _))))

@[simp] theorem rType_f3 (f7 : BitVec 7) (rs2 rs1 : BitVec 5) (f3 : BitVec 3) (rd : BitVec 5) (op : BitVec 7) :
    BitVec.extractLsb' 12 3 (rType f7 rs2 rs1 f3 rd op) = f3 :=
  (extract_append_high _ _ _ 3 (by decide)).trans ((extract_append_high _ _ _ 3 (by decide)).trans ((extract_append_low _ _ _ 3 (by decide)).trans (extract_all _)))

@[simp] theorem rType_rd (f7 : BitVec 7) (rs2 rs1 : BitVec 5) (f3 : BitVec 3) (rd : BitVec 5) (op : BitVec 7) :
    BitVec.extractLsb' 7 5 (rType f7 rs2 rs1 f3 rd op) = rd :=
  (extract_append_high _ _ _ 5 (by decide)).trans ((extract_append_low _ _ _ 5 (by decide)).trans (extract_all _))

@[simp] theorem rType_op (f7 : BitVec 7) (rs2 rs1 : BitVec 5) (f3 : BitVec 3) (rd : BitVec 5) (op : BitVec 7) :
    BitVec.extractLsb' 0 7 (rType f7 rs2 rs1 f3 rd op) = op :=
  (extract_append_low _ _ _ 7 (by decide)).trans (extract_all _)

/-- A part of the field f7. -/
theorem rType_f7_part (f7 : BitVec 7) (rs2 rs1 : BitVec 5) (f3 : BitVec 3) (rd : BitVec 5) (op : BitVec 7) (lo n : Nat) (h0 : 25 ≤ lo) (h1 : lo + n ≤ 32) :
    BitVec.extractLsb' lo n (rType f7 rs2 rs1 f3 rd op) = BitVec.extractLsb' (lo - 25) n f7 := by
  apply BitVec.eq_of_getLsbD_eq
  intro i hi
  have e : BitVec.getLsbD (rType f7 rs2 rs1 f3 rd op) (lo + i) = BitVec.getLsbD f7 (lo - 25 + i) := by
    unfold rType
    simp only [BitVec.getLsbD_append]
    repeat (first | rw [if_pos (by omega)] | rw [if_neg (by omega)])
    congr 1 <;> omega
  simp only [BitVec.getLsbD_extractLsb', hi, decide_true, Bool.true_and, e]

/-- A part of the field f3. -/
theorem rType_f3_part (f7 : BitVec 7) (rs2 rs1 : BitVec 5) (f3 : BitVec 3) (rd : BitVec 5) (op : BitVec 7) (lo n : Nat) (h0 : 12 ≤ lo) (h1 : lo + n ≤ 15) :
    BitVec.extractLsb' lo n (rType f7 rs2 rs1 f3 rd op) = BitVec.extractLsb' (lo - 12) n f3 := by
  apply BitVec.eq_of_getLsbD_eq
  intro i hi
  have e : BitVec.getLsbD (rType f7 rs2 rs1 f3 rd op) (lo + i) = BitVec.getLsbD f3 (lo - 12 + i) := by
    unfold rType
    simp only [BitVec.getLsbD_append]
    repeat (first | rw [if_pos (by omega)] | rw [if_neg (by omega)])
    congr 1 <;> omega
  simp only [BitVec.getLsbD_extractLsb', hi, decide_true, Bool.true_and, e]

/-! ### Words with a 12-bit field -/

@[simp] theorem iType_imm (imm : BitVec 12) (rs1 : BitVec 5) (f3 : BitVec 3) (rd : BitVec 5) (op : BitVec 7) :
    BitVec.extractLsb' 20 12 (iType imm rs1 f3 rd op) = imm :=
  (extract_append_high _ _ _ 12 (by decide)).trans ((extract_append_high _ _ _ 12 (by decide)).trans ((extract_append_high _ _ _ 12 (by decide)).trans ((extract_append_high _ _ _ 12 (by decide)).trans (extract_all _))))

@[simp] theorem iType_rs1 (imm : BitVec 12) (rs1 : BitVec 5) (f3 : BitVec 3) (rd : BitVec 5) (op : BitVec 7) :
    BitVec.extractLsb' 15 5 (iType imm rs1 f3 rd op) = rs1 :=
  (extract_append_high _ _ _ 5 (by decide)).trans ((extract_append_high _ _ _ 5 (by decide)).trans ((extract_append_high _ _ _ 5 (by decide)).trans ((extract_append_low _ _ _ 5 (by decide)).trans (extract_all _))))

@[simp] theorem iType_f3 (imm : BitVec 12) (rs1 : BitVec 5) (f3 : BitVec 3) (rd : BitVec 5) (op : BitVec 7) :
    BitVec.extractLsb' 12 3 (iType imm rs1 f3 rd op) = f3 :=
  (extract_append_high _ _ _ 3 (by decide)).trans ((extract_append_high _ _ _ 3 (by decide)).trans ((extract_append_low _ _ _ 3 (by decide)).trans (extract_all _)))

@[simp] theorem iType_rd (imm : BitVec 12) (rs1 : BitVec 5) (f3 : BitVec 3) (rd : BitVec 5) (op : BitVec 7) :
    BitVec.extractLsb' 7 5 (iType imm rs1 f3 rd op) = rd :=
  (extract_append_high _ _ _ 5 (by decide)).trans ((extract_append_low _ _ _ 5 (by decide)).trans (extract_all _))

@[simp] theorem iType_op (imm : BitVec 12) (rs1 : BitVec 5) (f3 : BitVec 3) (rd : BitVec 5) (op : BitVec 7) :
    BitVec.extractLsb' 0 7 (iType imm rs1 f3 rd op) = op :=
  (extract_append_low _ _ _ 7 (by decide)).trans (extract_all _)

/-- A part of the field imm. -/
theorem iType_imm_part (imm : BitVec 12) (rs1 : BitVec 5) (f3 : BitVec 3) (rd : BitVec 5) (op : BitVec 7) (lo n : Nat) (h0 : 20 ≤ lo) (h1 : lo + n ≤ 32) :
    BitVec.extractLsb' lo n (iType imm rs1 f3 rd op) = BitVec.extractLsb' (lo - 20) n imm := by
  apply BitVec.eq_of_getLsbD_eq
  intro i hi
  have e : BitVec.getLsbD (iType imm rs1 f3 rd op) (lo + i) = BitVec.getLsbD imm (lo - 20 + i) := by
    unfold iType
    simp only [BitVec.getLsbD_append]
    repeat (first | rw [if_pos (by omega)] | rw [if_neg (by omega)])
    congr 1 <;> omega
  simp only [BitVec.getLsbD_extractLsb', hi, decide_true, Bool.true_and, e]

end Sys2Proof.Laws
end

