-- ==== Sys2Proof/Tests/Slice0.lean ====
section
/-! SUPPORT. The model's own tests: ill-formed terms that the check refuses, words written out from the encodings of the spec,
single steps worked out by hand, and for every statement of Obligations.lean a state that meets its hypotheses. -/

open Sys2Proof Sys2Proof.Machine Sys2Proof.Safety

namespace Sys2Proof.Tests

set_option Elab.async false

/-! ### Ill-formed operands are refused (R69, R70, R93, R175, R179, R187 to R191, R302, R312) -/

/-- The limits of single fields, at the first value they refuse and the last they allow. -/
theorem test_wf_fields :
    srcOk 0x7D = true ∧ srcOk 0x7E = false ∧ dstOk 0x67 = true ∧ dstOk 0x68 = false ∧ dstOk 0x7E = false ∧ dstOk 0x7F = true
    ∧ pdOk 0 = false ∧ pdOk 1 = true ∧ pdOk 11 = true ∧ pdOk 12 = false ∧ accOk 21 = true ∧ accOk 22 = false
    ∧ rndOk 5 = true ∧ rndOk 6 = false ∧ scopeOk 0 = false ∧ scopeOk 6 = true ∧ scopeOk 7 = false
    ∧ barScopeOk 0 = false ∧ barScopeOk 5 = true ∧ barScopeOk 6 = false ∧ queueOk 5 = true ∧ queueOk 6 = false := by
  decide +kernel

/-- One ill-formed instruction of the control core for each of its checks. -/
theorem test_wf_control : [
    Instr.csrWrite .rs 0x800 5 0, .kLda 3 0 false 5 6, .kStl 3 7 false 5 6, .kAmoW .add 0 false 5 6 7, .kAmoD .cas 7 true 5 6 7,
    .kFence 0, .kSpost 7 5 6, .kFput 0 5 6, .kMfence 0, .kTlwait 6 5 6 7, .kTlread 7 5, .kQstat 6 5, .kBar 6 5 0 0,
    .kBar 2 5 6 0, .kBar 4 5 0 6, .kBarw 6 5 6 7, .kClosure 0 5 6, .kPause 0].all (fun i => !wellFormed i) = true := by
  decide +kernel

/-- One ill-formed bundle instruction for each of its checks. -/
theorem test_wf_slots : [
    Instr.ceq ⟨0, 0, 1, 2⟩, .cleI ⟨0, 0, 1, 2⟩, .kxor ⟨0, 0, 1, 2⟩, .smov ⟨0, 1, 9⟩, .fadd ⟨.f, 0, 0x68, 1, 2⟩, .fmul ⟨.h2, 0, 1, 0x7E, 2⟩,
    .fma ⟨.f, 0, 0x7F, 1, 2⟩, .fnms ⟨.b2, 0, 1, 2, 0x7F⟩, .fceq ⟨.f, 0, 0, 1, 2⟩, .fcun ⟨.f, 0, 12, 1, 2⟩, .fclass ⟨.f, 0, 1, 0x7E⟩,
    .vaddI32 ⟨0, 0x70, 1, 2⟩, .vsel ⟨0, 1, 2, 0x7F⟩, .vcltN32 ⟨0, 15, 1, 2⟩, .vmov ⟨0, 1, 0x7F⟩, .vredAddF ⟨0, 0x69, 1⟩, .tanha ⟨0, 1, 0x7E⟩,
    .vmovi ⟨0, 0x6F, 5⟩, .vbcs ⟨0, 0x68, 5⟩, .unpack ⟨0, 1, 0x7E, 3⟩, .bcl ⟨0, 0x68, 1, 3⟩, .xcl ⟨0, 1, 2, 0⟩, .pand ⟨0, 0, 1, 2⟩,
    .ppop ⟨0, 0x68, 1⟩, .cvt ⟨0, 1, 2, 15, 0, 0⟩, .cvt ⟨0, 1, 2, 0, 15, 0⟩, .cvt ⟨0, 1, 2, 3, 3, 0⟩, .cvt ⟨0, 1, 2, 3, 4, 6⟩].all
      (fun i => !wellFormed i) = true := by
  decide +kernel

/-- Likewise for the X slot and the memory slots. -/
theorem test_wf_x_memory : [
    Instr.mma ⟨0, 22, 1, 2, 3⟩, .mmaAcc ⟨0, 31, 1, 2, 3⟩, .mzero 22, .mdrain ⟨22, 1, 0, 0⟩, .mdrain ⟨1, 1, 15, 0⟩, .mdrain ⟨1, 1, 0, 6⟩,
    .rstat ⟨22, 1, 0⟩, .rstat ⟨1, 0x68, 0⟩, .rstat ⟨1, 1, 5⟩, .vld ⟨0, 0x68, 1, 0⟩, .vldB ⟨0, 0x7E, 1, 0⟩, .vldS ⟨0, 0x68, 1, 2, 0⟩,
    .vldx ⟨0, 1, 1, 0x7E⟩, .vst ⟨0, 0x7F, 1, 0⟩, .vstS ⟨0, 0x7E, 1, 2, 0⟩, .vstx ⟨0, 1, 1, 0x7F⟩, .spill ⟨0, 0x7F, 0⟩, .fill ⟨0, 0x68, 0⟩,
    .spost 1 0 5].all (fun i => !wellFormed i) = true := by
  decide +kernel

/-- Likewise for the events. -/
theorem test_wf_events : [
    Instr.functionLevelReset 17, .doorbell 0 8, .doorbell 17 0, .tlarmWrite 17 0 0, .qownWrite 0 8 0, .asidEntryWrite 0 65536 false 0,
    .stalledClear 17 0, .regerrClear 0 17, .invalidatePage 17 0 0, .invalidateAsid 17 0, .invalidateAll 17, .invalidateNone 17,
    .faultReplyRetry 0 320 0 0, .faultReplyAbort 0 0 8 0, .cquery 17 0 0, .launchHeadValidation 8, .clockStretch 320 1,
    .registerWrite 17 0 0, .inboundPostedWrite ⟨17, .bar0, 0, [], false⟩, .hostRead ⟨17, .bar0, 0, 8, 0⟩, .hostRead ⟨0, .bar0, 0, 8, 16384⟩, .msiXUnmask 0 8, .msiXUnmask 1 4, .keyLoad 256,
    .keyClear 256, .frontierMessage 1000 0, .frontierRequest 0 1000].all (fun i => !wellFormed i) = true := by
  decide +kernel

/-- Register forms of RV64IM, Zba, Zbb and Zicond, each word by its ratified encoding (R60). -/
theorem test_decode_alu_1 : ∀ e ∈ ([
    (0b00000000000001001000111110110011, .controlCompute (.alu .add 31 9 0)),
    (0b01000000000101010000111100110011, .controlCompute (.alu .sub 30 10 1)),
    (0b00000000001001011001111010110011, .controlCompute (.alu .sll 29 11 2)),
    (0b00000000001101100010111000110011, .controlCompute (.alu .slt 28 12 3)),
    (0b00000000010001101011110110110011, .controlCompute (.alu .sltu 27 13 4)),
    (0b00000000010101110100110100110011, .controlCompute (.alu .xor 26 14 5)),
    (0b00000000011001111101110010110011, .controlCompute (.alu .srl 25 15 6)),
    (0b01000000011110000101110000110011, .controlCompute (.alu .sra 24 16 7)),
    (0b00000000100010001110101110110011, .controlCompute (.alu .or 23 17 8)),
    (0b00000000100110010111101100110011, .controlCompute (.alu .and 22 18 9)),
    (0b00000010101010011000101010110011, .controlCompute (.alu .mul 21 19 10)),
    (0b00000010101110100001101000110011, .controlCompute (.alu .mulh 20 20 11)),
    (0b00000010110010101010100110110011, .controlCompute (.alu .mulhsu 19 21 12)),
    (0b00000010110110110011100100110011, .controlCompute (.alu .mulhu 18 22 13)),
    (0b00000010111010111100100010110011, .controlCompute (.alu .div 17 23 14)),
    (0b00000010111111000101100000110011, .controlCompute (.alu .divu 16 24 15)),
    (0b00000011000011001110011110110011, .controlCompute (.alu .rem 15 25 16)),
    (0b00000011000111010111011100110011, .controlCompute (.alu .remu 14 26 17)),
    (0b00100001001011011010011010110011, .controlCompute (.alu .sh1add 13 27 18)),
    (0b00100001001111100100011000110011, .controlCompute (.alu .sh2add 12 28 19))] : List (W32 × Instr)), decodeHart e.1 = (e.2, 4) := by
  decide +kernel

/-- Register forms of RV64IM, Zba, Zbb and Zicond, each word by its ratified encoding (R60). -/
theorem test_decode_alu_2 : ∀ e ∈ ([
    (0b00100001010011101110010110110011, .controlCompute (.alu .sh3add 11 29 20)),
    (0b01000001010111110111010100110011, .controlCompute (.alu .andn 10 30 21)),
    (0b01000001011011111110010010110011, .controlCompute (.alu .orn 9 31 22)),
    (0b01000001011100000100010000110011, .controlCompute (.alu .xnor 8 0 23)),
    (0b00001011100000001100001110110011, .controlCompute (.alu .min 7 1 24)),
    (0b00001011100100010101001100110011, .controlCompute (.alu .minu 6 2 25)),
    (0b00001011101000011110001010110011, .controlCompute (.alu .max 5 3 26)),
    (0b00001011101100100111001000110011, .controlCompute (.alu .maxu 4 4 27)),
    (0b01100001110000101001000110110011, .controlCompute (.alu .rol 3 5 28)),
    (0b01100001110100110101000100110011, .controlCompute (.alu .ror 2 6 29)),
    (0b00001111111000111101000010110011, .controlCompute (.alu .czeroEqz 1 7 30)),
    (0b00001111111101000111000000110011, .controlCompute (.alu .czeroNez 0 8 31)),
    (0b00000000001101011000111110111011, .controlCompute (.alu .addw 31 11 3)),
    (0b01000000010001100000111100111011, .controlCompute (.alu .subw 30 12 4)),
    (0b00000000010101101001111010111011, .controlCompute (.alu .sllw 29 13 5)),
    (0b00000000011001110101111000111011, .controlCompute (.alu .srlw 28 14 6)),
    (0b01000000011101111101110110111011, .controlCompute (.alu .sraw 27 15 7)),
    (0b00000010100010000000110100111011, .controlCompute (.alu .mulw 26 16 8)),
    (0b00000010100110001100110010111011, .controlCompute (.alu .divw 25 17 9)),
    (0b00000010101010010101110000111011, .controlCompute (.alu .divuw 24 18 10))] : List (W32 × Instr)), decodeHart e.1 = (e.2, 4) := by
  decide +kernel

/-- Register forms of RV64IM, Zba, Zbb and Zicond, each word by its ratified encoding (R60). -/
theorem test_decode_alu_3 : ∀ e ∈ ([
    (0b00000010101110011110101110111011, .controlCompute (.alu .remw 23 19 11)),
    (0b00000010110010100111101100111011, .controlCompute (.alu .remuw 22 20 12)),
    (0b00001000110110101000101010111011, .controlCompute (.alu .addUw 21 21 13)),
    (0b00100000111010110010101000111011, .controlCompute (.alu .sh1addUw 20 22 14)),
    (0b00100000111110111100100110111011, .controlCompute (.alu .sh2addUw 19 23 15)),
    (0b00100001000011000110100100111011, .controlCompute (.alu .sh3addUw 18 24 16)),
    (0b01100001000111001001100010111011, .controlCompute (.alu .rolw 17 25 17)),
    (0b01100001001011010101100000111011, .controlCompute (.alu .rorw 16 26 18))] : List (W32 × Instr)), decodeHart e.1 = (e.2, 4) := by
  decide +kernel

/-- Immediate forms, shifts, unary forms and transfers of control (R60). -/
theorem test_decode_immediate_1 : ∀ e ∈ ([
    (0b10000000000100110000001010010011, .controlCompute (.aluImm .addi 5 6 0x801)),
    (0b10000000000100110010001010010011, .controlCompute (.aluImm .slti 5 6 0x801)),
    (0b10000000000100110011001010010011, .controlCompute (.aluImm .sltiu 5 6 0x801)),
    (0b10000000000100110100001010010011, .controlCompute (.aluImm .xori 5 6 0x801)),
    (0b10000000000100110110001010010011, .controlCompute (.aluImm .ori 5 6 0x801)),
    (0b10000000000100110111001010010011, .controlCompute (.aluImm .andi 5 6 0x801)),
    (0b01111111111100110000001010011011, .controlCompute (.aluImm .addiw 5 6 0x7FF)),
    (0b00000010000100110001001010010011, .controlCompute (.shiftImm .slli 5 6 33)),
    (0b00000010000100110101001010010011, .controlCompute (.shiftImm .srli 5 6 33)),
    (0b01000010000100110101001010010011, .controlCompute (.shiftImm .srai 5 6 33)),
    (0b01100010000100110101001010010011, .controlCompute (.shiftImm .rori 5 6 33)),
    (0b00001010000100110001001010011011, .controlCompute (.shiftImm .slliUw 5 6 33)),
    (0b00000001000100110001001010011011, .controlCompute (.shiftImmW .slliw 5 6 17)),
    (0b00000001000100110101001010011011, .controlCompute (.shiftImmW .srliw 5 6 17)),
    (0b01000001000100110101001010011011, .controlCompute (.shiftImmW .sraiw 5 6 17)),
    (0b01100001000100110101001010011011, .controlCompute (.shiftImmW .roriw 5 6 17)),
    (0b01100000000000110001001010010011, .controlCompute (.unary .clz 5 6)),
    (0b01100000000100110001001010010011, .controlCompute (.unary .ctz 5 6)),
    (0b01100000001000110001001010010011, .controlCompute (.unary .cpop 5 6)),
    (0b01100000010000110001001010010011, .controlCompute (.unary .sextB 5 6))] : List (W32 × Instr)), decodeHart e.1 = (e.2, 4) := by
  decide +kernel

/-- Immediate forms, shifts, unary forms and transfers of control (R60). -/
theorem test_decode_immediate_2 : ∀ e ∈ ([
    (0b01100000010100110001001010010011, .controlCompute (.unary .sextH 5 6)),
    (0b01100000000000110001001010011011, .controlCompute (.unary .clzw 5 6)),
    (0b01100000000100110001001010011011, .controlCompute (.unary .ctzw 5 6)),
    (0b01100000001000110001001010011011, .controlCompute (.unary .cpopw 5 6)),
    (0b00101000011100110101001010010011, .controlCompute (.unary .orcB 5 6)),
    (0b01101011100000110101001010010011, .controlCompute (.unary .rev8 5 6)),
    (0b00001000000000110100001010111011, .controlCompute (.unary .zextH 5 6)),
    (0b10101011110011011110001110110111, .controlCompute (.lui 7 0xABCDE)),
    (0b10000000000000000001001110010111, .controlCompute (.auipc 7 0x80001)),
    (0b10000111011101001011000011101111, .controlCompute (.jal 1 0xA5C3B)),
    (0b11111111111001001000000011100111, .controlCompute (.jalr 1 9 0xFFE)),
    (0b11001010010000011000101101100011, .controlCompute (.branch .beq 3 4 0xA5B)),
    (0b11001010010000011001101101100011, .controlCompute (.branch .bne 3 4 0xA5B)),
    (0b11001010010000011100101101100011, .controlCompute (.branch .blt 3 4 0xA5B)),
    (0b11001010010000011101101101100011, .controlCompute (.branch .bge 3 4 0xA5B)),
    (0b11001010010000011110101101100011, .controlCompute (.branch .bltu 3 4 0xA5B)),
    (0b11001010010000011111101101100011, .controlCompute (.branch .bgeu 3 4 0xA5B))] : List (W32 × Instr)), decodeHart e.1 = (e.2, 4) := by
  decide +kernel

/-- Loads, stores, atomics, fences, environment and CSR instructions (R60, R66); `csrr t0, kfaddr` is the word of R66. -/
theorem test_decode_memory_system_1 : ∀ e ∈ ([
    (0b10001111000000110000001010000011, .controlLoad .lb 5 6 0x8F0),
    (0b10001111000000110001001010000011, .controlLoad .lh 5 6 0x8F0),
    (0b10001111000000110010001010000011, .controlLoad .lw 5 6 0x8F0),
    (0b10001111000000110011001010000011, .controlLoad .ld 5 6 0x8F0),
    (0b10001111000000110100001010000011, .controlLoad .lbu 5 6 0x8F0),
    (0b10001111000000110101001010000011, .controlLoad .lhu 5 6 0x8F0),
    (0b10001111000000110110001010000011, .controlLoad .lwu 5 6 0x8F0),
    (0b10001110011100110000100110100011, .controlStore 0 6 7 0x8F3),
    (0b10001110011100110001100110100011, .controlStore 1 6 7 0x8F3),
    (0b10001110011100110010100110100011, .controlStore 2 6 7 0x8F3),
    (0b10001110011100110011100110100011, .controlStore 3 6 7 0x8F3),
    (0b00010100000000110010001010101111, .lr false true false 5 6),
    (0b00011010011100110010001010101111, .sc false false true 5 6 7),
    (0b00010100000000110011001010101111, .lr true true false 5 6),
    (0b00011010011100110011001010101111, .sc true false true 5 6 7),
    (0b00000110011100110011001010101111, .controlAmo .add true true true 5 6 7),
    (0b00001110011100110011001010101111, .controlAmo .swap true true true 5 6 7),
    (0b00100110011100110011001010101111, .controlAmo .xor true true true 5 6 7),
    (0b01000110011100110011001010101111, .controlAmo .or true true true 5 6 7),
    (0b01100110011100110011001010101111, .controlAmo .and true true true 5 6 7)] : List (W32 × Instr)), decodeHart e.1 = (e.2, 4) := by
  decide +kernel

/-- Loads, stores, atomics, fences, environment and CSR instructions (R60, R66); `csrr t0, kfaddr` is the word of R66. -/
theorem test_decode_memory_system_2 : ∀ e ∈ ([
    (0b10000110011100110011001010101111, .controlAmo .min true true true 5 6 7),
    (0b10100110011100110011001010101111, .controlAmo .max true true true 5 6 7),
    (0b11000110011100110011001010101111, .controlAmo .minu true true true 5 6 7),
    (0b11100110011100110011001010101111, .controlAmo .maxu true true true 5 6 7),
    (0b00001111111100000000000000001111, .fence 0x0FF 0 0),
    (0b10000011001100000000000000001111, .fence 0x833 0 0),
    (0b00000000000000000001000000001111, .fenceI 0 0 0),
    (0b00000000000000000000000001110011, .ecall),
    (0b00000000000100000000000001110011, .ebreak),
    (0b00010000010100000000000001110011, .wfi),
    (0b10000001000101001001001011110011, .csrWrite .rw 0x811 5 9),
    (0b10000001000101001010001011110011, .csrWrite .rs 0x811 5 9),
    (0b10000001000101001011001011110011, .csrWrite .rc 0x811 5 9),
    (0b10000001000101001101001011110011, .csrWrite .rwi 0x811 5 9),
    (0b10000001000101001110001011110011, .csrWrite .rsi 0x811 5 9),
    (0b10000001000101001111001011110011, .csrWrite .rci 0x811 5 9),
    (0b10000000001000000010001011110011, .csrr 0x802 5)] : List (W32 × Instr)), decodeHart e.1 = (e.2, 4) := by
  decide +kernel

/-- The compressed forms of RV64C (R60). -/
theorem test_decode_compressed_1 : ∀ e ∈ ([
    (0b0001110101000100, .controlCompute (.aluImm .addi 9 2 0x2B4)),
    (0b0100100101101100, .controlLoad .lw 11 10 0x54),
    (0b1100100101101100, .controlStore 2 10 11 0x54),
    (0b0111010101001100, .controlLoad .ld 11 10 0xA8),
    (0b1111010101001100, .controlStore 3 10 11 0xA8),
    (0b0000000000000001, .controlCompute (.aluImm .addi 0 0 0)),
    (0b0001001011111101, .controlCompute (.aluImm .addi 5 5 0xFFF)),
    (0b0011001010000101, .controlCompute (.aluImm .addiw 5 5 0xFE1)),
    (0b0100001011111101, .controlCompute (.aluImm .addi 5 0 31)),
    (0b0110000101011101, .controlCompute (.aluImm .addi 2 2 0x1B0)),
    (0b0111001010001101, .controlCompute (.lui 5 0xFFFE3)),
    (0b1001000010001001, .controlCompute (.shiftImm .srli 9 9 34)),
    (0b1000010010001101, .controlCompute (.shiftImm .srai 9 9 3)),
    (0b1001100011111001, .controlCompute (.aluImm .andi 9 9 0xFFE)),
    (0b1000110010010001, .controlCompute (.alu .sub 9 9 12)),
    (0b1000110010110001, .controlCompute (.alu .xor 9 9 12)),
    (0b1000110011010001, .controlCompute (.alu .or 9 9 12)),
    (0b1000110011110001, .controlCompute (.alu .and 9 9 12)),
    (0b1001110010010001, .controlCompute (.alu .subw 9 9 12)),
    (0b1001110010110001, .controlCompute (.alu .addw 9 9 12))] : List (W32 × Instr)), decodeHart e.1 = (e.2, 2) := by
  decide +kernel

/-- The compressed forms of RV64C (R60). -/
theorem test_decode_compressed_2 : ∀ e ∈ ([
    (0b1010001101011101, .controlCompute (.jal 0 723)),
    (0b1100100011011101, .controlCompute (.branch .beq 9 0 91)),
    (0b1110100011011101, .controlCompute (.branch .bne 9 0 91)),
    (0b0001001010000110, .controlCompute (.shiftImm .slli 5 5 33)),
    (0b0100001011011110, .controlLoad .lw 5 2 0xD4),
    (0b0110001011110110, .controlLoad .ld 5 2 0x158),
    (0b1100101110010110, .controlStore 2 2 5 0xD4),
    (0b1110111010010110, .controlStore 3 2 5 0x158),
    (0b1000001010000010, .controlCompute (.jalr 0 5 0)),
    (0b1000001010011010, .controlCompute (.alu .add 5 0 6)),
    (0b1001000000000010, .ebreak),
    (0b1001001010000010, .controlCompute (.jalr 1 5 0)),
    (0b1001001010011010, .controlCompute (.alu .add 5 5 6))] : List (W32 × Instr)), decodeHart e.1 = (e.2, 2) := by
  decide +kernel

/-- Every Xkgl instruction by the maps of R70. -/
theorem test_decode_xkgl_1 : ∀ e ∈ ([
    (0b01010110000001011000010100001011, .kLda 2 5 true 10 11),
    (0b00101100110001011001000000001011, .kStl 1 3 false 11 12),
    (0b00011000110001011010010100001011, .kAmoW .add 6 false 10 11 12),
    (0b00000110110001011011010100001011, .kAmoD .add 1 true 10 11 12),
    (0b00111000110001011010010100001011, .kAmoW .swap 6 false 10 11 12),
    (0b00100110110001011011010100001011, .kAmoD .swap 1 true 10 11 12),
    (0b01011000110001011010010100001011, .kAmoW .and 6 false 10 11 12),
    (0b01000110110001011011010100001011, .kAmoD .and 1 true 10 11 12),
    (0b01111000110001011010010100001011, .kAmoW .or 6 false 10 11 12),
    (0b01100110110001011011010100001011, .kAmoD .or 1 true 10 11 12),
    (0b10011000110001011010010100001011, .kAmoW .xor 6 false 10 11 12),
    (0b10000110110001011011010100001011, .kAmoD .xor 1 true 10 11 12),
    (0b10111000110001011010010100001011, .kAmoW .min 6 false 10 11 12),
    (0b10100110110001011011010100001011, .kAmoD .min 1 true 10 11 12),
    (0b11011000110001011010010100001011, .kAmoW .max 6 false 10 11 12),
    (0b11000110110001011011010100001011, .kAmoD .max 1 true 10 11 12),
    (0b11111000110001011010010100001011, .kAmoW .cas 6 false 10 11 12),
    (0b11100110110001011011010100001011, .kAmoD .cas 1 true 10 11 12),
    (0b00010000000000000100000000001011, .kFence 4),
    (0b00000000110001011101000000001011, .kSarm 11 12)] : List (W32 × Instr)), decodeHart e.1 = (e.2, 4) := by
  decide +kernel

/-- Every Xkgl instruction by the maps of R70. -/
theorem test_decode_xkgl_2 : ∀ e ∈ ([
    (0b00100000110001011101000000001011, .kSarmZ 11 12),
    (0b01001100110001011101000000001011, .kSpost 3 11 12),
    (0b01100000110001011101010100001011, .kSwait 10 11 12),
    (0b10000000000001011101010100001011, .kSread 10 11),
    (0b00001000110001011110000000001011, .kFput 2 11 12),
    (0b00100000000001011110010100001011, .kFget 10 11),
    (0b01000000000001011110010100001011, .kFtry 10 11),
    (0b01100000000000000110000000001011, .kFret),
    (0b00000000000001011000010100101011, .kRun 10 11),
    (0b00000000110001011001010100101011, .kRuni 10 11 12),
    (0b00000110000001011010010100101011, .kCopy 3 10 11),
    (0b00000100110001011011010100101011, .kCopyiIn 2 10 11 12),
    (0b00001010110001011011010100101011, .kCopyiOut 1 10 11 12),
    (0b00000000000001011100010100101011, .kStk 10 11),
    (0b00000010110100000101000000101011, .kMfence 0x2D),
    (0b00001010110001011110010100101011, .kTlwait 5 10 11 12),
    (0b00101000000000000110010100101011, .kTlread 4 10),
    (0b01000110000000000110010100101011, .kQstat 3 10),
    (0b01100000000000000110000000101011, .kJoin),
    (0b00000000000000000000010101011011, .kParcel 10)] : List (W32 × Instr)), decodeHart e.1 = (e.2, 4) := by
  decide +kernel

/-- Every Xkgl instruction by the maps of R70. -/
theorem test_decode_xkgl_3 : ∀ e ∈ ([
    (0b00101100000001011000010101011011, .kPinfo 6 10 11),
    (0b00010100110001011001010101011011, .kBar 5 10 11 12),
    (0b00001000000000000001010101011011, .kBar 2 10 0 0),
    (0b00110000110001011001010101011011, .kBarw 4 10 11 12),
    (0b01000100000001011001010101011011, .kClosure 1 10 11),
    (0b00001110110001011010010101011011, .kLaunch 7 10 11 12),
    (0b00000000000000000011000001011011, .kExit),
    (0b00100000000001011011000001011011, .kHyield 11),
    (0b11111111111100000100000001011011, .kPause 0xFFF),
    (0b10000000000100000101010101011011, .kStamp 0x801 10),
    (0b10000000000101011110000001011011, .kTrace 0x801 11),
    (0b00000000000001011111010101011011, .kAcct 10 11),
    (0b00100000000001011111000001011011, .kRaise 11),
    (0b00100010000001011111000001011011, .kRaiseF 11)] : List (W32 × Instr)), decodeHart e.1 = (e.2, 4) := by
  decide +kernel

/-- Words that no map lists (R60, R68 to R70). -/
theorem test_decode_illegal_1 : ∀ e ∈ ([
    (0b11111000000001011000010100001011, .illegalInstruction 0b11111000000001011000010100001011),
    (0b01111000000101011000010100001011, .illegalInstruction 0b01111000000101011000010100001011),
    (0b01111000110001011001000010001011, .illegalInstruction 0b01111000110001011001000010001011),
    (0b10100000110001011101000000001011, .illegalInstruction 0b10100000110001011101000000001011),
    (0b00000000000000000111000000001011, .illegalInstruction 0b00000000000000000111000000001011),
    (0b00010010000000000100000000001011, .illegalInstruction 0b00010010000000000100000000001011),
    (0b00000100000000000101000000101011, .illegalInstruction 0b00000100000000000101000000101011),
    (0b01100010000000000110000000101011, .illegalInstruction 0b01100010000000000110000000101011),
    (0b00010000110001011010010101011011, .illegalInstruction 0b00010000110001011010010101011011),
    (0b00100000000001011111000011011011, .illegalInstruction 0b00100000000001011111000011011011),
    (0b11111111111111111111111111111111, .illegalInstruction 0b11111111111111111111111111111111),
    (0b00000000001100010000000010000111, .illegalInstruction 0b00000000001100010000000010000111),
    (0b00010000001000000000000001110011, .illegalInstruction 0b00010000001000000000000001110011),
    (0b00110000001000000000000001110011, .illegalInstruction 0b00110000001000000000000001110011)] : List (W32 × Instr)), decodeHart e.1 = (e.2, 4) := by
  decide +kernel

/-- Words that no map lists (R60, R68 to R70). -/
theorem test_decode_illegal_2 : ∀ e ∈ ([
    (0b00000000000000000000000000000000, .illegalInstruction 0b00000000000000000000000000000000)] : List (W32 × Instr)), decodeHart e.1 = (e.2, 2) := by
  decide +kernel

/-- Reserved scopes, queue numbers and operand values: what is read is ill-formed, so it is an illegal instruction (R69, R70, R93). -/
theorem test_decode_ill_formed : ([
    0b01100000000001011000010100001011,
    0b01111100000001011000010100001011,
    0b00000000000000000101000000101011,
    0b00101100000000000110010100101011,
    0b00011000000000000001010101011011,
    0b00001000110000000001010101011011,
    0b00000000000000000100000001011011] : List W32).all (fun w => !wellFormed (decodeHart w).1) = true := by
  decide +kernel

/-- Every scalar slot instruction by the moulds of R197 and the codes of R187. -/
theorem test_decode_scalar_1 : ∀ e ∈ ([
    (0b00000011011000010100100000101001, .add ⟨5, 33, 18, 41⟩),
    (0b00000111011000010100100000101001, .mul ⟨5, 33, 18, 41⟩),
    (0b00001011011000010100100000101001, .mulhn ⟨5, 33, 18, 41⟩),
    (0b00001111011000010100100000101001, .or ⟨5, 33, 18, 41⟩),
    (0b00010011011000010100100000101001, .andn ⟨5, 33, 18, 41⟩),
    (0b00010111011000010100100000101001, .shr ⟨5, 33, 18, 41⟩),
    (0b00011011011000010100100000101001, .rotl ⟨5, 33, 18, 41⟩),
    (0b00011111011000010100100000101001, .max ⟨5, 33, 18, 41⟩),
    (0b00100011011000010100100000101001, .maxn ⟨5, 33, 18, 41⟩),
    (0b00100101101000010100100000000000, .clz ⟨6, 33, 18⟩),
    (0b00100111101000010100100000000000, .popc ⟨6, 33, 18⟩),
    (0b00101000111000010100100000101001, .sel ⟨3, 33, 18, 41⟩),
    (0b01000000111000010100101010100101, .addi ⟨3, 33, 18, 0x2A5⟩),
    (0b01000010111000010000001010100101, .movi ⟨3, 33, 0x2A5⟩),
    (0b01000100111000010100101010100101, .movhi ⟨3, 33, 18, 0x2A5⟩),
    (0b01000110111000010100100000111110, .shlI ⟨3, 33, 18, 62⟩),
    (0b01001000111000010100100000111110, .shrI ⟨3, 33, 18, 62⟩),
    (0b01001010111000010100100000111110, .sraI ⟨3, 33, 18, 62⟩),
    (0b01001100111000010100100000111110, .rotlI ⟨3, 33, 18, 62⟩),
    (0b01001110111000010100101010100101, .andI ⟨3, 33, 18, 0x2A5⟩)] : List (W32 × Instr)), decodeSlot .sa e.1 = e.2 := by
  decide +kernel

/-- Every scalar slot instruction by the moulds of R197 and the codes of R187. -/
theorem test_decode_scalar_2 : ∀ e ∈ ([
    (0b01010000111000010100101010100101, .orI ⟨3, 33, 18, 0x2A5⟩),
    (0b01010010111000010100101010100101, .xorI ⟨3, 33, 18, 0x2A5⟩),
    (0b01100000100001110100100000101001, .ceq ⟨2, 7, 18, 41⟩),
    (0b01110000100001110100101010100101, .ceqI ⟨2, 7, 18, 0x2A5⟩),
    (0b01100010100001110100100000101001, .cne ⟨2, 7, 18, 41⟩),
    (0b01110010100001110100101010100101, .cneI ⟨2, 7, 18, 0x2A5⟩),
    (0b01100100100001110100100000101001, .clt ⟨2, 7, 18, 41⟩),
    (0b01110100100001110100101010100101, .cltI ⟨2, 7, 18, 0x2A5⟩),
    (0b01100110100001110100100000101001, .cle ⟨2, 7, 18, 41⟩),
    (0b01110110100001110100101010100101, .cleI ⟨2, 7, 18, 0x2A5⟩),
    (0b01101000100001110100100000101001, .cltn ⟨2, 7, 18, 41⟩),
    (0b01111000100001110100101010100101, .cltnI ⟨2, 7, 18, 0x2A5⟩),
    (0b01101010100001110100100000101001, .clen ⟨2, 7, 18, 41⟩),
    (0b01111010100001110100101010100101, .clenI ⟨2, 7, 18, 0x2A5⟩),
    (0b10000000100001110001010000000110, .kand ⟨2, 7, 5, 6⟩),
    (0b10000010100001110001010000000110, .kor ⟨2, 7, 5, 6⟩),
    (0b10000100100001110001010000000110, .kxor ⟨2, 7, 5, 6⟩),
    (0b10010000101000010000000000001000, .smov ⟨2, 33, 8⟩),
    (0b10010010100011010100101010100101, .aset 2 13 18 0x2A5),
    (0b10010100100011010000001010100101, .aadd 2 13 0x2A5)] : List (W32 × Instr)), decodeSlot .sa e.1 = e.2 := by
  decide +kernel

/-- Every scalar slot instruction by the moulds of R197 and the codes of R187. -/
theorem test_decode_scalar_3 : ∀ e ∈ ([
    (0b10010110101000010011010000000000, .aget 2 33 13),
    (0b10100000100000000010101010111100, .bbc 2 0x2ABC),
    (0b00000000000000000000000000000000, .noOperation)] : List (W32 × Instr)), decodeSlot .sa e.1 = e.2 := by
  decide +kernel

/-- Every scalar slot instruction by the moulds of R197 and the codes of R187. -/
theorem test_decode_scalar_4 : ∀ e ∈ ([
    (0b00000101011000100100100000101001, .sub ⟨5, 34, 18, 41⟩),
    (0b00001001011000100100100000101001, .mulh ⟨5, 34, 18, 41⟩),
    (0b00001101011000100100100000101001, .and ⟨5, 34, 18, 41⟩),
    (0b00010001011000100100100000101001, .xor ⟨5, 34, 18, 41⟩),
    (0b00010101011000100100100000101001, .shl ⟨5, 34, 18, 41⟩),
    (0b00011001011000100100100000101001, .sra ⟨5, 34, 18, 41⟩),
    (0b00011101011000100100100000101001, .min ⟨5, 34, 18, 41⟩),
    (0b00100001011000100100100000101001, .minn ⟨5, 34, 18, 41⟩),
    (0b10100010000000000000101010111100, .mark 0xABC),
    (0b10100100000000000000000000000000, .yield),
    (0b00000000000000000000000000000000, .noOperation)] : List (W32 × Instr)), decodeSlot .sb e.1 = e.2 := by
  decide +kernel

/-- Every vector slot instruction by the moulds of R245 and the codes of R188. -/
theorem test_decode_vector_1 : ∀ e ∈ ([
    (0b00001011101101111111001001111101, .fadd ⟨.h2, 13, 95, 100, 0x7D⟩),
    (0b00010101101101111111001001111101, .fsub ⟨.b2, 13, 95, 100, 0x7D⟩),
    (0b00011001101101111111001001111101, .fmul ⟨.f, 13, 95, 100, 0x7D⟩),
    (0b00100011101101111111001001111101, .fma ⟨.h2, 13, 95, 100, 0x7D⟩),
    (0b00101101101101111111001001111101, .fms ⟨.b2, 13, 95, 100, 0x7D⟩),
    (0b00110001101101111111001001111101, .fnma ⟨.f, 13, 95, 100, 0x7D⟩),
    (0b00111011101101111111001001111101, .fnms ⟨.h2, 13, 95, 100, 0x7D⟩),
    (0b01000101101101111111001001111101, .fmin ⟨.b2, 13, 95, 100, 0x7D⟩),
    (0b01001001101101111111001001111101, .fmax ⟨.f, 13, 95, 100, 0x7D⟩),
    (0b01010011101101111111001001111101, .fminn ⟨.h2, 13, 95, 100, 0x7D⟩),
    (0b01011101101101111111001001111101, .fmaxn ⟨.b2, 13, 95, 100, 0x7D⟩),
    (0b01100001101000101111001001111101, .fceq ⟨.f, 13, 11, 100, 0x7D⟩),
    (0b01101011101000101111001001111101, .fclt ⟨.h2, 13, 11, 100, 0x7D⟩),
    (0b01110101101000101111001001111101, .fcle ⟨.b2, 13, 11, 100, 0x7D⟩),
    (0b01111001101000101111001001111101, .fcun ⟨.f, 13, 11, 100, 0x7D⟩),
    (0b10000101101101111111001000000000, .fclass ⟨.b2, 13, 95, 100⟩),
    (0b10001001101101111111001001111101, .vaddI32 ⟨13, 95, 100, 0x7D⟩),
    (0b10001011101101111111001001111101, .vsubI32 ⟨13, 95, 100, 0x7D⟩),
    (0b10001101101101111111001001111101, .vmulI32 ⟨13, 95, 100, 0x7D⟩),
    (0b10001111101101111111001001111101, .vand ⟨13, 95, 100, 0x7D⟩)] : List (W32 × Instr)), decodeSlot .vec e.1 = e.2 := by
  decide +kernel

/-- Every vector slot instruction by the moulds of R245 and the codes of R188. -/
theorem test_decode_vector_2 : ∀ e ∈ ([
    (0b10010001101101111111001001111101, .vor ⟨13, 95, 100, 0x7D⟩),
    (0b10010011101101111111001001111101, .vxor ⟨13, 95, 100, 0x7D⟩),
    (0b10010101101101111111001001111101, .vandn ⟨13, 95, 100, 0x7D⟩),
    (0b10010111101101111111001001111101, .vshl ⟨13, 95, 100, 0x7D⟩),
    (0b10011001101101111111001001111101, .vshr ⟨13, 95, 100, 0x7D⟩),
    (0b10011011101101111111001001111101, .vsra ⟨13, 95, 100, 0x7D⟩),
    (0b10011101101101111111001001111101, .vminI32 ⟨13, 95, 100, 0x7D⟩),
    (0b10011111101101111111001001111101, .vmaxI32 ⟨13, 95, 100, 0x7D⟩),
    (0b10100001101101111111001001111101, .vminN32 ⟨13, 95, 100, 0x7D⟩),
    (0b10100011101101111111001001111101, .vmaxN32 ⟨13, 95, 100, 0x7D⟩),
    (0b10100101101000101111001001111101, .vceqI32 ⟨13, 11, 100, 0x7D⟩),
    (0b10100111101000101111001001111101, .vcltI32 ⟨13, 11, 100, 0x7D⟩),
    (0b10101001101000101111001001111101, .vcltN32 ⟨13, 11, 100, 0x7D⟩),
    (0b10110001101101111111001000000000, .vmov ⟨13, 95, 100⟩),
    (0b10110011101101111110101001011011, .vmovi ⟨13, 95, 0x2A5B⟩),
    (0b10110101101101111101010010000000, .vbcs ⟨13, 95, 41⟩),
    (0b10110111101101111111001001111101, .vsel ⟨13, 95, 100, 0x7D⟩),
    (0b10111001101101111111001001111101, .pack ⟨13, 95, 100, 0x7D⟩),
    (0b10111011101101111111001000000011, .unpack ⟨13, 95, 100, 3⟩),
    (0b10111101101101111111001001111101, .perm ⟨13, 95, 100, 0x7D⟩)] : List (W32 × Instr)), decodeSlot .vec e.1 = e.2 := by
  decide +kernel

/-- Every vector slot instruction by the moulds of R245 and the codes of R188. -/
theorem test_decode_vector_3 : ∀ e ∈ ([
    (0b10111111101101111111001000001110, .bcl ⟨13, 95, 100, 14⟩),
    (0b11000001101101111111001000000111, .xcl ⟨13, 95, 100, 7⟩),
    (0b11000011101101111111001000000000, .vredAddF ⟨13, 95, 100⟩),
    (0b11000101101101111111001000000000, .vredMaxF ⟨13, 95, 100⟩),
    (0b11000111101101111111001000000000, .vredAddI32 ⟨13, 95, 100⟩),
    (0b11001001101101111111001000000000, .part ⟨13, 95, 100⟩),
    (0b11001011101000101100010010001110, .pand ⟨13, 11, 9, 14⟩),
    (0b11001101101000101100010010001110, .por ⟨13, 11, 9, 14⟩),
    (0b11001111101000101100010010001110, .pxor ⟨13, 11, 9, 14⟩),
    (0b11010001101000101100010010001110, .pandn ⟨13, 11, 9, 14⟩),
    (0b11010011101101111100010010000000, .ppop ⟨13, 95, 9⟩),
    (0b11110001101101111111001001001101, .cvt ⟨13, 95, 100, 14, 9, 5⟩),
    (0b11010101101101111111001001000001, .cvt ⟨13, 95, 100, 0, 8, 1⟩),
    (0b00000000000000000000000000000000, .noOperation)] : List (W32 × Instr)), decodeSlot .vec e.1 = e.2 := by
  decide +kernel

/-- Every instruction of the X slot and the memory slots by R174, R191, R302, R312, R190 and R206. -/
theorem test_decode_x_memory_1 : ∀ e ∈ ([
    (0b00000111011011111110010000000000, .rsqa ⟨13, 95, 100⟩),
    (0b00001011011011111110010000000000, .rcpa ⟨13, 95, 100⟩),
    (0b00001111011011111110010000000000, .exp2a ⟨13, 95, 100⟩),
    (0b00010011011011111110010000000000, .log2a ⟨13, 95, 100⟩),
    (0b00010111011011111110010000000000, .sina ⟨13, 95, 100⟩),
    (0b00011011011011111110010000000000, .cosa ⟨13, 95, 100⟩),
    (0b00011111011011111110010000000000, .tanha ⟨13, 95, 100⟩),
    (0b01000011111010110011010011000000, .mma ⟨15, 21, 9, 10, 6⟩),
    (0b01000001001001110011010011000001, .mmaAcc ⟨4, 19, 9, 10, 6⟩),
    (0b01000110100000000000000000000000, .mzero 20),
    (0b01001010100100111101010000000000, .mdrain ⟨20, 9, 14, 5⟩),
    (0b01001110111010010000000000000000, .msetF 11 41),
    (0b01010010110000001001000000000000, .msetC 11 9),
    (0b01010110111010011001000000000000, .msetS 11 41 9),
    (0b01100010100101111110000000000000, .rstat ⟨20, 95, 4⟩),
    (0b00000000000000000000000000000000, .noOperation)] : List (W32 × Instr)), decodeSlot .x e.1 = e.2 := by
  decide +kernel

/-- Every instruction of the X slot and the memory slots by R174, R191, R302, R312, R190 and R206. -/
theorem test_decode_x_memory_2 : ∀ e ∈ ([
    (0b00000111011011111100110010100101, .vld ⟨13, 95, 9, 0x4A5⟩),
    (0b00001011011011111100110010100101, .vldB ⟨13, 95, 9, 0x4A5⟩),
    (0b00100011011011111100110010100101, .vst ⟨13, 95, 9, 0x4A5⟩),
    (0b00010011011011111100111001000000, .vldx ⟨13, 95, 9, 100⟩),
    (0b00101011011011111100111001000000, .vstx ⟨13, 95, 9, 100⟩),
    (0b01100011011011111000010010100101, .spill ⟨13, 95, 0x4A5⟩),
    (0b01100111011011111000010010100101, .fill ⟨13, 95, 0x4A5⟩),
    (0b00000000000000000000000000000000, .noOperation)] : List (W32 × Instr)), decodeSlot .ma e.1 = e.2 := by
  decide +kernel

/-- Every instruction of the X slot and the memory slots by R174, R191, R302, R312, R190 and R206. -/
theorem test_decode_x_memory_3 : ∀ e ∈ ([
    (0b00001111011011111100110100110101, .vldS ⟨13, 95, 9, 41, 0x15⟩),
    (0b00100111011011111100110100110101, .vstS ⟨13, 95, 9, 41, 0x15⟩),
    (0b01000011010101001100110010100101, .sld ⟨13, 41, 9, 0x4A5⟩),
    (0b01000111010101001100110010100101, .sst ⟨13, 41, 9, 0x4A5⟩),
    (0b10000000001010011011010000000000, .swait 45 41),
    (0b10000100001010011011101010111100, .spost 41 5 0x1ABC),
    (0b10001000001010011011010000000000, .sarm 45 41),
    (0b10001000001010011011011000000000, .sarmZ 45 41),
    (0b00000000000000000000000000000000, .noOperation)] : List (W32 × Instr)), decodeSlot .mb e.1 = e.2 := by
  decide +kernel

/-- Words that the slot maps do not hold, and fields at the first value they refuse (R171 to R174, R187 to R191). -/
theorem test_decode_ienc_1 : ∀ e ∈ ([
    (0b10100100000000000000000000000000, .ienc 0b10100100000000000000000000000000),
    (0b10100010000000000000000000000000, .ienc 0b10100010000000000000000000000000),
    (0b00101010000000000000000000000000, .ienc 0b00101010000000000000000000000000),
    (0b10010010000100010000010000000000, .ienc 0b10010010000100010000010000000000)] : List (W32 × Instr)), decodeSlot .sa e.1 = e.2 := by
  decide +kernel

/-- Words that the slot maps do not hold, and fields at the first value they refuse (R171 to R174, R187 to R191). -/
theorem test_decode_ienc_2 : ∀ e ∈ ([
    (0b00000010000000010000010001000001, .ienc 0b00000010000000010000010001000001),
    (0b01100000000000000000010000000001, .ienc 0b01100000000000000000010000000001)] : List (W32 × Instr)), decodeSlot .sb e.1 = e.2 := by
  decide +kernel

/-- Words that the slot maps do not hold, and fields at the first value they refuse (R171 to R174, R187 to R191). -/
theorem test_decode_ienc_3 : ∀ e ∈ ([
    (0b00001110000101111111001001111101, .ienc 0b00001110000101111111001001111101),
    (0b10001000000110100011001001111101, .ienc 0b10001000000110100011001001111101),
    (0b10001000000101111111111101111101, .ienc 0b10001000000101111111111101111101),
    (0b00100000000111111111001001111101, .ienc 0b00100000000111111111001001111101),
    (0b11000000000101111111001000000000, .ienc 0b11000000000101111111001000000000),
    (0b11010100000101111111001000000001, .ienc 0b11010100000101111111001000000001),
    (0b11010100000101111111001000001110, .ienc 0b11010100000101111111001000001110),
    (0b11001010000000110000000000000000, .ienc 0b11001010000000110000000000000000)] : List (W32 × Instr)), decodeSlot .vec e.1 = e.2 := by
  decide +kernel

/-- Words that the slot maps do not hold, and fields at the first value they refuse (R171 to R174, R187 to R191). -/
theorem test_decode_ienc_4 : ∀ e ∈ ([
    (0b00100000000000000000000000000000, .ienc 0b00100000000000000000000000000000),
    (0b01000000001011000000000000000000, .ienc 0b01000000001011000000000000000000),
    (0b01100000000101111110100000000000, .ienc 0b01100000000101111110100000000000)] : List (W32 × Instr)), decodeSlot .x e.1 = e.2 := by
  decide +kernel

/-- Words that the slot maps do not hold, and fields at the first value they refuse (R171 to R174, R187 to R191). -/
theorem test_decode_ienc_5 : ∀ e ∈ ([
    (0b10000000000000000000000000000000, .ienc 0b10000000000000000000000000000000),
    (0b01100000001011111000100000000000, .ienc 0b01100000001011111000100000000000)] : List (W32 × Instr)), decodeSlot .ma e.1 = e.2 := by
  decide +kernel

/-- Words that the slot maps do not hold, and fields at the first value they refuse (R171 to R174, R187 to R191). -/
theorem test_decode_ienc_6 : ∀ e ∈ ([
    (0b10000100000000011110000000000000, .ienc 0b10000100000000011110000000000000),
    (0b00100000001111111000000000000000, .ienc 0b00100000001111111000000000000000)] : List (W32 × Instr)), decodeSlot .mb e.1 = e.2 := by
  decide +kernel

/-! ### Small states -/

/-- Context 0 of tile 0, as a launch leaves it, changed by f; the step is done for its hart. -/
def probe (f : Ctx → Ctx) : State :=
  { State.reset.withProbe.modCtx 0 0 f with focus := { tile := 0, ctx := 0, slot := 8, len := 4, fn := 0 } }

/-- Likewise with the hart changed by f. -/
def hartProbe (f : Hart → Hart) : State := probe fun x => { x with hart := f x.hart }

/-- Likewise with registers. -/
def regProbe (l : List (Nat × W64)) : State := hartProbe fun h => { h with x := l ++ h.x }

/-- Likewise for slot n of a bundle; the bundle's control registers are those of f. -/
def slotProbe (n : Nat) (f : Bun → Bun) : State :=
  { probe fun x => { x with bun := f x.bun } with focus := { tile := 0, ctx := 0, slot := n, len := 4, fn := 0 } }

/-- The step is done for function page f. -/
def forPage (f : Nat) (s : State) : State := { s with focus := { Focus.reset with fn := f } }

/-! ### Witnesses: for every statement, states and operands that meet the hypotheses of each of its clauses -/

/-- Register operations at the last operands. -/
theorem witness_ComputeWritesRd : At (probe id) 0 0 := ⟨rfl, rfl, by decide +kernel⟩

/-- Quotients at the last values that have one; the integers themselves are premises of no other clause. -/
theorem witness_MultiplyDivide :
    ((1 : W64) ≠ 0 ∧ ¬(BitVec.intMin 64 = BitVec.intMin 64 ∧ (1 : W64) = BitVec.allOnes 64))
    ∧ (BitVec.allOnes 64 ≠ 0 ∧ ¬((BitVec.intMin 64 + 1 = BitVec.intMin 64) ∧ BitVec.allOnes 64 = BitVec.allOnes 64)) := by
  and_intros <;> decide +kernel

/-- Targets 0xFFFE, the last that can be fetched, 0x10000, one below zero, and odd ones. -/
theorem witness_TransfersOfControl :
    (At (probe id) 0 0 ∧ Running (probe id) 0 0
      ∧ Fetchable (((probe id).hart 0 0).pc + BitVec.ofInt 64 (2 * (0x7FFF : BitVec 20).toInt))
      ∧ 0x10000 ≤ (((probe id).hart 0 0).pc + BitVec.ofInt 64 (2 * (0x8000 : BitVec 20).toInt)).toNat)
    ∧ (At (regProbe [(5, 0xFFFF), (6, 0x10000)]) 0 0 ∧ Running (regProbe [(5, 0xFFFF), (6, 0x10000)]) 0 0
      ∧ (((regProbe [(5, 0xFFFF), (6, 0x10000)]).getX 0 0 5 + (0 : BitVec 12).signExtend 64) &&& ~~~1#64).toNat < 0x10000
      ∧ 0x10000 ≤ (((regProbe [(5, 0xFFFF), (6, 0x10000)]).getX 0 0 6 + (0 : BitVec 12).signExtend 64) &&& ~~~1#64).toNat
      ∧ branchTest .beq ((regProbe [(5, 0xFFFF), (6, 0x10000)]).getX 0 0 5) ((regProbe [(5, 0xFFFF), (6, 0x10000)]).getX 0 0 5) = true
      ∧ branchTest .bne ((regProbe [(5, 0xFFFF), (6, 0x10000)]).getX 0 0 5) ((regProbe [(5, 0xFFFF), (6, 0x10000)]).getX 0 0 5) = false)
    ∧ (At (hartProbe fun h => { h with pc := 1 }) 0 0 ∧ Running (hartProbe fun h => { h with pc := 1 }) 0 0
      ∧ branchTest .beq ((hartProbe fun h => { h with pc := 1 }).getX 0 0 0) ((hartProbe fun h => { h with pc := 1 }).getX 0 0 0) = true
      ∧ (((hartProbe fun h => { h with pc := 1 }).hart 0 0).pc + BitVec.ofInt 64 (2 * (0 : BitVec 12).toInt)).getLsbD 0 = true
      ∧ (((hartProbe fun h => { h with pc := 1 }).hart 0 0).pc + BitVec.ofInt 64 (2 * (0 : BitVec 20).toInt)).getLsbD 0 = true)
    ∧ (At (probe id) 0 0 ∧ Running (probe id) 0 0 ∧ branchTest .beq ((probe id).getX 0 0 0) ((probe id).getX 0 0 0) = true
      ∧ (((probe id).hart 0 0).pc + BitVec.ofInt 64 (2 * (0x800 : BitVec 12).toInt)).getLsbD 0 = false
      ∧ 0x10000 ≤ (((probe id).hart 0 0).pc + BitVec.ofInt 64 (2 * (0x800 : BitVec 12).toInt)).toNat
      ∧ (((probe id).hart 0 0).pc + BitVec.ofInt 64 (2 * (0x8000 : BitVec 20).toInt)).getLsbD 0 = false) := by
  simp only [At, Running, Fetchable]
  and_intros <;> decide +kernel

/-- A register that addresses the first and the last eight bytes of the carve, the last bytes of the semaphore block. -/
def edges : State := regProbe [(5, 0), (6, 0xFF8), (7, 0x3FFFF8), (8, 0xFFF)]

/-- Loads of eight bytes at 0, at the end of the carve and at the end of the semaphore block. -/
theorem witness_LoadWritesRd :
    At edges 0 0 ∧ Reaches edges 0 0 (edges.getX 0 0 5 + (0 : BitVec 12).signExtend 64) (loadSize .ld) true false
      ∧ Reaches edges 0 0 (edges.getX 0 0 6 + (0 : BitVec 12).signExtend 64) (loadSize .ld) true false
      ∧ Reaches edges 0 0 (edges.getX 0 0 7 + (0 : BitVec 12).signExtend 64) (loadSize .ld) true false := by
  simp only [At, Reaches]
  and_intros <;> decide +kernel

/-- Stores at 0 and of the last byte of the carve. -/
theorem witness_StoreWritesBytes :
    At edges 0 0 ∧ Reaches edges 0 0 (edges.getX 0 0 5 + (0 : BitVec 12).signExtend 64) (Machine.sizeOf 3) false true
      ∧ (edges.getX 0 0 5 + (0 : BitVec 12).signExtend 64).toNat < semBase
      ∧ Reaches edges 0 0 (edges.getX 0 0 8 + (0 : BitVec 12).signExtend 64) (Machine.sizeOf 0) false true
      ∧ (edges.getX 0 0 8 + (0 : BitVec 12).signExtend 64).toNat < semBase := by
  simp only [At, Reaches]
  and_intros <;> decide +kernel

/-- Addresses 1, 0x400000, the last of 64 bits, and the first beyond the carve. -/
theorem witness_AccessTraps :
    let s := regProbe [(5, 1), (6, 0x400000), (7, 0xFFFFFFFFFFFFFFF8), (8, 0x1000)]
    At s 0 0 ∧ Running s 0 0
      ∧ (s.getX 0 0 5 + (0 : BitVec 12).signExtend 64).toNat % loadSize .ld ≠ 0
      ∧ (s.getX 0 0 6 + (0 : BitVec 12).signExtend 64).toNat % loadSize .ld = 0
      ∧ 0x400000 ≤ (s.getX 0 0 6 + (0 : BitVec 12).signExtend 64).toNat
      ∧ (s.getX 0 0 5 + (0 : BitVec 12).signExtend 64).toNat % Machine.sizeOf 1 ≠ 0
      ∧ (s.getX 0 0 7 + (0 : BitVec 12).signExtend 64).toNat % Machine.sizeOf 3 = 0
      ∧ 0x400000 ≤ (s.getX 0 0 7 + (0 : BitVec 12).signExtend 64).toNat
      ∧ (s.getX 0 0 5).toNat % atomicSize false ≠ 0 ∧ (s.getX 0 0 5).toNat % atomicSize true ≠ 0
      ∧ (s.getX 0 0 6).toNat % atomicSize true = 0 ∧ 0x400000 ≤ (s.getX 0 0 6).toNat
      ∧ (s.getX 0 0 8).toNat % atomicSize true = 0 ∧ (s.getX 0 0 8).toNat < semBase
      ∧ s.inLaunchCarves (s.ctx 0 0).launch 0 (s.getX 0 0 8).toNat (atomicSize true) = false := by
  simp only [At, Running]
  and_intros <;> decide +kernel

/-- A reservation that is held, one of another line, at 0; one of the last semaphore's entry. -/
theorem witness_LoadReserveStoreConditional :
    (let s := hartProbe fun h => { h with x := (5, 0) :: h.x, reservation := some 0 }
     At s 0 0 ∧ Reaches s 0 0 (s.getX 0 0 5) (atomicSize true) true false ∧ Reaches s 0 0 (s.getX 0 0 5) (atomicSize true) false true
      ∧ (s.getX 0 0 5).toNat < semBase ∧ (s.hart 0 0).reservation = some ((s.getX 0 0 5).toNat / 64))
    ∧ (let s := hartProbe fun h => { h with x := (5, 0xFF8) :: h.x, reservation := some 0 }
     At s 0 0 ∧ Reaches s 0 0 (s.getX 0 0 5) (atomicSize false) false true ∧ (s.getX 0 0 5).toNat < semBase
      ∧ (s.hart 0 0).reservation ≠ some ((s.getX 0 0 5).toNat / 64))
    ∧ (let s := hartProbe fun h => { h with x := (5, 0x3FFFD0) :: h.x, reservation := some 0xFFFF }
     At s 0 0 ∧ Reaches s 0 0 (s.getX 0 0 5) (atomicSize false) false true ∧ (s.getX 0 0 5).toNat = semBase + 64 * 63 + 16
      ∧ (s.hart 0 0).reservation = some ((s.getX 0 0 5).toNat / 64)) := by
  simp only [At, Reaches]
  and_intros <;> decide +kernel

/-- The last bytes of the carve, and of the last semaphore's entry. -/
theorem witness_AmoReadsAndWrites :
    At edges 0 0 ∧ (edges.getX 0 0 6).toNat < semBase ∧ Reaches edges 0 0 (edges.getX 0 0 6) 4 true true
      ∧ Reaches edges 0 0 (edges.getX 0 0 6) 8 true true ∧ Reaches edges 0 0 (edges.getX 0 0 7) 4 true true
      ∧ Reaches edges 0 0 (edges.getX 0 0 7) 8 true true ∧ (edges.getX 0 0 7).toNat = semBase + 64 * 63 + 56 := by
  simp only [At, Reaches]
  and_intros <;> decide +kernel

/-- The last semaphore's TARGET, ERR byte, POST, and the rest of its entry. -/
def atSem (o : Nat) (v : W64) : State := regProbe [(5, BitVec.ofNat 64 (semBase + 64 * 63 + o)), (6, v)]

theorem witness_SemaphoreStores :
    (let s := atSem 3 0xAB
     At s 0 0 ∧ Reaches s 0 0 (s.getX 0 0 5 + (0 : BitVec 12).signExtend 64) (Machine.sizeOf 0) false true
      ∧ (s.getX 0 0 5 + (0 : BitVec 12).signExtend 64).toNat = semBase + 64 * 63 + 3 ∧ 3 < 64 ∧ 3 < 4
      ∧ ∀ i, i < 4 → byteOf (0xAB000000 : W32) i =
        if 3 ≤ i ∧ i < 3 + Machine.sizeOf 0 then byteOf (s.getX 0 0 6) (i - 3) else byteOf (s.sem 0 63).target i)
    ∧ (let s := atSem 10 3
       At s 0 0 ∧ Reaches s 0 0 (s.getX 0 0 5 + (0 : BitVec 12).signExtend 64) (Machine.sizeOf 0) false true
        ∧ (s.getX 0 0 5 + (0 : BitVec 12).signExtend 64).toNat = semBase + 64 * 63 + 10 ∧ 10 < 10 + Machine.sizeOf 0)
    ∧ (let s := atSem 8 3
       At s 0 0 ∧ Reaches s 0 0 (s.getX 0 0 5 + (0 : BitVec 12).signExtend 64) (Machine.sizeOf 2) false true
        ∧ (s.getX 0 0 5 + (0 : BitVec 12).signExtend 64).toNat = semBase + 64 * 63 + 8 ∧ 10 < 8 + Machine.sizeOf 2)
    ∧ (let s := atSem 16 0x1FFFFFFFF
       At s 0 0 ∧ Reaches s 0 0 (s.getX 0 0 5 + (0 : BitVec 12).signExtend 64) (Machine.sizeOf 2) false true
        ∧ (s.getX 0 0 5 + (0 : BitVec 12).signExtend 64).toNat = semBase + 64 * 63 + 16)
    ∧ low32 ((atSem 16 0x100000000).getX 0 0 6) = 0 ∧ At (atSem 16 0x100000000) 0 0 ∧ low32 ((atSem 16 0x1FFFFFFFF).getX 0 0 6) ≠ 0
    ∧ (let s := atSem 19 1
       At s 0 0 ∧ Reaches s 0 0 (s.getX 0 0 5 + (0 : BitVec 12).signExtend 64) (Machine.sizeOf 0) false true
        ∧ (s.getX 0 0 5 + (0 : BitVec 12).signExtend 64).toNat = semBase + 64 * 63 + 19 ∧ 19 < 20 ∧ ¬(19 = 16 ∧ (0 : BitVec 2) = 2))
    ∧ (let s := atSem 4 1
       At s 0 0 ∧ Reaches s 0 0 (s.getX 0 0 5 + (0 : BitVec 12).signExtend 64) (Machine.sizeOf 2) false true
        ∧ (s.getX 0 0 5 + (0 : BitVec 12).signExtend 64).toNat = semBase + 64 * 63 + 4)
    ∧ (let s := atSem 63 1
       At s 0 0 ∧ Reaches s 0 0 (s.getX 0 0 5 + (0 : BitVec 12).signExtend 64) (Machine.sizeOf 0) false true
        ∧ (s.getX 0 0 5 + (0 : BitVec 12).signExtend 64).toNat = semBase + 64 * 63 + 63) := by
  simp only [At, Reaches]
  and_intros <;> decide +kernel

/-- Numbers of rounds that are enough at the largest count. -/
theorem witness_CreditRule :
    min 0xFFFFFFFF (({ Sem.reset with count := 0xFFFFFFFF } : Sem).count.toNat + 1) ≤ 0xFFFFFFFF
      ∧ ({ Sem.reset with count := 0xFFFFFFFF } : Sem).count.toNat ≤ 0xFFFFFFFF := by
  and_intros <;> decide +kernel

/-- A CSR that is read, one that is set with register x5, clear with immediate zero. -/
theorem witness_CsrReadsAndWrites :
    let s := regProbe [(5, 0xFFFFFFFFFFFFFFFF)]
    At s 0 0 ∧ s.csrRead 0 0 0xCC6 = some 1 ∧ s.csrRead 0 0 0x800 = some 0 ∧ wellFormed (.csrWrite .rci 0x800 6 0) = true
      ∧ csrNew .rci 0 (s.csrSrc 0 0 .rci 0) 0 = none ∧ wellFormed (.csrWrite .rw 0x800 6 5) = true
      ∧ csrNew .rw 0 (s.csrSrc 0 0 .rw 5) 5 = some 0xFFFFFFFFFFFFFFFF ∧ csrWritable 0x800 = true := by
  simp only [At]
  and_intros <;> decide +kernel

/-- cycle is no CSR here, ktile is read-only; codes at the first value refused; a7 is not zero. -/
theorem witness_IllegalAndEnvironmentTraps :
    let s := regProbe [(17, 1)]
    At s 0 0 ∧ Running s 0 0 ∧ s.csrRead 0 0 0xC00 = none ∧ s.csrRead 0 0 0xCC0 = some 0
      ∧ csrNew .rw 0 (s.csrSrc 0 0 .rw 5) 5 = some 0 ∧ csrWritable 0xCC0 = false ∧ scopeOk 0 = false ∧ scopeOk 7 = false
      ∧ queueOk 6 = false ∧ wellFormed (.kBar 6 5 0 0) = false ∧ wellFormed (.kBar 4 5 1 0) = false ∧ barScopeOk 6 = false
      ∧ s.getX 0 0 17 ≠ 0 := by
  simp only [At, Running]
  and_intros <;> decide +kernel

theorem witness_ExitRetiresTheTask : At (probe id) 0 0 ∧ (probe id).getX 0 0 17 = 0 := by
  simp only [At]
  and_intros <;> decide +kernel

/-- A translation whose outcome is an address, from a check that the kernel evaluates. -/
theorem reaches_of {r : State} {d : Dest} {p : State × Except TFault Dest}
    (h : (match p with
      | (u, .ok e) => decide (u = r ∧ e = d)
      | _ => false) = true) : p = (r, .ok d) := by
  obtain ⟨u, _ | e⟩ := p
  · cases h
  · obtain ⟨rfl, rfl⟩ := of_decide_eq_true h
    rfl

/-- s with page 0x10000 of address space 0 in the TLB of tile 0, by its page-table entry. -/
def paged (pte : W64) (s : State) : State :=
  s.modTile 0 fun x => { x with tlb := [{ asid := 0, size := 0, page := 1, pte := pte }] }

/-- A page of HBM, a page of host memory, both for reading and writing, and a page of HBM for reading only. -/
def hbmPage : W64 := BitVec.ofNat 64 (2 ^ 63 + 2 ^ 56 + 2 ^ 55 + 7)
def hostPage : W64 := BitVec.ofNat 64 (2 ^ 63 + 2 ^ 58 + 2 ^ 56 + 2 ^ 55 + 7)
def readPage : W64 := BitVec.ofNat 64 (2 ^ 63 + 2 ^ 55 + 7)

/-- The launch of the probe on tiles 0 and 1. -/
def twoTiles (s : State) : State :=
  (s.modLaunch 0 fun l => { l with tiles := [0, 1], left := 2 }).setCtx 1 0 { s.ctx 0 0 with task := 1 }

/-- A reference to the last eight bytes of a carve of another tile, and the last bytes of a page of HBM and of host memory. -/
theorem witness_AcquireLoads :
    (let s := twoTiles (regProbe [(5, 0x8000000100000FF8)])
     At s 0 0 ∧ scopeOk 6 = true ∧ (s.hart 0 0).wait = none
      ∧ Leads s 0 0 true (s.getX 0 0 5) (Machine.sizeOf 3) ⟨true, false, false⟩ s (.tile 1) (sliceAddr 1 0xFF8) 0)
    ∧ (let s := paged hbmPage (regProbe [(5, 0x1FFFF)])
       At s 0 0 ∧ scopeOk 1 = true ∧ (s.hart 0 0).wait = none
        ∧ Leads s 0 0 false (s.getX 0 0 5) (Machine.sizeOf 0) ⟨true, false, false⟩ s
          (s.homeOf (s.canon (hbmBase + 0x7FFFF))) (s.canon (hbmBase + 0x7FFFF)) 0)
    ∧ (let s := paged hostPage (regProbe [(5, 0x10000)])
       At s 0 0 ∧ (s.hart 0 0).wait = none
        ∧ Leads s 0 0 false (s.getX 0 0 5) (Machine.sizeOf 3) ⟨true, false, false⟩ s .host 0x70000 0) := by
  refine ⟨⟨⟨rfl, rfl, ?_⟩, ?_, ?_, ?_, ?_⟩, ⟨⟨rfl, rfl, ?_⟩, ?_, ?_, ?_, ⟨.hbm _ 0, reaches_of ?_, rfl⟩⟩,
    ⟨rfl, rfl, ?_⟩, ?_, ?_, ⟨.host 0x70000, reaches_of ?_, rfl⟩⟩ <;> try and_intros
  all_goals decide +kernel

theorem witness_ReleaseStores :
    (let s := twoTiles (regProbe [(5, 0x8000000100000FF8)])
     At s 0 0 ∧ scopeOk 6 = true
      ∧ Leads s 0 0 true (s.getX 0 0 5) (Machine.sizeOf 3) ⟨false, true, false⟩ s (.tile 1) (sliceAddr 1 0xFF8) 0)
    ∧ (let s := paged hostPage (regProbe [(5, 0x1FFF8)])
       At s 0 0 ∧ scopeOk 1 = true
        ∧ Leads s 0 0 false (s.getX 0 0 5) (Machine.sizeOf 3) ⟨false, true, false⟩ s .host 0x7FFF8 0) := by
  refine ⟨⟨⟨rfl, rfl, ?_⟩, ?_, ?_, ?_⟩, ⟨rfl, rfl, ?_⟩, ?_, ?_, ⟨.host 0x7FFF8, reaches_of ?_, rfl⟩⟩ <;> try and_intros
  all_goals decide +kernel

theorem witness_RemoteAtomics :
    (let s := twoTiles (regProbe [(5, 0x8000000100000FF8)])
     At s 0 0 ∧ scopeOk 6 = true ∧ (s.hart 0 0).wait = none
      ∧ Leads s 0 0 true (s.getX 0 0 5) 4 ⟨false, true, true⟩ s (.tile 1) (sliceAddr 1 0xFF8) 0
      ∧ Leads s 0 0 true (s.getX 0 0 5) 8 ⟨false, true, true⟩ s (.tile 1) (sliceAddr 1 0xFF8) 0)
    ∧ (let s := paged hbmPage (regProbe [(5, 0x1FFF8)])
       At s 0 0 ∧ (s.hart 0 0).wait = none
        ∧ Leads s 0 0 false (s.getX 0 0 5) 8 ⟨false, true, true⟩ s
          (s.homeOf (s.canon (hbmBase + 0x7FFF8))) (s.canon (hbmBase + 0x7FFF8)) 0) := by
  refine ⟨⟨⟨rfl, rfl, ?_⟩, ?_, ?_, ⟨?_, ?_⟩, ?_, ?_⟩, ⟨rfl, rfl, ?_⟩, ?_, ?_, ⟨.hbm _ 0, reaches_of ?_, rfl⟩⟩ <;> try and_intros
  all_goals decide +kernel

/-- A message of the hart on its way to host memory. -/
def oneOut : State :=
  let s := hartProbe fun h => { h with outst := [0] }
  { s with nextId := 1, net := [{ id := 0, src := 0, home := .host, clock := Clock.zero, sent := 0, after := [], own := some (0, 0), va := 0, fn := 0,
                                  body := .write 0 [some 1] 0 none }] }

/-- Nothing outstanding; a write to the host, not performed at scope .sys, whose scope .pkg does not reach it. -/
theorem witness_Fences :
    At (probe id) 0 0 ∧ scopeOk 6 = true ∧ (probe id).unperformed 0 0 6 = [] ∧ At oneOut 0 0 ∧ oneOut.unperformed 0 0 6 ≠ []
      ∧ (oneOut.hart 0 0).wait = none ∧ oneOut.unperformed 0 0 4 = [] := by
  simp only [At]
  and_intros <;> decide +kernel

/-- References to semaphores 0 and 63 of the tile. -/
theorem witness_SarmStoresTarget :
    let s := regProbe [(5, 0), (6, 63)]
    At s 0 0 ∧ s.localSemRef 0 0 (s.getX 0 0 5) = true ∧ s.localSemRef 0 0 (s.getX 0 0 6) = true := by
  simp only [At]
  and_intros <;> decide +kernel

theorem witness_SreadReadsOneStep :
    let s := regProbe [(5, 0), (6, 63)]
    At s 0 0 ∧ s.localSemRef 0 0 (s.getX 0 0 5) = true ∧ s.localSemRef 0 0 (s.getX 0 0 6) = true := by
  simp only [At]
  and_intros <;> decide +kernel

/-- Semaphore 63 of another tile; counts of zero and not; a generation 32,767 ahead and one 32,768 ahead. -/
theorem witness_PostsAndWaits :
    (let s := twoTiles (regProbe [(5, 0x800000010000003F), (6, 0x100000000), (7, 1)])
     At s 0 0 ∧ scopeOk 6 = true ∧ s.semRefOk 0 0 (s.getX 0 0 5) = true ∧ low32 (s.getX 0 0 6) = 0 ∧ low32 (s.getX 0 0 7) ≠ 0)
    ∧ (let s := regProbe [(5, 63), (6, 0x8001), (7, 0x8000)]
       At s 0 0 ∧ s.localSemRef 0 0 (s.getX 0 0 5) = true
        ∧ ((s.sem 0 (refAddr (s.getX 0 0 5))).gen - (s.getX 0 0 6).extractLsb' 0 16).toNat < 32768
        ∧ 32768 ≤ ((s.sem 0 (refAddr (s.getX 0 0 5))).gen - (s.getX 0 0 7).extractLsb' 0 16).toNat ∧ (s.hart 0 0).wait = none) := by
  simp only [At]
  and_intros <;> decide +kernel

/-- A hart that waits in i with a deadline that has just come; register 7 holds a value one ahead of what has come. -/
def waiting (what : WaitFor) (i : Instr) (d : Option Nat) : State :=
  hartProbe fun h => { h with x := [(7, 1)], wait := some { what := what, instr := i, len := 4, deadline := d, since := 0, reported := 0 } }

/-- A generation 32,768 ahead, a timeline and an episode one ahead, at the deadline. -/
theorem witness_WaitsTimeOut :
    (let s := waiting (.sem 63 0x8000) (.kSwait 5 6 7) (some 0)
     At s 0 0 ∧ (s.hart 0 0).wait.map Wait.what = some (.sem 63 0x8000) ∧ (s.hart 0 0).wait.map Wait.instr = some (.kSwait 5 6 7)
      ∧ (s.hart 0 0).wait.map Wait.deadline = some (some 0) ∧ 0 ≤ s.now ∧ 32768 ≤ ((s.sem 0 63).gen - 0x8000).toNat)
    ∧ (let s := waiting (.timeline 5) (.kTlwait 5 6 7 8) (some 0)
       At s 0 0 ∧ (s.hart 0 0).wait.map Wait.instr = some (.kTlwait 5 6 7 8) ∧ (s.hart 0 0).wait.map Wait.deadline = some (some 0)
        ∧ ((s.ctx 0 0).count (5 : BitVec 3).toNat).timeline < s.getX 0 0 7)
    ∧ (let s := waiting .bar (.kBarw 5 6 7 8) (some 0)
       At s 0 0 ∧ (s.hart 0 0).wait.map Wait.instr = some (.kBarw 5 6 7 8) ∧ (s.hart 0 0).wait.map Wait.deadline = some (some 0)
        ∧ (s.ctx 0 0).completedAt (5 : BitVec 3).toNat < (s.getX 0 0 7).toNat) := by
  simp only [At]
  and_intros <;> decide +kernel

/-- s with a full cell at the last 16 bytes of the carve. -/
def fullCell (s : State) : State := s.pokeLocal 0 0xFFC 1

theorem witness_FuturesPutAndTaken :
    (let s := twoTiles (regProbe [(5, 0x8000000100000FF0)])
     At s 0 0 ∧ scopeOk 1 = true ∧ (s.getX 0 0 5).toNat % 16 = 0 ∧ s.refOk 0 0 (s.getX 0 0 5) 16 = true)
    ∧ (let s := fullCell (regProbe [(5, 0xFF0), (6, 0)])
       At s 0 0 ∧ s.cellCause 0 0 (s.getX 0 0 5) = none ∧ s.cellFull 0 (refAddr (s.getX 0 0 5)) = true
        ∧ s.localBad 0 (refAddr (s.getX 0 0 5)) 16 = false ∧ s.localBad 0 (refAddr (s.getX 0 0 6)) 16 = false
        ∧ s.cellCause 0 0 (s.getX 0 0 6) = none ∧ s.cellFull 0 (refAddr (s.getX 0 0 6)) = false ∧ (s.hart 0 0).wait = none
        ∧ (s.hart 0 0).fhandler = 0)
    ∧ (let s := hartProbe fun h => { h with fhandler := 0x40, fin := true }
       At s 0 0 ∧ (s.hart 0 0).fin = true ∧ s.cellCause 0 0 (s.getX 0 0 5) = none ∧ s.cellFull 0 (refAddr (s.getX 0 0 5)) = false) := by
  simp only [At]
  and_intros <;> decide +kernel

theorem witness_FemptyAndReturn :
    (let s := hartProbe fun h => { h with fhandler := 0xFFFE, x := (5, 0xFF0) :: h.x }
     At s 0 0 ∧ s.cellCause 0 0 (s.getX 0 0 5) = none ∧ s.cellFull 0 (refAddr (s.getX 0 0 5)) = false
      ∧ s.localBad 0 (refAddr (s.getX 0 0 5)) 16 = false
      ∧ (s.hart 0 0).fhandler ≠ 0 ∧ (s.hart 0 0).fin = false ∧ (s.hart 0 0).wait = none)
    ∧ (At (hartProbe fun h => { h with fin := true }) 0 0 ∧ ((hartProbe fun h => { h with fin := true }).hart 0 0).fin = true)
    ∧ (At (probe id) 0 0 ∧ ((probe id).hart 0 0).fin = false ∧ Running (probe id) 0 0) := by
  simp only [At, Running]
  and_intros <;> decide +kernel

/-- Misaligned addresses, references to a tile that the launch has not, to semaphore 64, a page without write permission,
an address space without an entry. -/
theorem witness_XkglAccessTraps :
    (let s := regProbe [(5, 1), (6, 0x8000000100000000), (7, 64), (8, 0x1000), (9, 2), (11, 4)]
     At s 0 0 ∧ Running s 0 0 ∧ scopeOk 6 = true ∧ (s.getX 0 0 5).toNat % Machine.sizeOf 1 ≠ 0
      ∧ (s.getX 0 0 6).toNat % Machine.sizeOf 3 = 0 ∧ s.refOk 0 0 (s.getX 0 0 6) (Machine.sizeOf 3) = false
      ∧ s.refOk 0 0 (s.getX 0 0 8) (Machine.sizeOf 0) = false
      ∧ (s.getX 0 0 9).toNat % 4 ≠ 0 ∧ (s.getX 0 0 11).toNat % 8 ≠ 0 ∧ s.refOk 0 0 (s.getX 0 0 8) 4 = false
      ∧ s.refOk 0 0 (s.getX 0 0 8) 8 = false ∧ s.localSemRef 0 0 (s.getX 0 0 7) = false ∧ s.semRefOk 0 0 (s.getX 0 0 7) = false
      ∧ (s.getX 0 0 5).toNat % 16 ≠ 0 ∧ (s.getX 0 0 8).toNat % 16 = 0 ∧ s.refOk 0 0 (s.getX 0 0 8) 16 = false
      ∧ s.cellCause 0 0 (s.getX 0 0 5) = some 4 ∧ s.cellCause 0 0 (s.getX 0 0 8) = some 5)
    ∧ (let s := regProbe [(5, 0x10000)]
       At s 0 0 ∧ Running s 0 0 ∧ (s.getX 0 0 5).toNat % Machine.sizeOf 3 = 0 ∧ recFqVa (s.recOf 0 0) = 0
        ∧ (s.translate 0 (s.asidOf 0 0) (s.getX 0 0 5) ⟨true, false, false⟩).2 = .error ⟨0x10, 1⟩
        ∧ (s.translate 0 (s.asidOf 0 0) (s.getX 0 0 5) ⟨false, true, false⟩).2 = .error ⟨0x10, 1⟩
        ∧ (s.translate 0 (s.asidOf 0 0) (s.getX 0 0 5) ⟨false, true, true⟩).2 = .error ⟨0x10, 1⟩
        ∧ (s.getX 0 0 5).toNat % 4 = 0 ∧ (s.getX 0 0 5).toNat % 8 = 0) := by
  simp only [At, Running]
  and_intros <;> first | decide +kernel | rfl

/-- A descriptor in the last 64 bytes of the carve, queues with one place left. -/
theorem witness_RunCommandsEnter :
    let s := probe fun x => { x with hart := { x.hart with x := (5, 0xFC0) :: x.hart.x }, runs := List.replicate 15 (runEntry 0 false 0 0) }
    At s 0 0 ∧ (s.ctx 0 0).runs.length < 16 ∧ (s.getX 0 0 5).toNat % 64 = 0 ∧ s.inOwnCarve 0 0 (s.getX 0 0 5).toNat 64 = true
      ∧ Took s 0 0 (s.getX 0 0 5) 0 := by
  refine ⟨⟨rfl, rfl, ?_⟩, ?_, ?_, ?_, .inl ⟨?_, ?_, ?_⟩⟩
  all_goals decide +kernel

theorem witness_CopyCommandsEnter :
    let s := probe fun x => { x with
      hart := { x.hart with x := (5, 0xFC0) :: x.hart.x }
      chans := [(3, List.replicate 31 (queueEntry 0 false 0)), (5, List.replicate 15 (queueEntry 0 false 0))] }
    At s 0 0 ∧ ((s.ctx 0 0).chan (3 : BitVec 2).toNat).length < 32 ∧ ((s.ctx 0 0).chan 5).length < 16 ∧ (s.getX 0 0 5).toNat % 64 = 0
      ∧ s.inOwnCarve 0 0 (s.getX 0 0 5).toNat 64 = true ∧ Took s 0 0 (s.getX 0 0 5) 0 := by
  refine ⟨⟨rfl, rfl, ?_⟩, ?_, ?_, ?_, ?_, .inl ⟨?_, ?_, ?_⟩⟩
  all_goals decide +kernel

/-- Full queues; a misaligned descriptor, one that lies beyond the carve. -/
theorem witness_CommandsBlockOrTrap :
    (let s := probe fun x => { x with
       hart := { x.hart with x := (5, 0xFC0) :: x.hart.x }
       runs := List.replicate 16 (runEntry 0 false 0 0)
       chans := [(0, List.replicate 32 (queueEntry 0 false 0)), (5, List.replicate 16 (queueEntry 0 false 0))] }
     At s 0 0 ∧ s.localBad 0 (s.getX 0 0 5).toNat 64 = false ∧ ((s.ctx 0 0).chan 5).length = 16 ∧ (s.ctx 0 0).runs.length = 16 ∧ ((s.ctx 0 0).chan (0 : BitVec 2).toNat).length = 32 ∧ (s.hart 0 0).wait = none
      ∧ (s.getX 0 0 5).toNat % 64 = 0 ∧ s.inOwnCarve 0 0 (s.getX 0 0 5).toNat 64 = true)
    ∧ (let s := regProbe [(5, 0xFC1), (6, 0x1000)]
       At s 0 0 ∧ Running s 0 0 ∧ (s.getX 0 0 5).toNat % 64 ≠ 0 ∧ (s.getX 0 0 6).toNat % 64 = 0
        ∧ s.inOwnCarve 0 0 (s.getX 0 0 6).toNat 64 = false) := by
  simp only [At, Running]
  and_intros <;> decide +kernel

/-- Every queue joined; the stack queue, the last, not. -/
theorem witness_QueueFencesAndJoin :
    (At (probe id) 0 0 ∧ (0x3F : BitVec 6) ≠ 0
      ∧ ∀ q, q < 6 → (((probe id).ctx 0 0).count q).fence ≤ (((probe id).ctx 0 0).count q).retired)
    ∧ (let s := probe fun x => { x with counts := [(5, { Counts.reset with issued := 1, fence := 1 })] }
       At s 0 0 ∧ ¬((s.ctx 0 0).count 5).fence ≤ ((s.ctx 0 0).count 5).retired ∧ (s.hart 0 0).wait = none) := by
  simp only [At]
  and_intros <;> decide +kernel

/-- A timeline that has just reached the value, and one that has not. -/
theorem witness_TimelinesAndQueueState :
    let s := regProbe [(5, 0), (6, 1)]
    At s 0 0 ∧ (5 : BitVec 3).toNat ≤ 5 ∧ s.getX 0 0 5 ≤ ((s.ctx 0 0).count (5 : BitVec 3).toNat).timeline
      ∧ ((s.ctx 0 0).count (5 : BitVec 3).toNat).timeline < s.getX 0 0 6 ∧ (s.hart 0 0).wait = none := by
  simp only [At]
  and_intros <;> decide +kernel

/-- The probe with a parcel space of n of which d are drawn and l stand in the tile's queue. -/
def withParcels (n d : Nat) (l : List Nat) : State :=
  { probe id with parcels := [(0, { total := n, next := d + l.length, drawn := d, q := [(0, l)], drawnAt := [], hungry := [], weight := [] })] }

theorem witness_ParcelsDrawn :
    At (probe id) 0 0 ∧ (probe id).parcelsOf ((probe id).ctx 0 0).launch = none
      ∧ ((withParcels 5 4 [4]).parcelsOf ((withParcels 5 4 [4]).ctx 0 0).launch).map (fun p => p.queue 0) = some [4]
      ∧ ((withParcels 5 5 []).parcelsOf ((withParcels 5 5 []).ctx 0 0).launch).map (fun p => (p.queue 0, p.drawn, p.total)) = some ([], 5, 5)
      ∧ ((withParcels 5 4 []).parcelsOf ((withParcels 5 4 []).ctx 0 0).launch).map (fun p => (p.queue 0, p.drawn, p.total)) = some ([], 4, 5)
      ∧ ¬ 0 ∈ (withParcels 5 4 []).holding
      ∧ (let s : State := { withParcels 5 4 [4] with holding := [0] }
         At s 0 0 ∧ (s.parcelsOf (s.ctx 0 0).launch).isSome = true ∧ 0 ∈ s.holding ∧ (s.hart 0 0).wait = none)
      ∧ At (withParcels 5 4 []) 0 0 ∧ ((withParcels 5 4 []).hart 0 0).wait = none := by
  simp only [At]
  and_intros <;> decide +kernel

/-- A task that may arrive, one whose episode is open, one whose episode has completed. -/
theorem witness_BarriersArriveAndWait :
    (At (probe id) 0 0 ∧ wellFormed (.kBar 5 6 7 8) = true ∧ wellFormed (.kBar 1 6 0 0) = true
      ∧ ((probe id).ctx 0 0).arrivedAt (5 : BitVec 3).toNat ≤ ((probe id).ctx 0 0).completedAt (5 : BitVec 3).toNat)
    ∧ (let s := probe fun x => { x with arrived := [(5, 1)], hart := { x.hart with x := (5, 1) :: x.hart.x } }
       At s 0 0 ∧ (s.ctx 0 0).completedAt (5 : BitVec 3).toNat < (s.ctx 0 0).arrivedAt (5 : BitVec 3).toNat ∧ (s.hart 0 0).wait = none
        ∧ barScopeOk 5 = true ∧ (s.ctx 0 0).completedAt (5 : BitVec 3).toNat < (s.getX 0 0 5).toNat)
    ∧ (let s := probe fun x => { x with arrived := [(1, 1)], completed := [(1, 1)], hart := { x.hart with x := [(5, 1), (6, 0xFE0)] } }
       At s 0 0 ∧ barScopeOk 1 = true ∧ (s.getX 0 0 5).toNat ≤ (s.ctx 0 0).completedAt (1 : BitVec 3).toNat
        ∧ (s.getX 0 0 6).toNat % 32 = 0 ∧ s.inOwnCarve 0 0 (s.getX 0 0 6).toNat 32 = true
        ∧ (s.ctx 0 0).completedAt (2 : BitVec 3).toNat = 0 ∧ (s.ctx 0 0).completedAt (1 : BitVec 3).toNat ≠ 0
        ∧ (s.getX 0 0 6).toNat + 32 ≤ semBase) := by
  simp only [At]
  and_intros <;> decide +kernel

/-- A record in the last 256 bytes of the carve, a status word in the last 8; queues with one place left and with none. -/
theorem witness_LaunchSubmits :
    let s := regProbe [(5, 0xF00), (6, 0xFF8)]
    let x : QRec := { record := 0, m := 0, clock := Clock.zero, after := [], status := none, fromHost := true, headt := none, valid := false, blocking := false }
    At s 0 0 ∧ (s.hart 0 0).wait = none ∧ (s.getX 0 0 5).toNat % 64 = 0 ∧ s.inOwnCarve 0 0 (s.getX 0 0 5).toNat 256 = true
      ∧ (s.getX 0 0 6).toNat % 8 = 0 ∧ s.inOwnCarve 0 0 (s.getX 0 0 6).toNat 8 = true
      ∧ s.localBad 0 (s.getX 0 0 5).toNat 256 = false
      ∧ ((s.modQueue 7 fun q => { q with recs := List.replicate 63 x }).queue (7 : BitVec 3).toNat).recs.length < 64
      ∧ 64 ≤ ((s.modQueue 7 fun q => { q with recs := List.replicate 64 x }).queue (7 : BitVec 3).toNat).recs.length
      ∧ At (s.modQueue 7 fun q => { q with recs := List.replicate 64 x }) 0 0 := by
  simp only [At]
  and_intros <;> decide +kernel

/-- The shortest and the longest window, its last cycle, a counter that exists and one that does not, a debugger that is
away. -/
theorem witness_PauseAndAccounting :
    (At (probe id) 0 0 ∧ (1 : BitVec 12) ≠ 0 ∧ (4095 : BitVec 12) ≠ 0 ∧ Running (probe id) 0 0 ∧ (probe id).collects 0 0 = false
      ∧ recFqVa ((probe id).recOf 0 0) = 0 ∧ (probe id).counter 0 0xFFFFFFFF = none ∧ ((probe id).counter 0 31).isSome = true)
    ∧ At (hartProbe fun h => { h with pause := 1 }) 0 0 ∧ ((hartProbe fun h => { h with pause := 1 }).hart 0 0).pause = 1 := by
  simp only [At, Running]
  and_intros <;> decide +kernel

/-- The launch of the probe with the largest carve, the whole window, all accumulators, one marker, two spill slots and one
in the overflow area at 0x10000. -/
def wideRecord : LaunchRec :=
  BitVec.ofNat 2048 (2 ^ 16 + 6 * 2 ^ 320 + 20 * 2 ^ 328 + 2 * 2 ^ 336 + 0x3FF * 2 ^ 368 + 0x10000 * 2 ^ 448 + 2 ^ 512 + 2 ^ 176)

def wide (n : Nat) (f : Bun → Bun) : State := (slotProbe n f).modLaunch 0 fun l => { l with record := wideRecord }

/-- Every instruction of l issues for slot n, as a check that the kernel evaluates. -/
def issueCheck (s : State) (n : Nat) (l : List Instr) : Bool :=
  decide (s.focus.tile = 0) && decide (s.focus.ctx = 0) && decide (s.focus.slot = n) && (s.ctx? 0 0).isSome
    && l.all fun i => !(s.env 0 0 n).bad i && !(s.env 0 0 n).off (useOf i)

theorem issues_of {s : State} {n : Nat} {l : List Instr} (h : issueCheck s n l = true) : ∀ i, i ∈ l → Issues s i 0 0 n := by
  simp only [issueCheck, Bool.and_eq_true, decide_eq_true_eq, List.all_eq_true, Bool.not_eq_true'] at h
  exact fun i hi => ⟨⟨h.1.1.1.1, h.1.1.1.2, h.1.2⟩, h.1.1.2, h.2 i hi⟩

/-- Every register form of SA and SB issues, with the last s registers and its flag. -/
theorem witness_ScalarRegisterForms : ∀ i, i ∈ [
    Instr.add ⟨0, 63, 62, 61⟩, .sub ⟨7, 63, 62, 61⟩, .mul ⟨7, 63, 62, 61⟩, .mulh ⟨7, 63, 62, 61⟩, .mulhn ⟨7, 63, 62, 61⟩, .and ⟨7, 63, 62, 61⟩,
    .or ⟨7, 63, 62, 61⟩, .xor ⟨7, 63, 62, 61⟩, .andn ⟨7, 63, 62, 61⟩, .shl ⟨7, 63, 62, 61⟩, .shr ⟨7, 63, 62, 61⟩, .sra ⟨7, 63, 62, 61⟩,
    .rotl ⟨7, 63, 62, 61⟩, .min ⟨7, 63, 62, 61⟩, .max ⟨7, 63, 62, 61⟩, .minn ⟨7, 63, 62, 61⟩, .maxn ⟨7, 0, 62, 61⟩, .clz ⟨7, 63, 62⟩,
    .popc ⟨7, 63, 62⟩, .sel ⟨1, 63, 62, 61⟩] → Issues (wide 1 fun b => { b with k := 0x80 }) i 0 0 1 :=
  issues_of (by decide +kernel)

theorem witness_ScalarOtherForms :
    (∀ i, i ∈ [
      Instr.addi ⟨7, 63, 62, 0x200⟩, .movi ⟨7, 63, 0x3FF⟩, .movhi ⟨7, 63, 62, 0x3FF⟩, .shlI ⟨7, 63, 62, 63⟩, .shrI ⟨7, 63, 62, 63⟩,
      .sraI ⟨7, 63, 62, 63⟩, .rotlI ⟨7, 63, 62, 63⟩, .andI ⟨7, 63, 62, 0x200⟩, .orI ⟨7, 63, 62, 0x200⟩, .xorI ⟨7, 63, 62, 0x200⟩,
      .ceq ⟨7, 7, 62, 61⟩, .cne ⟨7, 1, 62, 61⟩, .clt ⟨7, 7, 62, 61⟩, .cle ⟨7, 7, 62, 61⟩, .cltn ⟨7, 7, 62, 61⟩, .clen ⟨7, 7, 62, 61⟩,
      .ceqI ⟨7, 7, 62, 0x200⟩, .cneI ⟨7, 1, 62, 0x200⟩, .cltI ⟨7, 7, 62, 0x200⟩, .cleI ⟨7, 7, 62, 0x200⟩, .cltnI ⟨7, 7, 62, 0x200⟩,
      .clenI ⟨7, 7, 62, 0x200⟩] → Issues (wide 0 fun b => { b with k := 0x80 }) i 0 0 0)
    ∧ (∀ i, i ∈ [
      Instr.kand ⟨7, 7, 6, 5⟩, .kor ⟨7, 7, 6, 5⟩, .kxor ⟨7, 7, 6, 5⟩, .aset 7 15 63 0x200, .aadd 7 15 0x200, .aget 7 63 15,
      .smov ⟨7, 63, 0⟩, .smov ⟨7, 63, 1⟩, .smov ⟨7, 63, 2⟩, .smov ⟨7, 63, 3⟩, .smov ⟨7, 63, 4⟩, .smov ⟨7, 63, 5⟩, .smov ⟨7, 63, 6⟩,
      .smov ⟨7, 63, 7⟩, .smov ⟨7, 63, 8⟩] → Issues (wide 0 fun b => { b with k := 0x80, wcols := true }) i 0 0 0)
    ∧ ((wide 0 fun b => { b with k := 0x80, wcols := true }).bun 0 0).wcols = true :=
  ⟨issues_of (by decide +kernel), issues_of (by decide +kernel), by decide +kernel⟩

theorem witness_VectorFloatForms : ∀ i, i ∈ [
    Instr.fadd ⟨.f, 0, 95, 0x7D, 0⟩, .fsub ⟨.h2, 0, 0x7F, 94, 0⟩, .fmul ⟨.b2, 0, 103, 94, 0⟩, .fma ⟨.f, 0, 95, 94, 0⟩, .fms ⟨.h2, 0, 95, 94, 0⟩,
    .fnma ⟨.b2, 0, 95, 94, 0⟩, .fnms ⟨.f, 0, 103, 94, 0⟩, .fmin ⟨.f, 0, 95, 94, 0⟩, .fmax ⟨.h2, 0, 95, 94, 0⟩, .fminn ⟨.b2, 0, 95, 94, 0⟩,
    .fmaxn ⟨.f, 0, 95, 94, 0⟩, .fclass ⟨.f, 0, 95, 94⟩, .fceq ⟨.f, 0, 1, 94, 0⟩, .fclt ⟨.h2, 0, 11, 94, 0⟩, .fcle ⟨.b2, 0, 11, 94, 0⟩,
    .fcun ⟨.f, 0, 11, 94, 0⟩] → Issues (wide 2 id) i 0 0 2 :=
  issues_of (by decide +kernel)

theorem witness_ConversionsApproximationsReductions :
    (∀ i, i ∈ [
      Instr.rsqa ⟨1, 95, 94⟩, .rcpa ⟨1, 95, 94⟩, .exp2a ⟨1, 95, 94⟩, .log2a ⟨1, 95, 94⟩, .sina ⟨1, 95, 94⟩, .cosa ⟨1, 95, 94⟩, .tanha ⟨1, 0x7F, 0x7D⟩,
      .cvt ⟨1, 95, 94, 14, 0, 0⟩, .cvt ⟨1, 95, 94, 0, 14, 4⟩, .cvt ⟨1, 95, 94, 0, 8, 5⟩, .vredAddF ⟨1, 95, 94⟩, .vredMaxF ⟨1, 95, 94⟩,
      .vredAddI32 ⟨1, 95, 94⟩] → Issues (wide 5 fun b => { b with p := [(1, BitVec.ofNat 128 (2 ^ 127))] }) i 0 0 5)
    ∧ (0 : BitVec 3) ≠ 5 :=
  ⟨issues_of (by decide +kernel), by decide⟩

theorem witness_VectorIntegerForms :
    (∀ i, i ∈ [
      Instr.vaddI32 ⟨1, 95, 94, 0x7D⟩, .vsubI32 ⟨1, 95, 94, 0⟩, .vmulI32 ⟨1, 95, 94, 0⟩, .vand ⟨1, 95, 94, 0⟩, .vor ⟨1, 95, 94, 0⟩, .vxor ⟨1, 95, 94, 0⟩,
      .vandn ⟨1, 95, 94, 0⟩, .vshl ⟨1, 95, 94, 0⟩, .vshr ⟨1, 95, 94, 0⟩, .vsra ⟨1, 95, 94, 0⟩, .vminI32 ⟨1, 95, 94, 0⟩, .vmaxI32 ⟨1, 95, 94, 0⟩,
      .vminN32 ⟨1, 95, 94, 0⟩, .vmaxN32 ⟨1, 95, 94, 0⟩, .vmov ⟨1, 95, 94⟩, .vmovi ⟨1, 95, 0x2000⟩, .vbcs ⟨1, 95, 63⟩] →
        Issues (wide 3 fun b => { b with p := [(1, 1)] }) i 0 0 3)
    ∧ ∀ i, i ∈ [
      Instr.pack ⟨1, 95, 94, 0⟩, .unpack ⟨1, 95, 94, 3⟩, .perm ⟨1, 95, 94, 0⟩, .bcl ⟨1, 95, 94, 15⟩, .xcl ⟨1, 95, 94, 7⟩, .part ⟨1, 95, 94⟩,
      .ppop ⟨1, 95, 15⟩, .vsel ⟨2, 95, 94, 0⟩, .vceqI32 ⟨1, 11, 94, 0⟩, .vcltI32 ⟨1, 1, 94, 0⟩, .vcltN32 ⟨1, 11, 94, 0⟩, .pand ⟨1, 11, 0, 15⟩,
      .por ⟨1, 1, 0, 15⟩, .pxor ⟨1, 11, 0, 15⟩, .pandn ⟨1, 11, 0, 15⟩] → Issues (wide 4 fun b => { b with p := [(1, 1)] }) i 0 0 4 :=
  ⟨issues_of (by decide +kernel), issues_of (by decide +kernel)⟩

/-- A state whose a0 is the last line of the carve below the semaphore block, for lane 127 alone. -/
def lastLine : State := wide 7 fun b => { b with p := [(1, BitVec.ofNat 128 (2 ^ 127))], a := [(0, 0x3FEE00), (1, 0x3FEFF8), (2, 0x3FEFFC)] }

theorem witness_MemorySlots :
    (∀ i, i ∈ [
      Instr.vld ⟨1, 95, 0, 0⟩, .vldB ⟨1, 103, 2, 0⟩, .vldS ⟨1, 95, 2, 0, 0⟩, .vldx ⟨1, 95, 2, 0⟩, .vst ⟨1, 95, 0, 0⟩, .vstS ⟨1, 95, 2, 0, 0⟩,
      .vstx ⟨1, 95, 2, 0⟩, .sld ⟨0, 63, 1, 0⟩, .sst ⟨0, 63, 1, 0⟩] → Issues lastLine i 0 0 7)
    ∧ (let v := lastLine.env 0 0 7
       LanesReach lastLine v false 4 2 (laneAddrs v 1 fun i => Int.ofNat (v.a 0).toNat + (0 : BitVec 11).toInt * 64 + 4 * Int.ofNat i)
        ∧ LanesReach lastLine v true 4 2 (laneAddrs v 1 fun i => Int.ofNat (v.a 0).toNat + (0 : BitVec 11).toInt * 64 + 4 * Int.ofNat i)
        ∧ LanesReach lastLine v false 4 2 (laneAddrs v 1 fun _ => Int.ofNat (v.a 2).toNat + (0 : BitVec 11).toInt * 4)
        ∧ LanesReach lastLine v true 4 2 (laneAddrs v 1 fun i =>
          Int.ofNat (v.a 2).toNat + (0 : BitVec 5).toInt * 4 + Int.ofNat i * (v.s 0).toInt)
        ∧ LanesReach lastLine v false 4 2 (laneAddrs v 1 fun i =>
          Int.ofNat (v.a 2).toNat + (0 : BitVec 5).toInt * 4 + Int.ofNat i * (v.s 0).toInt)
        ∧ LanesReach lastLine v false 4 3 (laneAddrs v 1 fun i => Int.ofNat (v.a 2).toNat + Int.ofNat (v.src 0 i).toNat)
        ∧ LanesReach lastLine v true 4 3 (laneAddrs v 1 fun i => Int.ofNat (v.a 2).toNat + Int.ofNat (v.src 0 i).toNat)
        ∧ LanesReach lastLine v false 8 2 [(0, Int.ofNat (v.a 1).toNat + (0 : BitVec 11).toInt * 8)]
        ∧ LanesReach lastLine v true 8 2 [(0, Int.ofNat (v.a 1).toNat + (0 : BitVec 11).toInt * 8)]) := by
  refine ⟨issues_of (by decide +kernel), ?_⟩
  simp only [LanesReach]
  and_intros <;> decide +kernel

/-- The last slot of the carve, the one slot of the overflow area, the first slot beyond both. -/
theorem witness_SpillSlots :
    (∀ i, i ∈ [Instr.spill ⟨0, 95, 1⟩, .spill ⟨0, 95, 2⟩, .spill ⟨0, 95, 3⟩, .fill ⟨0, 95, 1⟩, .fill ⟨0, 95, 2⟩, .fill ⟨0, 95, 3⟩] →
        Issues (wide 6 id) i 0 0 6)
    ∧ (let s := wide 6 id
       let v := s.env 0 0 6
       s.spillPlace v (1 : BitVec 11).toNat = .carve 512 ∧ s.spillPlace v (2 : BitVec 11).toNat = .overflow 0x10000
        ∧ s.spillPlace v (3 : BitVec 11).toNat = .outside ∧ Running s 0 0
        ∧ LanesReach s v true 4 2 (laneAddrs v 0 fun i => Int.ofNat (512 + 4 * i))
        ∧ LanesReach s v false 4 2 (laneAddrs v 0 fun i => Int.ofNat (512 + 4 * i))) := by
  refine ⟨issues_of (by decide +kernel), ?_⟩
  simp only [LanesReach, Running]
  and_intros <;> decide +kernel

/-- A generation just reached, one just missed; a reference to the last semaphore, an invalid one. -/
theorem witness_SemaphoreSlots :
    (let s := wide 7 fun b => { b with s := [(1, 0x8001), (2, 0x8000), (3, 63), (4, 64)] }
     (∀ i, i ∈ [Instr.swait 63 1, .swait 63 2, .spost 3 6 0, .spost 3 1 8191, .spost 4 6 1, .sarm 63 1, .sarmZ 63 1] → Issues s i 0 0 7)
      ∧ ((s.sem 0 (63 : BitVec 6).toNat).gen - ((s.env 0 0 7).s 1).setWidth 16).toNat < 32768
      ∧ 32768 ≤ ((s.sem 0 (63 : BitVec 6).toNat).gen - ((s.env 0 0 7).s 2).setWidth 16).toNat
      ∧ s.semRefOk 0 0 ((s.env 0 0 7).s 3) = true ∧ s.semRefOk 0 0 ((s.env 0 0 7).s 4) = false ∧ Running s 0 0
      ∧ (8191 : BitVec 13) ≠ 0) := by
  refine ⟨issues_of (by decide +kernel), ?_⟩
  simp only [Running]
  and_intros <;> decide +kernel

/-- A drain of 64 KiB that ends at the semaphore block, a statistic of each kind of accumulator, codebooks in the last
line. -/
theorem witness_MatrixEntriesDrainStatistics :
    (let s := wide 5 fun b => { b with
       a := [(0, 0x3FEFC0), (1, 0x3FB000)]
       kind := (List.range 10).map fun u => (10 + u, 3) }
     (∀ i, i ∈ [Instr.msetF 15 63, .msetS 15 63 15, .msetC 15 0, .mzero 21, .mdrain ⟨9, 1, 0, 0⟩, .mdrain ⟨9, 1, 1, 5⟩, .mdrain ⟨9, 1, 14, 4⟩,
        .rstat ⟨21, 95, 4⟩, .rstat ⟨0, 95, 0⟩] → Issues s i 0 0 5)
      ∧ LanesReach s (s.env 0 0 5) false 64 2 [(0, Int.ofNat ((s.env 0 0 5).a 0).toNat)]
      ∧ (s.engine 0).accPending 0 (21 : BitVec 5).toNat = false ∧ (s.engine 0).accRead 0 (21 : BitVec 5).toNat true = false
      ∧ (s.engine 0).busyBy false 0 = false ∧ (s.engine 0).busyBy true 0 = false ∧ (s.bun 0 0).accMismatch (9 : BitVec 5).toNat = false
      ∧ ((s.env 0 0 5).a 1).toNat + 512 * drainBits (0 : BitVec 4).toNat ≤ 0x400000
      ∧ s.inLaunchCarves (s.ctx 0 0).launch 0 ((s.env 0 0 5).a 1).toNat (512 * drainBits (0 : BitVec 4).toNat) = true
      ∧ ((s.env 0 0 5).a 1).toNat % 64 = 0 ∧ oneGroup ((s.env 0 0 5).a 1).toNat (512 * drainBits (0 : BitVec 4).toNat) = true
      ∧ (s.engine 0).accessIn 0 80 [groupOf ((s.env 0 0 5).a 1).toNat] = false
      ∧ (s.ctx 0 0).watched true ((s.env 0 0 5).a 1).toNat (512 * drainBits (0 : BitVec 4).toNat) = false
      ∧ (s.engine 0).accPending 0 (9 : BitVec 5).toNat = false
      ∧ ¬((4 : BitVec 3) = 4 ∧ (21 : BitVec 5).toNat < 20) ∧ (s.bun 0 0).accMismatch (21 : BitVec 5).toNat = false) := by
  refine ⟨issues_of (by decide +kernel), ?_⟩
  simp only [LanesReach]
  and_intros <;> decide +kernel

/-- Operands of FP32 in two bank groups, the second ending at the semaphore block, at the last accumulator, overwriting and
accumulating. -/
theorem witness_MatrixMultiply :
    let s := wide 5 fun b => { b with a := [(0, 0), (1, 0x3F7000)] }
    let o : MmaOps := { fa := wideF 32 fp32, fb := wideF 32 fp32, k := Nat.min (wideF 32 fp32).kper (wideF 32 fp32).kper,
                        a := ((s.env 0 0 5).a 0).toNat, b := ((s.env 0 0 5).a 1).toNat, sa := 0, sb := 0, acb := 0, bcb := 0 }
    (∀ i, i ∈ [Instr.mma ⟨0, 19, 0, 1, 15⟩, .mmaAcc ⟨15, 19, 0, 1, 15⟩] → Issues s i 0 0 5)
      ∧ mfmtOf (fieldNat ((s.bun 0 0).fmtEnt (15 : BitVec 4).toNat) 4 0) = some (wideF 32 fp32)
      ∧ mfmtOf (fieldNat ((s.bun 0 0).fmtEnt (15 : BitVec 4).toNat) 9 5) = some (wideF 32 fp32)
      ∧ fieldNat ((s.bun 0 0).fmtEnt (15 : BitVec 4).toNat) 41 10 = 0 ∧ fieldNat ((s.bun 0 0).fmtEnt (15 : BitVec 4).toNat) 73 42 = 0
      ∧ (s.engine 0).busyBy false 0 = false ∧ (s.engine 0).accRead 0 (19 : BitVec 5).toNat false = false
      ∧ mprof (s.bun 0 0) (0 : BitVec 4).toNat 0 (19 : BitVec 5).toNat 0 0 false = none
      ∧ mprof (s.bun 0 0) (15 : BitVec 4).toNat (recProfile (s.recOf 0 0)) (19 : BitVec 5).toNat 0 0 true = none
      ∧ (∀ r, r ∈ o.ranges → r.1 + r.2.1 ≤ 0x400000 ∧ s.inLaunchCarves (s.ctx 0 0).launch 0 r.1 r.2.1 = true ∧ r.1 % r.2.2 = 0
        ∧ (s.ctx 0 0).watched false r.1 r.2.1 = false)
      ∧ o.split = false ∧ groupOf o.a ≠ groupOf o.b ∧ (s.engine 0).accessIn 0 128 [groupOf o.a, groupOf o.b] = false := by
  refine ⟨issues_of (by decide +kernel), ?_⟩
  and_intros <;> decide +kernel

/-- The largest block number without a counter array, present in the cache, at its last count, and not; a cache that is full; the
marker; codes that the context does not admit; a slot that its flag turns off, a conversion that draws its rounding in no lane. -/
theorem witness_CountersMarksAndEmptySlots :
    (let s := wide 0 id
     (∀ i, i ∈ [Instr.bbc 0 0x3FFF, .mark 0, .yield] → Issues s i 0 0 0) ∧ recBbcVa (s.recOf 0 0) = 0 ∧ Running s 0 0
      ∧ (s.env 0 0 0).bad (.add ⟨7, 1, 2, 3⟩) = false ∧ (s.env 0 0 0).off (useOf (.add ⟨7, 1, 2, 3⟩)) = true)
    ∧ (let s := (slotProbe 0 id).modLaunch 0 fun l => { l with record := wideRecord ||| BitVec.ofNat 2048 (2 ^ 656) }
       (∀ i, i ∈ [Instr.bbc 0 0x3FFF] → Issues s i 0 0 0) ∧ recBbcVa (s.recOf 0 0) ≠ 0 ∧ (s.tile 0).cache.length < 64
        ∧ ∀ x, x ∈ (s.tile 0).cache → ¬(x.launch = (s.ctx 0 0).launch ∧ x.n = (0x3FFF : BitVec 14).toNat))
    ∧ (let s := ((slotProbe 0 id).modLaunch 0 fun l => { l with record := wideRecord ||| BitVec.ofNat 2048 (2 ^ 656) }).modTile 0 fun x =>
         { x with cache := [{ launch := 0, n := 0x3FFF, delta := 0xFFFFFFFD }] }
       (∀ i, i ∈ [Instr.bbc 0 0x3FFF] → Issues s i 0 0 0) ∧ recBbcVa (s.recOf 0 0) ≠ 0 ∧ (s.tile 0).cache.length ≤ 64
        ∧ (s.tile 0).cache.find? (fun x => decide (x.launch = (s.ctx 0 0).launch) && decide (x.n = (0x3FFF : BitVec 14).toNat))
          = some { launch := 0, n := 0x3FFF, delta := 0xFFFFFFFD } ∧ 0xFFFFFFFD + 1 < 0xFFFFFFFF)
    ∧ (let s := ((slotProbe 0 id).modLaunch 0 fun l => { l with record := wideRecord ||| BitVec.ofNat 2048 (2 ^ 656) }).modTile 0 fun x =>
         { x with cache := [{ launch := 0, n := 0x3FFF, delta := 0xFFFFFFFE }] }
       (∀ i, i ∈ [Instr.bbc 0 0x3FFF] → Issues s i 0 0 0) ∧ recBbcVa (s.recOf 0 0) ≠ 0
        ∧ (s.tile 0).cache.find? (fun x => decide (x.launch = (s.ctx 0 0).launch) && decide (x.n = (0x3FFF : BitVec 14).toNat))
          = some { launch := 0, n := 0x3FFF, delta := 0xFFFFFFFE } ∧ 0xFFFFFFFE + 1 = 0xFFFFFFFF)
    ∧ (let s := ((slotProbe 0 id).modLaunch 0 fun l => { l with record := wideRecord ||| BitVec.ofNat 2048 (2 ^ 656) }).modTile 0 fun x =>
         { x with cache := List.replicate 63 { launch := 0, n := 1, delta := 1 } ++ [{ launch := 0, n := 2, delta := 1 }] }
       (∀ i, i ∈ [Instr.bbc 0 0x3FFF] → Issues s i 0 0 0) ∧ recBbcVa (s.recOf 0 0) ≠ 0
        ∧ (s.tile 0).cache.find? (fun x => decide (x.launch = (s.ctx 0 0).launch) && decide (x.n = (0x3FFF : BitVec 14).toNat)) = none
        ∧ (s.tile 0).cache = List.replicate 63 { launch := 0, n := 1, delta := 1 } ++ [{ launch := 0, n := 2, delta := 1 }]
        ∧ (List.replicate 63 ({ launch := 0, n := 1, delta := 1 } : Delta)).length = 63 ∧ (1 : Nat) ≠ 0)
    ∧ (let s := wide 5 fun b => { b with p := [(1, 0)] }
       At s 0 0 ∧ s.focus.slot = 5 ∧ (s.env 0 0 5).bad (.cvt ⟨1, 95, 94, 0, 8, 5⟩) = false
        ∧ (s.env 0 0 5).off (useOf (.cvt ⟨1, 95, 94, 0, 8, 5⟩)) = true ∧ (useOf (.cvt ⟨1, 95, 94, 0, 8, 5⟩)).sr = true)
    ∧ (placesOf (.cvt ⟨1, 95, 94, 0, 8, 5⟩) ≠ [] ∧ placesOf (.vaddI32 ⟨0, 16, 0, 0⟩) ≠ [] ∧ placesOf (.add ⟨7, 1, 2, 3⟩) ≠ [])
    ∧ (let s := slotProbe 2 id
       At s 0 0 ∧ s.focus.slot = 2 ∧ Running s 0 0 ∧ (s.env 0 0 2).bad (.vaddI32 ⟨0, 16, 0, 0⟩) = true) := by
  refine ⟨⟨issues_of (by decide +kernel), ?_⟩, ⟨issues_of (by decide +kernel), ?_⟩, ⟨issues_of (by decide +kernel), ?_⟩,
    ⟨issues_of (by decide +kernel), ?_⟩, ⟨issues_of (by decide +kernel), ?_⟩, ?_, ?_, ?_⟩
  all_goals try simp only [At, Running]
  all_goals and_intros
  all_goals decide +kernel

/-- A message on its way, the only one. -/
def flying (home : Home) (body : Body) : Msg :=
  { id := 0, src := 0, home := home, clock := Clock.zero, sent := 0, after := [], own := none, va := 0, fn := 0, body := body }
def sent (home : Home) (body : Body) : State := { probe id with net := [flying home body], nextId := 1 }

/-- A function's page with its vectors on and none masked. -/
def ringing : FnPage := { FnPage.reset with masked := [], config := [(0x80, 0x80000000)] }

/-- The hart's register that a response brings. -/
def toX31 : Reply := { tile := 0, ctx := 0, rd := 31, size := 8 }

/-- Messages that end at the semaphore block of the last tile, at the last byte of HBM's first row, at host memory, into an
empty and a full cell, for a waiting hart. -/
theorem witness_MessagesAreApplied :
    ((sent (.tile 319) (.write (sliceAddr 319 0x3FEFFC) [some 1, none, some 3, some 4] 0 none)).dueMsg 0
        = some (flying (.tile 319) (.write (sliceAddr 319 0x3FEFFC) [some 1, none, some 3, some 4] 0 none))
      ∧ 0x3FEFFC + [some (1 : Byte), none, some 3, some 4].length ≤ semBase)
    ∧ (sent .host (.write 0xFFFF [some 1, none] 5 none)).dueMsg 0 = some (flying .host (.write 0xFFFF [some 1, none] 5 none))
    ∧ ((sent (.stack 0) (.write (hbmBase + 2047) [some 9] 0 none)).dueMsg 0 = some (flying (.stack 0) (.write (hbmBase + 2047) [some 9] 0 none)))
    ∧ (let s := (sent (.stack 0) (.post (hbmBase + 2047) [9] 0 (some 16))).modPage 16 fun _ => ringing
       s.dueMsg 0 = some (flying (.stack 0) (.post (hbmBase + 2047) [9] 0 (some 16))) ∧ (s.page 16).sends 0 = true)
    ∧ ((sent (.tile 319) (.sector 9 [⟨[(sliceAddr 319 (semBase - 1), 0)], [5], none⟩])).dueMsg 0
        = some (flying (.tile 319) (.sector 9 [⟨[(sliceAddr 319 (semBase - 1), 0)], [5], none⟩]))
      ∧ sliceAddr 319 0 ≤ sliceAddr 319 (semBase - 1) ∧ sliceAddr 319 (semBase - 1) < sliceAddr 319 semBase)
    ∧ ((sent (.tile 319) (.atomic .cas 8 (sliceAddr 319 0x3FEFF8) 5 6 0 none)).dueMsg 0
        = some (flying (.tile 319) (.atomic .cas 8 (sliceAddr 319 0x3FEFF8) 5 6 0 none)) ∧ 0x3FEFF8 + 8 ≤ semBase
      ∧ ∀ i, i < 8 → (sent (.tile 319) (.atomic .cas 8 (sliceAddr 319 0x3FEFF8) 5 6 0 none)).eccBad (sliceAddr 319 0x3FEFF8 + i) = false)
    ∧ ((sent (.tile 0) (.atomic .min 4 (sliceAddr 0 0) 5 6 0 (some toX31))).dueMsg 0
        = some (flying (.tile 0) (.atomic .min 4 (sliceAddr 0 0) 5 6 0 (some toX31))))
    ∧ (sent .host (.count 0x1000 3 0 7 true 0 0)).dueMsg 0 = some (flying .host (.count 0x1000 3 0 7 true 0 0))
    ∧ ((sent (.tile 0) (.put (sliceAddr 0 0x3FEFF0) 5 319 7)).dueMsg 0 = some (flying (.tile 0) (.put (sliceAddr 0 0x3FEFF0) 5 319 7))
      ∧ 0x3FEFF0 + 16 ≤ semBase ∧ (sent (.tile 0) (.put (sliceAddr 0 0x3FEFF0) 5 319 7)).cellFull 0 0x3FEFF0 = false)
    ∧ (let s := fullCell (sent (.tile 0) (.put (sliceAddr 0 0xFF0) 5 0 0))
       s.dueMsg 0 = some (flying (.tile 0) (.put (sliceAddr 0 0xFF0) 5 0 0)) ∧ s.cellFull 0 0xFF0 = true)
    ∧ (sent (.tile 0) (.read (sliceAddr 0 0xFF8) 8 0 toX31)).dueMsg 0 = some (flying (.tile 0) (.read (sliceAddr 0 0xFF8) 8 0 toX31))
    ∧ (sent (.stack 0) (.fetch (hbmBase + 2047) 512 0)).dueMsg 0 = some (flying (.stack 0) (.fetch (hbmBase + 2047) 512 0))
    ∧ (let s : State := { waiting .load (.kLda 3 6 true 31 5) none with net := [flying (.tile 0) (.response (some 5) toX31)], nextId := 1 }
       s.dueMsg 0 = some (flying (.tile 0) (.response (some 5) toX31)) ∧ (s.hart toX31.tile toX31.ctx).wait.isSome = true)
    ∧ (sent (.tile 319) (.credit 319 63 8191)).dueMsg 0 = some (flying (.tile 319) (.credit 319 63 8191))
    ∧ (sent (.tile 319) (.semErr 319 63)).dueMsg 0 = some (flying (.tile 319) (.semErr 319 63))
    ∧ ((sent (.tile 319) (.frontier 5)).dueMsg 0 = some (flying (.tile 319) (.frontier 5)) ∧ (flying (.tile 319) (.frontier 5)).src < 10)
    ∧ ((sent .pod (.write 0 [some 1] 0 none)).msg? 0 = some (flying .pod (.write 0 [some 1] 0 none))
      ∧ (flying .pod (.write 0 [some 1] 0 none)).home = .pod ∧ (flying .pod (.write 0 [some 1] 0 none)).after = [])
    ∧ ((sent .pod (.sector 9 [])).msg? 0 = some (flying .pod (.sector 9 [])) ∧ (sent .pod (.sector 9 [])).podPath = true)
    ∧ ({ probe id with holding := [0] } : State).holding.contains ({ probe id with holding := [0] } : State).focus.tile = true := by
  and_intros <;> decide +kernel

/-- An arrival of task 0 at scope .tile of a launch of one task: the last one; of a launch of two: the first. -/
def arrival1 : Arrival :=
  { launch := 0, scope := 1, group := 0, pkg := 0, tile := 0, ctx := 0, task := 0, weight := 5, tick := 0, count := 0, retired := false }

def tasks (n : Nat) (s : State) : State := s.modLaunch 0 fun l => { l with record := BitVec.ofNat 2048 (n * 2 ^ 16 + 2 ^ 320 + 2 ^ 368), left := n }

/-- A distributor with tiles 0 and 1 hungry, then with the parcels dealt and tile 1's queue to reclaim from. -/
def dealing : State :=
  { twoTiles (probe id) with parcels := [(0, {
      total := 9
      next := 3
      drawn := 2
      q := [(0, [2]), (1, [])]
      drawnAt := []
      hungry := [0, 1]
      weight := [(0, 5), (1, 5)] })] }
def reclaiming : State :=
  { (twoTiles (probe id)).modHart 0 0 fun h => { h with
      wait := some { what := .parcel, instr := .kParcel 5, len := 4, deadline := none, since := 0, reported := 0 } } with
    parcels := [(0, { total := 3, next := 3, drawn := 1, q := [(0, []), (1, [1, 2])], drawnAt := [], hungry := [], weight := [(0, 5), (1, 5)] })] }

/-- An episode that task 0 has opened, of a launch of two tasks. -/
def open1 : Episode := { launch := 0, scope := 1, group := 0, number := 1, arrivals := [arrival1], clock := Clock.zero }
def joined (n : Nat) (s : State) : State := { tasks n s with episodes := [open1] }

theorem witness_BarriersAndDistributor :
    (let s := sent (.node 0) (.arrival arrival1)
     s.dueMsg 0 = some (flying (.node 0) (.arrival arrival1)) ∧ arrival1.scope ≠ 5 ∧ s.openEpisode? arrival1 = none
      ∧ (let e : Episode := { launch := 0, scope := 1, group := 0, number := s.episodesDone arrival1 + 1, arrivals := [arrival1], clock := Clock.zero }
         s.needed e ≤ 1 + (s.retiredIn e arrival1).length))
    ∧ (let s := tasks 2 (sent (.node 0) (.arrival arrival1))
       s.dueMsg 0 = some (flying (.node 0) (.arrival arrival1)) ∧ s.openEpisode? arrival1 = none
        ∧ (let e : Episode := { launch := 0, scope := 1, group := 0, number := s.episodesDone arrival1 + 1, arrivals := [arrival1], clock := Clock.zero }
           1 + (s.retiredIn e arrival1).length < s.needed e))
    ∧ (let s := joined 2 (sent (.node 0) (.arrival { arrival1 with task := 1 }))
       s.dueMsg 0 = some (flying (.node 0) (.arrival { arrival1 with task := 1 })) ∧ s.openEpisode? { arrival1 with task := 1 } = some open1
        ∧ s.needed { open1 with arrivals := [arrival1, { arrival1 with task := 1 }] } ≤ 2)
    ∧ ((sent (.node 0) (.retired arrival1)).dueMsg 0 = some (flying (.node 0) (.retired arrival1))
      ∧ (sent (.node 0) (.retired arrival1)).openEpisode? arrival1 = none)
    ∧ (let a := { arrival1 with task := 1, retired := true }
       let s := joined 2 (sent (.node 0) (.retired a))
       let v : State := { s with retiredTasks := s.retiredTasks ++ [(a, Clock.zero)] }
       s.dueMsg 0 = some (flying (.node 0) (.retired a)) ∧ s.openEpisode? a = some open1
        ∧ v.needed open1 ≤ open1.arrivals.length + (v.retiredIn open1 a).length)
    ∧ (let a := { arrival1 with task := 1, retired := true }
       let s := joined 3 (sent (.node 0) (.retired a))
       let v : State := { s with retiredTasks := s.retiredTasks ++ [(a, Clock.zero)] }
       s.openEpisode? a = some open1 ∧ open1.arrivals.length + (v.retiredIn open1 a).length < v.needed open1)
    ∧ ((sent (.tile 0) (.completion 0 1 0 0 7)).dueMsg 0 = some (flying (.tile 0) (.completion 0 1 0 0 7))
      ∧ ((sent (.tile 0) (.completion 0 1 0 0 7)).ctx? 0 0).isSome = true)
    ∧ (dealing.dealLaunch = some 0 ∧ (dealing.parcelsOf 0).map (fun p => (p.next, p.total, p.hungry)) = some (3, 9, [0, 1])
      ∧ (dealing.parcelsOf 0).map (fun p => [0, 1].all fun x => decide (0 < p.depth x)) = some true)
    ∧ (reclaiming.reclaimsDue.find? (fun e => decide (e.2 = reclaiming.focus.tile)) = some (0, 0)
      ∧ (reclaiming.parcelsOf 0).map (fun p => p.q.all fun e => e.2.isEmpty || (decide (e.1 ≠ reclaiming.focus.tile) && decide (0 < tabGet 0 p.weight e.1)))
        = some true)
    ∧ ((dealing.parcelsOf 0).map (fun p => (tabGet? p.weight dealing.focus.tile).isSome) = some true
      ∧ dealing.enabled dealing.focus.tile = true ∧ (dealing.tile dealing.focus.tile).moveWait = none
      ∧ ((dealing.modTile 0 fun x => { x with moveWait := some 0 }).tile 0).moveWait ≠ none) := by
  and_intros <;> decide +kernel

/-- A record that every check admits, for tile 0; one of another version. -/
def goodRecord : LaunchRec := BitVec.ofNat 2048 (1 + 2 ^ 16 + 4 * 2 ^ 128 + 2 ^ 320 + 2 ^ 368 + 2 ^ 1152)
def queued (r : LaunchRec) (valid : Bool) : QRec :=
  { record := r, m := 0, clock := Clock.zero, after := [], status := none, fromHost := false, headt := some 0, valid := valid, blocking := false }

/-- Queue 7 holds the records of l; the tick is n. -/
def withQueue (n : Nat) (l : List QRec) : State := ({ State.reset with now := n }).modQueue 7 fun y => { y with recs := l }

/-- A task that has retired and drained. -/
def drainedTask (wrote : Bool) : State :=
  probe fun x => { x with hart := { x.hart with draining := true }, exit := some 0, wroteBack := wrote }

theorem witness_LaunchUnitRows :
    ({ State.reset with boot := .inBoot } : State).boot ≠ .running
    ∧ ((withQueue 0 (List.replicate 64 (queued 0 false))).boot = .running ∧ 64 ≤ ((withQueue 0 (List.replicate 64 (queued 0 false))).queue 7).recs.length)
    ∧ ((withQueue 0 (List.replicate 63 (queued 0 false))).boot = .running ∧ ((withQueue 0 (List.replicate 63 (queued 0 false))).queue 7).recs.length < 64)
    ∧ (let s := withQueue 0 [queued goodRecord false]
       (s.queue 7).recs = queued goodRecord false :: [] ∧ s.submitted (queued goodRecord false) = true ∧ s.qrecCode 7 (queued goodRecord false) = 0)
    ∧ (let s := withQueue 0 [queued 2 false, queued goodRecord false]
       (s.queue 7).recs = queued 2 false :: [queued goodRecord false] ∧ s.submitted (queued 2 false) = true ∧ s.qrecCode 7 (queued 2 false) ≠ 0
        ∧ fieldNat (tabGet 0 (s.queue 7).status ((queued 2 false).m % 64)) 63 32 = (queued 2 false).m % 2 ^ 32)
    ∧ State.reset.heads = []
    ∧ (let s := withQueue 0 [queued goodRecord true]
       s.heads = [(7, queued goodRecord true)] ∧ s.qrecCode 7 (queued goodRecord true) = 0
        ∧ ({ s with fenced := [0] } : State).placement (queued goodRecord true).record = none)
    ∧ (let s := (withQueue 0 [queued goodRecord true]).modTile 0 fun x => { x with image := some { hash := 0, clen := 4, blen := 0, markers := [] } }
       s.heads = [(7, queued goodRecord true)] ∧ s.placement (queued goodRecord true).record = some [0]
        ∧ (s.fetchLaunch (queued goodRecord true).record [0]).2 = some (none, []) ∧ recInitVa goodRecord = 0
        ∧ (s.tile 0).image.map Image.hash = some (recHash goodRecord) ∧ 0 < recNctx goodRecord ∧ (s.freeCtxs 0)[0]? = some 0)
    ∧ (let s := withQueue (2 ^ 22) [queued goodRecord true]
       s.heads.any (fun e => e.2.blocking) = false ∧ s.oldHeads = (7, queued goodRecord true) :: []
        ∧ (s.queue 7).recs = queued goodRecord true :: [])
    ∧ (At (drainedTask true) 0 0 ∧ (drainedTask true).drained 0 0 = true ∧ ((drainedTask true).ctx 0 0).wroteBack = true)
    ∧ (((drainedTask true).launch? 0).map Launch.left = some 1 ∧ ((tasks 2 (drainedTask true)).launch? 0).map Launch.left = some 2)
    ∧ (At (drainedTask false) 0 0 ∧ (drainedTask false).drained 0 0 = true ∧ ((drainedTask false).ctx 0 0).wroteBack = false
      ∧ ((drainedTask false).tile 0).cache = [] ∧ recHotVa ((drainedTask false).recOf 0 0) = 0
      ∧ (drainedTask false).backsOf 0 ((drainedTask false).ctx 0 0).launch = [])
    ∧ (At (probe fun x => { x with st := .dumpedIncomplete }) 0 0 ∧ (probe fun x => { x with st := .dumpedIncomplete }).endDone 0 0 = true)
    ∧ (let s := (State.reset.modQueue 5 fun y => { y with timeline := 9, qown := 16 }).modPage 16 fun _ => ringing
       (16 : Nat) ≤ 16 ∧ (9 : W64) ≠ 0 ∧ (9 : W64) ≤ (s.queue 5).timeline ∧ (s.page (s.queue 5).qown.toNat).sends 1 = true
        ∧ ¬((10 : W64) ≠ 0 ∧ (10 : W64) ≤ (s.queue 5).timeline))
    ∧ ((State.reset.queue 7).recs = [] ∧ (∀ l, l ∈ State.reset.launches → l.queue ≠ 7)
      ∧ ((withQueue 0 [queued goodRecord false]).queue 7).recs ≠ []) := by
  simp only [At]
  and_intros <;> decide +kernel

/-- Address space 0 is valid and owned by function f. -/
def owned (f : Nat) (s : State) : State := { s with asids := [(0, BitVec.ofNat 128 (2 ^ 63 + f * 2 ^ 58))] }

/-- A write of the PCIe port by the PF, of n bytes of value 1. -/
def tlp (bar : Bar) (addr n : Nat) : Tlp := { f := 0, bar := bar, addr := addr, data := List.replicate n (some 1), bad := false }
def stalled0 : State := State.reset.modPage 0 fun p => { p with stalled := true }

/-- The one route of write 5, to a home or a register; a write of one unit into slice 319 on its way with it. -/
def route0 (home : Option Home) (addr : Nat) (data : List (Option Byte)) (applied : Bool) : Route :=
  { id := 0, write := 5, f := 0, home := home, addr := addr, data := data, clock := Clock.zero, next := 0, applied := applied }
def routed (home : Option Home) (addr : Nat) (data : List (Option Byte)) (applied : Bool) : State :=
  { State.reset with
    nextId := 6
    net := match home with
      | some h => [flying h (.write addr data 0 (some 0))]
      | none => []
    writes := [(5, 0)]
    routes := [route0 home addr data applied] }
def ones (n : Nat) : List (Option Byte) := List.replicate n (some 1)
def read0 (bar : Bar) (addr n : Nat) : HostRead := { f := 0, bar := bar, addr := addr, len := n, tag := 3 }

/-- Writes held, bad, too long by a byte, against a stall, to registers that exist and do not, to the last bytes of the last slice
and the first beyond, to the configuration space; routes whole, in part, to a semaphore and to a register, applied or not. -/
theorem witness_HostPortRows :
    (({ State.reset with pending := [.write (tlp .bar0 0 8)] } : State).holdsWrites = true ∧ State.reset.holdsWrites = false)
    ∧ (({ tlp .bar0 0 8 with bad := true } : Tlp).bad = true ∧ 4096 < (tlp .bar0 0 4097).data.length ∧ (tlp .bar0 0 4097).bad = false
      ∧ (tlp .bar0 0 4096).data.length ≤ 4096)
    ∧ ((stalled0.page 0).stalled = true ∧ stalled0.stallEnding 0 = false ∧ tlpClearsStall (tlp .bar0 0x10000 8) = false
      ∧ tlpClearsStall (tlp .bar0 0x30000 8) = true ∧ (routed none 0x30000 (ones 8) false).stallEnding 0 = true)
    ∧ ((State.reset.page 0).stalled = false ∧ (tlp .bar0 0 0).data = [] ∧ State.reset.regOk 0 0xFFFFF8 8 = true ∧ (tlp .bar0 0xFFFFF8 8).data.all Option.isSome = true
      ∧ State.reset.regOk 0 0x1000000 8 = false ∧ State.reset.regOk 1 0x30008 8 = false
      ∧ State.reset.bar2Ok 0 (sliceAddr 319 0x3FFFFF) 1 = true ∧ State.reset.bar2Ok 0 (sliceAddr 320 0) 1 = false)
    ∧ ((∀ e, e ∈ State.reset.writes → e.2 ≠ 0) ∧ (∀ r, r ∈ State.reset.routes → r.write ≠ State.reset.nextId)
      ∧ ((5, 0) ∈ (routed none 0 [] false).writes ∧ ∀ e, e ∈ (routed none 0 [] false).writes → e.1 ≠ (routed none 0 [] false).nextId))
    ∧ ((0xC1C = 0xC00 + 4 * 7 ∧ 7 < vectorsOf 0 ∧ 0xC0C = 0xC00 + 4 * 3 ∧ 3 < vectorsOf 16)
      ∧ (wordOf 32 (((tlp .config 0xC1C 4).data.take 4).map fun b => b.getD 0)).getLsbD 0 = true
      ∧ (wordOf 32 (((tlp .config 0x48 1).data.take 4).map fun b => b.getD 0)).getLsbD 15 = false
      ∧ (wordOf 32 ((({ tlp .config 0x48 4 with data := [some 0, some 0x80] } : Tlp).data.take 4).map fun b => b.getD 0)).getLsbD 15 = true
      ∧ [0xA0, 0xC0].all fun b =>
        let v : W32 := wordOf 32 ((({ tlp .config 0x48 2 with data := [some (BitVec.ofNat 8 b), some 0xD0] } : Tlp).data.take 4).map fun b => b.getD 0)
        decide (v.getLsbD 15 = true) && decide (fieldNat v 7 5 = b / 32) && decide (fieldNat v 14 12 = 5))
    ∧ ((routed none 0x10000 (ones 8) false).routes.find? (fun r => decide (r.id = 0)) = some (route0 none 0x10000 (ones 8) false)
      ∧ (routed none 0x10000 (ones 8) false).routeDue (route0 none 0x10000 (ones 8) false) = true)
    ∧ ([8, 9].all fun n =>
        let a := sliceAddr 319 (semBase - 16)
        let s := routed (some (.tile 319)) a (ones n) false
        decide (s.dueMsg 0 = some (flying (.tile 319) (.write a (ones n) 0 (some 0))))
          && decide (semBase - 16 + 0 + (route0 (some (.tile 319)) a (ones n) false).unit ≤ semBase)
          && decide ((route0 (some (.tile 319)) a (ones n) false).unit = 8)) = true
    ∧ (let a := sliceAddr 319 (semBase + 64 * 63 + 16)
       let d := (bytesOf (0x1FFF : W32) 4).map some
       (routed (some (.tile 319)) a d false).dueMsg 0 = some (flying (.tile 319) (.write a d 0 (some 0))) ∧ (0x1FFF : W32) ≠ 0)
    ∧ ((routed none 0x10000 (ones 8) true).routes.find? (fun r => decide (r.id = 0)) = some (route0 none 0x10000 (ones 8) true)
      ∧ (route0 none 0x10000 (ones 8) true).applied = true) := by
  and_intros <;> decide +kernel

/-- Reads of each space, ready, behind a write, of nothing, of the most, of a failing unit; a function with a context, a record
and a key; vectors. -/
theorem witness_HostPortRows_reads :
    ((read0 .config 0 4).bar = .config ∧ (read0 .bar0 0 4).bar ≠ .config ∧ (read0 .bar0 0 0).len = 0 ∧ 4096 < (read0 .bar0 0 4097).len)
    ∧ ((State.reset.readReady (read0 .bar0 0x10000 8)) = true ∧ State.reset.readHeld (read0 .bar0 0x10000 8) = false
      ∧ (routed none 0x10000 (ones 8) false).readHeld (read0 .bar0 0x10000 8) = true
      ∧ ({ State.reset with holding := [0] } : State).readReady (read0 .bar2 (sliceAddr 0 0) 16) = false
      ∧ ({ State.reset with holding := [0] } : State).readHeld (read0 .bar2 (sliceAddr 0 0) 16) = false
      ∧ stalled0.readHeld (read0 .bar0 0 4) = false ∧ (stalled0.page 0).stalled = true
      ∧ (routed none 0x10000 (ones 8) false).pending.any (HostReq.isRead (read0 .bar0 0x10000 8)) = false
      ∧ State.reset.regOk 0 0x10000 4096 = true
      ∧ State.reset.readReady (read0 .bar2 (sliceAddr 0 0) 16) = true ∧ State.reset.bar2Ok 0 (sliceAddr 0 0) 16 = true
      ∧ (∀ i, i < 16 → State.reset.eccBad (State.reset.canon (sliceAddr 0 0 + i)) = false) ∧ State.reset.bar2Ok 0 0 16 = false)
    ∧ (({ State.reset with ecc := [sliceAddr 0 0] } : State).eccBad (State.reset.canon (sliceAddr 0 0 + 15)) = true)
    ∧ ((owned 0 (probe id)).owns 0 0 0 = true ∧ ((probe id).ctx 0 0).st = .resident)
    ∧ (let s : State := { owned 0 State.reset with keys := [(255, { key := 5, asid := 0, gen := 9, loaded := true })] }
       tabGet? s.keys 255 = some { key := 5, asid := 0, gen := 9, loaded := true } ∧ s.asidValid 0 = true ∧ s.asidFn 0 = 0)
    ∧ (7 ∈ ((State.reset.modPage 0 fun _ => { ringing with pending := [7], masked := [7] }).page 0).pending ∧ ¬7 ∈ (State.reset.page 0).pending
      ∧ 7 < vectorsOf 0 ∧ vectorsOf 0 ≤ 8 ∧ 3 < vectorsOf 16 ∧ vectorsOf 16 ≤ 4
      ∧ ((State.reset.modPage 0 fun _ => { ringing with pending := [7], masked := [7] }).page 0).vectorsOn = true
      ∧ ((State.reset.modPage 0 fun _ => { ringing with config := [(0x80, 0xC0000000)], pending := [7] }).page 0).vectorsOn = false)
    ∧ ((State.reset.page 0).stale = 0 ∧ ((State.reset.modPage 0 fun p => { p with stale := 1 }).page 0).stale ≠ 0)
    ∧ ((0 = 0 ∨ 0 = 16) ∧ (16 ∈ [1, 2, 4, 8, 16]) ∧ 128 ∈ [2, 5, 8, 16, 32, 64, 128]) := by
  and_intros <;> decide +kernel

/-- A package whose PODID is id and whose entry 31 admits package 1 to the first bytes of slice 0. -/
def podded (id : BitVec 9) : State :=
  { State.reset with podid := id, admission := [(31, BitVec.ofNat 128 (2 ^ 63 + 2 ^ 62 + 2 ^ 61 + 0x400000 * 2 ^ 16 + 0x40FFFF * 2 ^ 80 + 2 ^ 119))] }
def podTo (wr : Option (List Byte)) (len : Nat) (b : Option PodBarrier) : PodAccess :=
  { src := 1, srcValid := true, io := 1, addr := sliceAddr 0 0, wr := wr, len := len, barrier := b }

/-- Accesses of another package: not admitted, a write, a read that is ready and one behind a message, barrier traffic at the
pod's node and for a member; a lane that is down. -/
theorem witness_HostPortRows_pod :
    State.reset.podAdmitted (podTo (some [1]) 0 none) 1 = false
    ∧ ((podded 0x100).podAdmitted (podTo (some [1]) 0 none) 1 = true ∧ (podTo (some [1]) 0 none).barrier = none)
    ∧ ((podded 0x100).podAdmitted (podTo none 16 none) 16 = true ∧ (podded 0x100).podReadReady (podTo none 16 none) Clock.zero = true
      ∧ (podded 0x100).dieClock 1 = Clock.zero
      ∧ (∀ i, i < 16 → (podded 0x100).eccBad ((podded 0x100).canon (sliceAddr 0 0 + i)) = false)
      ∧ ({ podded 0x100 with holding := [0] } : State).podReadReady (podTo none 16 none) Clock.zero = false)
    ∧ ((podded 0x100).podValid = true ∧ (podTo none 0 (some (.arrival 255 7 319 7 9 1))).srcValid = true ∧ (podded 0x100).isPodNode = true
      ∧ (podded 0x1FF).podValid = true ∧ (319 : Nat) < State.reset.n0)
    ∧ (¬ (9, 35) ∈ State.reset.podDown ∧ (9, 35) ∈ ({ State.reset with podDown := [(9, 35)] } : State).podDown) := by
  and_intros <;> decide +kernel

/-- KSTAGE for slot 255 with generation 9. -/
def staged : State := { State.reset with kstage := BitVec.ofNat 2048 (1 + 255 * 2 ^ 8 + 9 * 2 ^ 32) }
def keyed (n : Nat) : State := { staged with keys := [(255, { key := 5, asid := 0, gen := BitVec.ofNat 32 n, loaded := true })] }

/-- A parked load of context 0 from virtual address 0x10000, and a parked entry of channel 3, each with its record; function 1
owns their address space. -/
def parkedLoad : ParkedAccess :=
  { id := 0, seq := 5, msg := .read 0 8 0 toX31, va := 0x10000, write := false, code := 0x10, reason := 1 }
def withParkedLoad : State :=
  paged hbmPage (owned 1 (probe fun x => { x with
    parkedHart := [parkedLoad]
    parkedSeqs := [5]
    hart := { x.hart with outst := [0] } }))
def parkFault : PFault := { code := 0x10, reason := 1, va := 0, wr := false, tick := 0 }
def withParkedEntry (f : Ctx → Ctx) : State :=
  owned 1 (probe fun x => f { x with
    chans := [(3, [{ queueEntry 0 false 0 with checked := true, parked := some (0, parkFault), parkSeq := some 6 }])]
    parkedSeqs := [6] })

/-- Fault seq of context 0 is that of a parked access of the hart, or of an entry, as a check. -/
def parksHart (s : State) : Bool := match (s.ctx 0 0).parkedAt 5 with
  | some (.hart q) => decide (q = parkedLoad)
  | _ => false
def parksEntry (s : State) : Bool := match (s.ctx 0 0).parkedAt 6 with
  | some (.entry ch ord f) => decide (ch = 3 ∧ ord = 0 ∧ f = parkFault)
  | _ => false

/-- An address space in use and one that is not, an entry whose table is in range and one below, one owned by function 16; an
invalidation that waits and one that does not; a key's check byte, its slot, its generation at and above the slot's; replies to a
parked load and a parked entry, resident, saved, departed. -/
theorem witness_RegistersSpacesKeys :
    ((7 < 8 ∧ 0xFF < 0x100 ∧ 16 ≤ 16 ∧ (0x4000000000000000 : W64).toNat / 2 ^ 62 ≠ 0)
      ∧ (probe id).asidBusy 0 = true ∧ State.reset.asidBusy 65535 = false
      ∧ 10 ≤ fieldNat (BitVec.ofNat 64 (10 * 2 ^ 53) : W64) 57 53 ∧ fieldNat (BitVec.ofNat 64 (24 * 2 ^ 53) : W64) 57 53 ≤ 24
      ∧ fieldNat (BitVec.ofNat 64 (9 * 2 ^ 53) : W64) 57 53 < 10)
    ∧ ((owned 16 State.reset).mayInvalidate 16 0 = true ∧ (owned 16 State.reset).mayInvalidate 15 0 = false ∧ (16 : Nat) ≠ 0)
    ∧ (({ State.reset with invals := [{ waiting := [5] }] } : State).invalDone = true
      ∧ (({ State.reset with invals := [{ waiting := [5] }] } : State).tile 0).sectors = [])
    ∧ (byteOf State.reset.kstage 0 ≠ 1 ∧ (255 : Nat) ≠ 0)
    ∧ (byteOf staged.kstage 0 = 1 ∧ (∀ i, i < 256 → (0x14 ≤ i ∧ i < 0x18 ∨ 0x9D ≤ i ∧ i < 0xA0 ∨ 0xF0 ≤ i ∧ i < 0x100) → byteOf staged.kstage i = 0)
      ∧ (byteOf staged.kstage 1).toNat = 255 ∧ (byteOf staged.kstage 1).toNat ≠ 254
      ∧ (wordOf 32 (((bytesOf staged.kstage 256).drop 4).take 4) : W32).toNat = ((keyed 9).keySlot 255).gen.toNat
      ∧ ((keyed 8).keySlot 255).gen.toNat < (wordOf 32 (((bytesOf staged.kstage 256).drop 4).take 4) : W32).toNat)
    ∧ State.reset.replyTo 0 0 0 5 = none
    ∧ (withParkedLoad.replyTo 1 0 0 5 = some 0 ∧ (withParkedLoad.ctx? 0 0).isSome = true ∧ (withParkedLoad.ctx 0 0).st = .resident
      ∧ parksHart withParkedLoad = true ∧ (withParkedLoad.hart 0 0).outst.contains parkedLoad.id = true)
    ∧ ((withParkedEntry id).replyTo 1 0 0 6 = some 0 ∧ ((withParkedEntry id).ctx 0 0).st = .resident ∧ parksEntry (withParkedEntry id) = true)
    ∧ ([false, true].all fun d =>
        let s := withParkedEntry fun x => { x with st := .saved, departed := d }
        decide (s.replyTo 1 0 0 6 = some 0) && decide ((s.ctx 0 0).st = .saved) && decide ((s.ctx 0 0).departed = d) && parksEntry s) = true
    ∧ (probe fun x => { x with st := .saved, departed := true }).setStuck 0 0 = true := by
  and_intros <;> decide +kernel

/-- The page of the parked load is there when it is tried again. -/
theorem witness_RegistersSpacesKeys_retry :
    ∃ r d, (withParkedLoad.settle 0 0 5).translate 0 ((withParkedLoad.settle 0 0 5).asidOf 0 0) parkedLoad.va (bodyNeed parkedLoad.msg)
      = (r, .ok d) :=
  ⟨withParkedLoad.settle 0 0 5, .hbm (withParkedLoad.canon (hbmBase + 0x70000)) 0, reaches_of (by decide +kernel)⟩

theorem witness_SidebandRequests :
    (({ State.reset with spdmVersion := 1 } : State).spdmVersion ≠ 0 ∧ ({ State.reset with spdmVersion := 2 } : State).spdmVersion = 2
      ∧ ({ State.reset with spdmAlgs := true } : State).spdmAlgs = true ∧ (0 ≤ 6 ∧ 6 ≤ 6 ∧ 255 = 255))
    ∧ (State.reset.spdmVersion = 0 ∧ ({ State.reset with spdmVersion := 1 } : State).spdmVersion ≠ 2 ∧ State.reset.spdmAlgs = false) := by
  and_intros <;> decide +kernel

/-- A copy of 16 bytes from local address 0 to 0x800 by an operation, element formats 0, crediting semaphore 63 of tile 0. -/
def packet (opc seop : Nat) : Rec64 :=
  BitVec.ofNat 512 (opc + 2 ^ 8 + 2 ^ 10 + 2 ^ 20 + 63 * 2 ^ 30 + 0x800 * 2 ^ 128 + 16 * 2 ^ 192 + seop * 2 ^ 472)

/-- Channel 3 holds one entry; channel 5 one. -/
def oneEntry (e : Entry) : State := probe fun x => { x with chans := [(3, [e])] }
def oneCommand (e : Entry) : State := probe fun x => { x with chans := [(5, [e])] }
def checkedEntry (p : Rec64) : Entry := { queueEntry p false 0 with checked := true }

/-- A sector of the copy, or of channel ch, with one piece at each end. -/
def sector0 (p : Rec64) (ch : Nat) (home : Home) (fault : Option PFault) (moved : Bool) : Sector :=
  { id := 9, packet := p, asid := 0, ctx := 0, ch := ch, ord := 0, k := 0, bytes := 16, receivers := [0],
    src := [{ home := .tile 0, addr := sliceAddr 0 0, key := 0, q := 0, len := 16, va := 0 }],
    dst := [{ home := home, addr := sliceAddr 0 0x800, key := 0, q := 0, len := 16, va := 0x800 }],
    fault := fault, moved := moved, out := [], clock := Clock.zero, started := 0, die := 0, noPath := none, words := [], todo := [] }
def inFlight (p : Rec64) (x : Sector) : State := (oneEntry (checkedEntry p)).modTile 0 fun y => { y with sectors := [x] }

/-- What the moves of a sector have in common. -/
def moveOk (s : State) (x : Sector) (i : Instr) : Bool :=
  decide (s.sector? 9 = some (0, x)) && !x.moved && decide (x.ch < 5) && decide (moveRow x.packet 9 = i) && x.fault.isNone
    && s.readable x.clock x.src && x.noPath.isNone && (s.tile 0).sectors.contains x
def moves (p : Rec64) (i : Instr) : Bool :=
  let x := sector0 p 3 (.tile 0) none false
  let s := inFlight p x
  moveOk s x i && (s.arrivalFault x).isNone && (s.dataError 0 (decide (pkSeop p = 2)) x.words x.src x.dst).isNone

/-- A stack command of four FP32 elements from 0x10000 to 0x10100 with auxiliary addresses at 0x10200. -/
def command (op : Nat) : Rec64 :=
  BitVec.ofNat 512 (op + 2 ^ 47 + 63 * 2 ^ 32 + (if op = 4 then 0 else 0x10000 * 2 ^ 64) + 0x10100 * 2 ^ 128 + 4 * 2 ^ 192
    + (if op = 1 then 16 * 2 ^ 224 else 0) + 0x10200 * 2 ^ 320)
def stacking (op : Nat) : State := paged hbmPage (oneCommand (checkedEntry (command op)))

/-- A check of what an outcome holds when it is no fault. -/
def okThen {α ε : Type} (p : State × Except ε α) (c : State → α → Bool) : Bool :=
  match p with
  | (r, .ok x) => c r x
  | _ => false

theorem of_okThen {α ε : Type} {p : State × Except ε α} {c : State → α → Bool} (h : okThen p c = true) :
    ∃ r x, p = (r, .ok x) ∧ c r x = true := by
  obtain ⟨r, _ | x⟩ := p
  · cases h
  · exact ⟨r, x, rfl, h⟩

/-- The operands of a stack command's sector can be read, its engine serves it, and they fail or not, as a check. -/
def stackOk? (op : Nat) (fails : Bool) : Bool :=
  let s : State := { stacking op with ecc := if fails then [(stacking op).canon (hbmBase + 0x70000)] else [] }
  decide (s.stackDue 0 0 0 op = some (checkedEntry (command op))) && okThen (s.planStack 0 0 (command op) 0) fun r x =>
    (s.stackLeft 0 0).isNone && r.readable (r.stackClock 0 x.2) (stackReads (command op) x.1 x.2) && s.stackServes ((pieceStacks x.2).headD 0) 0 0
      && decide ((r.dataError 0 (skAcc (command op)) [] (stackReads (command op) x.1 x.2) x.2).isSome = fails)

/-- The ranges of the OPEN are mapped; of n sessions at each of its engines, they leave room for it or not, as a check. -/
def opens (n : Nat) (waits : Bool) : Bool :=
  let s := stacking 4
  decide (s.stackDue 0 0 0 4 = some (checkedEntry (command 4))) && okThen (s.planOpen 0 0 (command 4)) fun r d =>
    let other : Session :=
      { id := 0, asid := 7, sess := 0, owner := (0, 1), ord := 0, cmd := command 4, dst := [], aux := [], engines := pieceStacks d.1,
        contribs := [], folded := [] }
    let r : State := { r with sessions := List.replicate n other }
    (r.session? (r.asidOf 0 0) (skSess (command 4))).isNone && (r.waitingOpens r.now).isEmpty
      && decide ((pieceStacks d.1).any (fun h => decide (16 ≤ (r.sessions.filter fun x => x.engines.contains h).length)) = waits)

/-- A session of the OPEN's engines whose one contribution has landed. -/
def session0 (owner : Nat × Nat) (dst : List Piece) (folded : Tab Nat) : Session :=
  { id := 0, asid := 0, sess := 0, owner := owner, ord := 0, cmd := command 4, dst := dst, aux := [], engines := pieceStacks dst,
    contribs := [{ key := 0, tile := 0, ctx := 0, ch := 3, ord := 0, bytes := 16 }], folded := folded }

/-- Its fold is due at each of its engines, finds its elements and no failing unit, as a check. -/
def folds : Bool :=
  okThen ((stacking 4).planOpen 0 0 (command 4)) fun _ d =>
    let x := session0 (0, 0) d.1 []
    let s : State := { stacking 4 with sessions := [x] }
    okThen (s.planOpen 0 0 (command 4)) fun r e => (pieceStacks d.1).all fun h =>
      s.foldDue x h && r.readable (r.stackClock 0 e.1) (foldReads x h e.1 e.2) && s.stackServes h 0 0 && (r.foldError x h e.1 e.2).isNone && !(r.foldItems x h e.1 e.2).isEmpty

/-- Packets and commands that pass and that do not; a copy whose sector starts; a sector's moves, with a fault of its own, one
that its arrival finds and one of its data. -/
theorem witness_CopiesAndStacks :
    ([1, 3].all fun opc =>
        let e := queueEntry (packet opc 0) false 0
        let s := oneEntry e
        decide (s.checkDue 0 0 3 (fun n => !n.malformed && s.packetOk 0 0 n.packet n.idx) = some e)
          && decide (s.packetOk 0 0 e.packet e.idx = decide (opc = 1)) && (s.ctx? 0 0).isSome && !(s.ctx 0 0).dbg.attached) = true
    ∧ ([2, 5].all fun op =>
        let e := queueEntry (command op) false 0
        let s := oneCommand e
        decide (s.checkDue 0 0 5 (s.stackOk 0 0) = some e) && decide (s.stackOk 0 0 e = decide (op = 2))) = true
    ∧ ((oneEntry (checkedEntry (packet 1 0))).nextStart (oneEntry (checkedEntry (packet 1 0))).focus.tile
        = some (0, 3, checkedEntry (packet 1 0)))
    ∧ (moves (packet 1 0) (.copyMove 9) = true ∧ moves (packet 2 0) (.copyGather 9) = true ∧ moves (packet 1 1) (.copyConvert 9) = true
      ∧ moves (packet 1 2) (.copyAccum 9) = true ∧ moves (packet 1 3) (.copyAccumk 9) = true)
    ∧ (let x := sector0 (packet 1 0) 3 (.tile 0) (some { code := 0x13, reason := 0, va := 0, wr := false, tick := 0 }) false
       (inFlight (packet 1 0) x).sector? 9 = some (0, x) ∧ x.fault.isSome = true ∧ x.moved = false ∧ x.ch < 5
        ∧ moveRow x.packet 9 = .copyMove 9)
    ∧ (let y := sector0 (packet 1 0) 3 (.stack 0) none false
       let x := { y with dst := y.dst.map fun z => { z with key := 255 } }
       let s := inFlight (packet 1 0) x
       moveOk s x (.copyMove 9) = true ∧ (s.arrivalFault x).isSome = true)
    ∧ (let x := sector0 (packet 1 0) 3 (.tile 0) none false
       let s : State := { inFlight (packet 1 0) x with ecc := [sliceAddr 0 0] }
       moveOk s x (.copyMove 9) = true ∧ s.arrivalFault x = none ∧ (s.dataError 0 (decide (pkSeop x.packet = 2)) x.words x.src x.dst).isSome = true) := by
  and_intros <;> decide +kernel

/-- Sectors that have landed: of a fold, of a copy with a credit, the only one of its entry; one without a path. -/
theorem witness_CopiesAndStacks_landed :
    (let x := sector0 (packet 1 0) 6 (.tile 0) none true
     (inFlight (packet 1 0) x).sector? 9 = some (0, x) ∧ x.moved = true ∧ x.out = [] ∧ x.ch = 6 ∧ x.fault = none)
    ∧ (let x := sector0 (packet 1 0) 3 (.tile 0) none true
       let s := inFlight (packet 1 0) x
       s.sector? 9 = some (0, x) ∧ x.ch < 5 ∧ s.entry? 0 0 3 0 = some (checkedEntry (packet 1 0))
        ∧ (checkedEntry (packet 1 0)).parked = none ∧ x.fault = none ∧ pkSemen (packet 1 0) = true ∧ pkMcast (packet 1 0) = 0
        ∧ pkSemtile (packet 1 0) = 0 ∧ (checkedEntry (packet 1 0)).changed = [] ∧ (s.ctx 0 0).chan 3 = [checkedEntry (packet 1 0)] ∧ pkSectors (packet 1 0) = 1 ∧ x.k = 0)
    ∧ (let x := { sector0 (packet 1 0) 3 .pod none false with noPath := some 0 }
       let s : State := { inFlight (packet 1 0) x with now := 1000000 }
       s.sector? 9 = some (0, x) ∧ x.noPath = some 0 ∧ x.podLeft ≠ [] ∧ 0 + 1000000 ≤ s.now) := by
  and_intros <;> decide +kernel

/-- A sector of which one engine has still to send its part. -/
def partly : Sector := { sector0 (command 1) 5 (.stack 0) none false with todo := [(.stack 0, ⟨[], [], none⟩)] }

/-- Commands of the stack engines that are read and that fail, one of which a part is left; an OPEN for which there is room, or none, or whose session is
open; a fold; entries that leave, with and without a credit. -/
theorem witness_CopiesAndStacks_stacks :
    ([1, 2, 3].all fun op => stackOk? op false) = true ∧ stackOk? 2 true = true
    ∧ (opens 0 false = true ∧ opens 15 false = true ∧ opens 16 true = true ∧ (checkedEntry (command 4)).ready = none)
    ∧ okThen ((({ stacking 4 with sessions := [session0 (0, 1) [] []] } : State)).planOpen 0 0 (command 4)) (fun r _ =>
        decide (r.session? (r.asidOf 0 0) (skSess (command 4)) = some (session0 (0, 1) [] []))
          && !(r.ctx 0 0).dbg.attached && decide (¬((session0 (0, 1) [] []).owner = (0, 0)))) = true
    ∧ folds = true
    ∧ (let s := inFlight (command 1) partly
       s.stackLeft 0 0 = some partly ∧ partly.ord = 0 ∧ skOp partly.packet = 1 ∧ s.stackServes 0 0 0 = true)
    ∧ (let e : Entry := { checkedEntry (command 2) with finished := true }
       let s := oneCommand e
       s.stackDone 0 0 = some e ∧ skSemen e.packet = true ∧ skSemtile e.packet = 0 ∧ skSemen ({ e with packet := 2 } : Entry).packet = false)
    ∧ (let s : State := { stacking 4 with sessions := [session0 (0, 0) [] []] }
       s.stackDone 0 0 = some (checkedEntry (command 4))) := by
  and_intros <;> decide +kernel

/-- Function page 1 with a command of R346, its area on the way or not; the address space is the probe's; the area is at 0x10000, on
a page of pte. -/
def commandedOn (pte : W64) (w : Nat) (busy : Bool) (a : Option AreaWrite) (f : Ctx → Ctx) : State :=
  forPage 1 ((paged pte (owned 1 (probe f))).modPage 1 fun p => { p with cmds := [.ctl (BitVec.ofNat 64 w)], busy := busy, waits := a })
def commanded (w : Nat) (f : Ctx → Ctx) : State := commandedOn hostPage w false none f

/-- The commands, for context 0 of tile 0 with the area where there is one. -/
def preempt0 : Nat := 2 ^ 62 + 0x10 * 2 ^ 24
def resume0 : Nat := 2 ^ 63 + 0x10 * 2 ^ 24
def dump0 : Nat := 3 * 2 ^ 62 + 0x10 * 2 ^ 24
def discard0 : Nat := 3 * 2 ^ 62
def abort0 : Nat := 3 * 2 ^ 62 + 2 ^ 23

/-- The area of a context saved under number 0 whose sections are all empty: version 1, tile 0, STATUS 1. -/
def savedArea : State :=
  let s := commanded resume0 id
  let s := (s.setCtx 0 8 { s.ctx 0 0 with st := .saved, departed := true, area := 0x10000 }).delCtx 0 0
  ({ s with hostMem := [(0x70000, 1), (0x7003C, 1)] }).modTile 0 fun x => { x with image := some { hash := 0, clen := 0, blen := 0, markers := [] } }

/-- The word is the command of row i at page 1, without reserved bits. -/
def commands (s : State) (w : Nat) (i : Instr) : Bool :=
  decide (s.focus.fn = 1) && decide (s.ctlDue 1 i = some (BitVec.ofNat 64 w)) && !cmdReserved (BitVec.ofNat 64 w)

/-- Every command: with reserved bits, for a context that function 1 does not own; in a right and in a wrong state. -/
theorem witness_ContextCommands :
    ([(2 ^ 62, Instr.preempt), (2 ^ 63, .resume), (dump0, .dump), (abort0, .abort), (discard0, .discard)].all fun e =>
        decide ((commanded (e.1 + 2 ^ 60) id).ctlDue 1 e.2 = some (BitVec.ofNat 64 (e.1 + 2 ^ 60))) && cmdReserved (BitVec.ofNat 64 (e.1 + 2 ^ 60))
          && commands (commanded (e.1 + 319) id) (e.1 + 319) e.2 && ((commanded (e.1 + 319) id).owned? 1 319 0).isNone) = true
    ∧ (commands (commanded preempt0 id) preempt0 .preempt = true ∧ (commanded preempt0 id).owned? 1 0 0 = some 0
      ∧ ((commanded preempt0 id).ctx 0 0).st = .resident ∧ (commanded preempt0 id).preemptWaits 0 0 = false
      ∧ (commanded preempt0 fun x => { x with dbg := { x.dbg with pend := some (0, 0, false) } }).preemptWaits 0 0 = true
      ∧ ((commanded preempt0 fun x => { x with st := .faulted }).ctx 0 0).st ≠ .resident)
    ∧ (commands (commanded resume0 id) resume0 .resume = true ∧ ((commanded resume0 id).owned? 1 0 0).isSome = true
      ∧ (commanded resume0 id).savedFor 1 0 0 0x10000 = none)
    ∧ (commands savedArea resume0 .resume = true ∧ (savedArea.owned? 1 0 0).isSome = true ∧ savedArea.savedFor 1 0 0 0x10000 = some 8)
    ∧ (let s := commanded dump0 fun x => { x with st := .faulted }
       commands s dump0 .dump = true ∧ s.dumpable 1 0 0 = some 0 ∧ (s.owned? 1 0 0).isSome = true ∧ (commanded dump0 id).dumpable 1 0 0 = none)
    ∧ (let s := commanded discard0 fun x => { x with st := .quarantined }
       commands s discard0 .discard = true ∧ s.dumpable 1 0 0 = some 0 ∧ (s.owned? 1 0 0).isSome = true)
    ∧ (commands (commanded abort0 id) abort0 .abort = true ∧ ((commanded abort0 id).owned? 1 0 0).isSome = true
      ∧ ((((commanded abort0 id).tile 0).ctxs.find? (fun e => decide (e.2.num = 0) && (decide (e.2.st = .resident) || decide (e.2.st = .saved))
          && (commanded abort0 id).owns 1 0 e.1)).map Prod.fst = some 0)) := by
  and_intros <;> decide +kernel

/-- The header of a resumed area is read, or cannot be; it fits or not; room is there or not; the image is there or cannot be
brought; the sections and the mark that the area has been resumed succeed. -/
theorem witness_ContextCommands_resume :
    ((savedArea.readVa 0 (savedArea.asidOf 0 8) 0x10000 256 1024).2 = some (savedArea.hostRead 0x70000 256)
      ∧ headerFits (savedArea.hostRead 0x70000 256) 0 0 0 = true
      ∧ (savedArea.usable 0 && (savedArea.tile 0).failed.isNone && (savedArea.freeCtxs 0).contains 0 && savedArea.unitsFit 0 (savedArea.recOf 0 8) 1
        && savedArea.imageFits 0 (recHash (savedArea.recOf 0 8))) = true
      ∧ (savedArea.bringImage 0 (savedArea.recOf 0 8)).2 = true
      ∧ ((savedArea.modTile 0 fun x => { x with image := none }).bringImage 0 (savedArea.recOf 0 8)).2 = false
      ∧ (savedArea.readSections 0 8 0x10000 (savedArea.hostRead 0x70000 256) (savedSections (savedArea.ctx 0 8).departed)).2 = true
      ∧ (let s : State := { savedArea with hostMem := [(0x70000, 1), (0x7003C, 1), (0x7004A, 1), (0x7004C, 1)] }
         headerFits (s.hostRead 0x70000 256) 0 0 0 = true ∧ (s.bringImage 0 (s.recOf 0 8)).2 = true
          ∧ (s.readSections 0 8 0x10000 (s.hostRead 0x70000 256) (savedSections (s.ctx 0 8).departed)).2 = false)
      ∧ (savedArea.writeVa 0 8 (0x10000 + 60) [2] [] 2).2.isSome = true)
    ∧ (let s := savedArea.modTile 0 fun x => { x with tlb := [] }
       s.savedFor 1 0 0 0x10000 = some 8 ∧ (s.readVa 0 (s.asidOf 0 8) 0x10000 256 1024).2 = none)
    ∧ headerFits ({ savedArea with hostMem := [] }.hostRead 0x70000 256) 0 0 0 = false
    ∧ ((savedArea.setCtx 0 0 (savedArea.ctx 0 8)).freeCtxs 0).contains 0 = false := by
  and_intros <;> decide +kernel

/-- A save that begins on a page that allows the whole area and on one that allows no write; its sections, its header written, or
not. -/
def saving (pte : W64) (a : Option AreaWrite) : State := commandedOn pte preempt0 true a fun x => { x with st := .saving, area := 0x10000 }
def sectionsGo (s : State) (k : Nat) (dump : Bool) : Bool :=
  (s.bumpFree.writeSections 0 k 0x10000 (dirOf 256 (s.sections 0 k dump)) ((List.range 16).zip (s.sections 0 k dump))).2.isSome

theorem witness_ContextCommands_save :
    ([none, some { header := none, out := [], failed := false }, some { header := none, out := [], failed := true },
        some { header := some 0, out := [], failed := false }].all fun a =>
      let s := saving hostPage a
      decide (((s.page s.focus.fn).ctl? = some (BitVec.ofNat 64 preempt0))) && decide (cmdRow (BitVec.ofNat 64 preempt0) = .preempt) && (s.page s.focus.fn).busy
        && (s.ctx? 0 0).isSome && decide ((s.ctx 0 0).st = .saving) && decide (s.departedSets 0 + s.savesBegun 0 < 8) && (a.all fun w => s.areaDone w)
        && (s.ctx 0 0).parkedOrder.isEmpty && decide ((s.page s.focus.fn).waits = a)) = true
    ∧ (sectionsGo (saving hostPage none) 0 false = true ∧ sectionsGo (saving readPage none) 0 false = false)
    ∧ (let s := saving hostPage (some { header := none, out := [], failed := false })
       (s.writeVa 0 0 0x10000 (s.headerBytes 0 0 (s.saveHead 0 0) (s.sections 0 0 false)) [] 257).2.isSome = true)
    ∧ ((commandedOn hostPage preempt0 true none id).ctx 0 0).st = .resident := by
  and_intros <;> decide +kernel

/-- Likewise for a dump: asked for, begun, its sections, its header; of a context whose saved sections cannot be read. -/
def dumping (pte : W64) (a : Option AreaWrite) (f : Ctx → Ctx) : State :=
  commandedOn pte dump0 true a fun x => f { x with st := .dumping, dumpAsked := some 0, dumpBegan := some 0 }

theorem witness_ContextCommands_dump :
    ((commandedOn hostPage dump0 true none id).dumped? 1 (BitVec.ofNat 64 dump0) = none
      ∧ (let s := dumping hostPage none fun x => { x with st := .faulted }
         (s.page s.focus.fn).ctl? = some (BitVec.ofNat 64 dump0) ∧ cmdRow (BitVec.ofNat 64 dump0) = .dump ∧ (s.page s.focus.fn).busy = true
          ∧ s.dumped? s.focus.fn (BitVec.ofNat 64 dump0) = some 0 ∧ (s.page s.focus.fn).waits = none ∧ (s.ctx 0 0).st ≠ .dumping ∧ s.dumpsAhead 0 0 = 0))
    ∧ (let s := dumping hostPage none id
       (s.ctx 0 0).st = .dumping ∧ s.inflight 0 0 = 0 ∧ (s.bumpFree.dumpSections 0 0 (s.sections 0 0 true)).2.isSome = true)
    ∧ (sectionsGo (dumping hostPage none id) 0 true = true ∧ sectionsGo (dumping readPage none id) 0 true = false)
    ∧ (let v := (savedArea.setCtx 0 8 { savedArea.ctx 0 8 with st := .dumping, dumpAsked := some 0 }).modTile 0 fun x => { x with tlb := [] }
       (v.bumpFree.dumpSections 0 8 (v.sections 0 8 true)).2.isNone = true)
    ∧ (let a : AreaWrite := { header := none, out := [], failed := false }
       let s := dumping hostPage (some a) id
       s.areaDone a = true ∧ a.header ≠ some (s.ctx 0 0).secn
        ∧ (s.writeSections 0 0 0x10000 (dirOf 256 (s.sections 0 0 true)) [(14, s.secBytes 0 0 14)]).2.isSome = true
        ∧ (s.writeVa 0 0 0x10000 (s.headerBytes 0 0 (s.dumpHead 0 0) (s.sections 0 0 true)) [] 257).2.isSome = true)
    ∧ ([0, 2].all fun n =>
        let a : AreaWrite := { header := some n, out := [], failed := false }
        let s := dumping hostPage (some a) fun x => { x with secn := n }
        s.areaDone a && decide (a.header = some (s.ctx 0 0).secn) && decide (s.dumped? s.focus.fn (BitVec.ofNat 64 dump0) = some 0)) = true := by
  and_intros <;> decide +kernel

/-- Function page 1 with a debug command of operation op for context 0 of tile 0. -/
def debugging (op : Nat) (a d : W64) (f : Debug → Debug) : State :=
  forPage 1 ((owned 1 (probe fun x => { x with dbg := f x.dbg })).modPage 1 fun p => { p with cmds := [.debug (BitVec.ofNat 64 (op * 2 ^ 60)) a d] })

/-- Page and context are right for row i, as a check. -/
def debugOk (op : Nat) (i : Instr) (a d : W64) (f : Debug → Debug) : Bool :=
  let s := debugging op a d f
  let w : W64 := BitVec.ofNat 64 (op * 2 ^ 60)
  decide (s.dbgDue s.focus.fn i = some (w, a, d)) && decide (fieldNat w 59 12 = 0) && decide (cmdTile w = 0) && decide (cmdCtx w = 0)
    && s.owns s.focus.fn 0 0 && (decide (i = .attach) || decide (i = .detach) || (s.ctx 0 0).dbg.attached)

theorem debugFor_of {op : Nat} {i : Instr} {a d : W64} {f : Debug → Debug} (h : debugOk op i a d f = true) :
    DebugFor (debugging op a d f) i (BitVec.ofNat 64 (op * 2 ^ 60)) a d 0 0 := by
  simp only [debugOk, Bool.and_eq_true, Bool.or_eq_true, decide_eq_true_eq] at h
  exact ⟨h.1.1.1.1.1, h.1.1.1.1.2, h.1.1.1.2, h.1.1.2, h.1.2, or_assoc.mp h.2⟩

def attached (x : Debug) : Debug := { x with attached := true }
def halted (x : Debug) : Debug := { x with attached := true, eh := true, hh := true }

/-- Every debug command is due for a context that is halted; some of those that need no halt. -/
theorem witness_DebugCommands :
    DebugFor (debugging 1 0 0 id) .attach (BitVec.ofNat 64 (1 * 2 ^ 60)) 0 0 0 0
    ∧ DebugFor (debugging 2 0 0 id) .detach (BitVec.ofNat 64 (2 * 2 ^ 60)) 0 0 0 0
    ∧ DebugFor (debugging 3 0 0 attached) .halt (BitVec.ofNat 64 (3 * 2 ^ 60)) 0 0 0 0
    ∧ DebugFor (debugging 3 0 0 halted) .halt (BitVec.ofNat 64 (3 * 2 ^ 60)) 0 0 0 0
    ∧ DebugFor (debugging 4 0 0 attached) .haltq (BitVec.ofNat 64 (4 * 2 ^ 60)) 0 0 0 0
    ∧ DebugFor (debugging 5 0 0 halted) .cont (BitVec.ofNat 64 (5 * 2 ^ 60)) 0 0 0 0
    ∧ DebugFor (debugging 6 1 0 halted) .step (BitVec.ofNat 64 (6 * 2 ^ 60)) 1 0 0 0
    ∧ DebugFor (debugging 6 0 0 halted) .step (BitVec.ofNat 64 (6 * 2 ^ 60)) 0 0 0 0
    ∧ DebugFor (debugging 7 0 0 halted) .rdst (BitVec.ofNat 64 (7 * 2 ^ 60)) 0 0 0 0
    ∧ DebugFor (debugging 8 0 5 halted) .wrst (BitVec.ofNat 64 (8 * 2 ^ 60)) 0 5 0 0
    ∧ DebugFor (debugging 9 0 0 halted) .cancel (BitVec.ofNat 64 (9 * 2 ^ 60)) 0 0 0 0
    ∧ DebugFor (debugging 10 7 0 attached) .setbp (BitVec.ofNat 64 (10 * 2 ^ 60)) 7 0 0 0
    ∧ DebugFor (debugging 11 7 0 attached) .setwp (BitVec.ofNat 64 (11 * 2 ^ 60)) 7 0 0 0
    ∧ DebugFor (debugging 12 0 5 attached) .catchStops (BitVec.ofNat 64 (12 * 2 ^ 60)) 0 5 0 0
    ∧ DebugFor (debugging 13 31 0 attached) .acct (BitVec.ofNat 64 (13 * 2 ^ 60)) 31 0 0 0 := by
  refine ⟨debugFor_of ?_, debugFor_of ?_, debugFor_of ?_, debugFor_of ?_, debugFor_of ?_, debugFor_of ?_, debugFor_of ?_, debugFor_of ?_,
    debugFor_of ?_, debugFor_of ?_, debugFor_of ?_, debugFor_of ?_, debugFor_of ?_, debugFor_of ?_, debugFor_of ?_⟩
  all_goals decide +kernel

/-- The other hypotheses of the clauses: reserved bits, a foreign context, none attached, halted or not, not resident, sections and
their ends, entries of the replay buffer, counters. -/
theorem witness_DebugCommands_clauses :
    (let s := forPage 1 ((probe id).modPage 1 fun p => { p with cmds := [.debug (BitVec.ofNat 64 (6 * 2 ^ 60 + 2 ^ 12)) 0 0] })
     s.dbgDue s.focus.fn .step = some (BitVec.ofNat 64 (6 * 2 ^ 60 + 2 ^ 12), 0, 0) ∧ fieldNat (BitVec.ofNat 64 (6 * 2 ^ 60 + 2 ^ 12) : W64) 59 12 ≠ 0)
    ∧ (let s := forPage 1 ((probe id).modPage 1 fun p => { p with cmds := [.debug (BitVec.ofNat 64 (6 * 2 ^ 60)) 0 0] })
       s.dbgDue s.focus.fn .step = some (BitVec.ofNat 64 (6 * 2 ^ 60), 0, 0) ∧ fieldNat (BitVec.ofNat 64 (6 * 2 ^ 60) : W64) 59 12 = 0
        ∧ s.owns s.focus.fn 0 0 = false)
    ∧ ((debugging 6 0 0 id).owns 1 0 0 = true ∧ ((debugging 6 0 0 id).ctx 0 0).dbg.attached = false)
    ∧ (((debugging 3 0 0 halted).ctx 0 0).st = .resident ∧ ((debugging 3 0 0 halted).ctx 0 0).dbg.eh = true
      ∧ ((debugging 3 0 0 halted).ctx 0 0).dbg.hh = true
      ∧ ((debugging 3 0 0 attached).ctx 0 0).dbg.eh = false ∧ ((debugging 3 0 0 attached).ctx 0 0).st = .resident)
    ∧ ([(3, Instr.halt), (4, .haltq)].all fun e =>
        let s := (debugging e.1 0 0 attached).modCtx 0 0 fun x => { x with st := .faulted }
        decide (s.dbgDue s.focus.fn e.2 = some (BitVec.ofNat 64 (e.1 * 2 ^ 60), 0, 0)) && s.owns 1 0 0 && (s.ctx 0 0).dbg.attached
          && decide ((s.ctx 0 0).st ≠ .resident) && !(s.ctx 0 0).dbg.eh) = true
    ∧ (let s := probe fun x => { x with dbg := { x.dbg with haltReq := true } }
       s.focus.tile = 0 ∧ s.focus.ctx = 0 ∧ (s.ctx? 0 0).isSome = true ∧ (s.ctx 0 0).dbg.haltReq = true ∧ (s.ctx 0 0).st = .resident
        ∧ s.spilling 0 0 = false)
    ∧ (let s := (debugging 3 0 0 fun x => { attached x with haltReq := true }).modPage 1 fun p => { p with dbusy := true }
       s.waitingPage 0 0 .halt = some (1, BitVec.ofNat 64 (3 * 2 ^ 60)))
    ∧ (((debugging 4 0 0 halted).modPage 1 fun p => { p with dbusy := true }).haltqDone 1 = some (BitVec.ofNat 64 (4 * 2 ^ 60)))
    ∧ ((1 : W64).getLsbD 0 = true ∧ (0 : W64).getLsbD 0 = false)
    ∧ (fieldNat (15 : W64) 3 0 = 15 ∧ 8 * fieldNat (0 : W64) 31 8 + 8 ≤ ((debugging 7 0 0 halted).secBytes 0 0 0).length
      ∧ ((debugging 7 0 0 halted).secBytes 0 0 0).length < 8 * fieldNat (0xFFFFFF00 : W64) 31 8 + 8)
    ∧ (fieldNat (8 : W64) 3 0 = 8 ∧ fieldNat (12 : W64) 3 0 = 12 ∧ fieldNat (14 : W64) 3 0 = 14
      ∧ 8 * fieldNat (0x3F07 : W64) 31 8 + 8 ≤ ((debugging 8 0 0 halted).secBytes 0 0 (fieldNat (0x3F07 : W64) 3 0)).length)
    ∧ (replayEntries ((debugging 9 0 0 halted).ctx 0 0).replay)[fieldNat (0 : W64) 15 0]? = none
    ∧ ((replayEntries [({ ctx := 0, due := 0, issued := 0, baddr := 0, slot := 0, seg := 0, run := 0, word := 0, kind := .mzero 0 } : Item)])[
        fieldNat (0 : W64) 15 0]?).isSome = true
    ∧ ((debugging 13 0 0 attached).counter 0 18 = none ∧ ((debugging 13 0 0 attached).counter 0 31).isSome = true
      ∧ ((debugging 13 0 0 attached).counter 0 0).isSome = true ∧ (debugging 13 0 0 attached).focus.fn ≠ 0 ∧ fieldNat (0x10000 : W64) 4 0 ≠ 31
      ∧ (debugging 13 0 0 attached).owns 1 0 (fieldNat (0x10000 : W64) 19 16) = false) := by
  and_intros <;> decide +kernel

/-- A run of one bundle whose last place is the end of bundle memory; it posts nothing. -/
def oneBundle : Rec64 := BitVec.ofNat 512 (8191 + 2 ^ 16 + 2 ^ 128)

/-- The only run of context 0, with its WEN passed, and the engine of tile 0. -/
def running (d : Rec64) (started issued : Bool) (f : Engine → Engine) : State :=
  (probe fun x => { x with
    counts := [(4, { issued := 1, retired := 0, fence := 0, tlsum := 0, timeline := 0 })]
    bun := { x.bun with loop := Loop.start d }
    runs := [{
      desc := d
      malformed := false
      fpcw := 0
      ord := 0
      passed := true
      started := started
      issued := issued }] }).modEngine 0 f

/-- An item of context 0 that is due now. -/
def due0 (k : ItemKind) : Item := { ctx := 0, due := 0, issued := 0, baddr := 8191, slot := 7, seg := 0, run := 0, word := 0, kind := k }
def holdingItem (k : ItemKind) : State := running oneBundle true false fun e => { e with items := [due0 k] }

/-- Two lines of one bank in one cycle. -/
def twoLines : ItemKind := .store 3 [(0, 1), (512, 2)] 4

/-- Every row of the bundle engine is due: in the turn, at the start and the end of a run that posts and of one that does not. -/
theorem witness_BundleEngineRows :
    ((running oneBundle false false id).selected (running oneBundle false false id).focus.tile = some 0)
    ∧ ((running oneBundle true false fun e => { e with turn := some 0 }).engine 0).turn = some 0
    ∧ (let s := running oneBundle false false fun e => { e with turn := some 0 }
       s.focus.tile = 0 ∧ (s.engine 0).turn = some 0 ∧ (s.ctx? 0 0).isSome = true ∧ ((s.ctx 0 0).nextRun?.map fun e => s.runCheck 0 0 e) = some none)
    ∧ (let s := running (oneBundle + BitVec.ofNat 512 (2 ^ 16)) false false fun e => { e with turn := some 0 }
       (s.engine 0).turn = some 0 ∧ ((s.ctx 0 0).nextRun?.map fun e => s.runCheck 0 0 e) = some (some (9, 2))
        ∧ (s.ctx 0 0).st = .resident ∧ (s.ctx 0 0).dbg.attached = false)
    ∧ (At (running oneBundle true true id) 0 0 ∧ (running oneBundle true true id).runDone 0 0 = true ∧ rdPen oneBundle = false)
    ∧ (let d := oneBundle + BitVec.ofNat 512 (2 ^ 96 + 2 ^ 97 + 63 * 2 ^ 109 + 8191 * 2 ^ 115)
       At (running d true true id) 0 0 ∧ (running d true true id).runDone 0 0 = true ∧ rdPen d = true ∧ rdPtile d = 0
        ∧ ((running d true true id).ctx 0 0).runs.length = 1)
    ∧ (let d := oneBundle + BitVec.ofNat 512 (2 ^ 96 + 2 ^ 97 + 319 * 2 ^ 100 + 63 * 2 ^ 109 + 8191 * 2 ^ 115)
       (running d true true id).runDone 0 0 = true ∧ rdPen d = true ∧ rdPtile d ≠ 0)
    ∧ (let s := running oneBundle true false id
       At s 0 0 ∧ ((s.ctx 0 0).curRun?.map fun e => (s.bun 0 0).loop.addr e.desc) = some 8191)
    ∧ (let s := running oneBundle true false fun e => { e with freezes := [{ cause := .semwait, left := none, owner := 0, pc := 8191 }] }
       ((s.engine s.focus.tile).freezes.map fun f => f.cause) = [.semwait])
    ∧ (let s := running oneBundle true false fun e => { e with bankDue := some (1, 0, 8191) }
       (s.engine s.focus.tile).bankDue = some (1, 0, 8191)) := by
  simp only [At]
  and_intros <;> decide +kernel

/-- What lands, what accesses, what is out: a spill, a fill that its home has answered, a spill and a fill that it has refused; the
window of a matrix operand and accesses with an uncorrectable error in what they read. -/
def outItem (key : Nat) (fill : Bool) (got : Option FillData) : ItemKind := .spillOut 0 hbmBase key false (BitVec.allOnes 128) (.v 31) fill got
def outOf (k : ItemKind) : State := (holdingItem k).modEngine 0 fun e => { e with freezes := [{ cause := .spillfrz, left := none, owner := 0, pc := 8191 }] }

theorem witness_BundleEngineRows_items :
    ([ItemKind.vec (.v 31) (BitVec.allOnes 128) default true 31, .scalar (.s 7) 5 true, .pred 7 (BitVec.allOnes 128) 1 0].all fun k =>
      decide (((holdingItem k).engine 0).dueLandings = [due0 k]) && decide (((holdingItem k).engine 0).earliest = some (due0 k))) = true
    ∧ ([ItemKind.load (.v 31) 1 [(0, 0xFFC)] false 4, .load (.s 7) 1 [(0, 0xFF8)] true 2, .store 1 [(0xFFC, 5)] 4, .credit 0 63 8191 1, .credit 319 63 8191 4,
        .arm 63 5 true, .arm 63 5 false, .fmtC 15 0xFC0, twoLines].all fun k =>
      decide (((holdingItem k).engine 0).dueAccesses = [due0 k])) = true
    ∧ (holdingItem twoLines).focus.tile = 0 ∧ ((holdingItem twoLines).engine 0).cur = none ∧ ((holdingItem twoLines).ctx? 0 0).isSome = true
    ∧ (bankLoad [due0 twoLines]).1 = 2 ∧ (bankLoad [due0 twoLines]).2 = some (due0 twoLines)
    ∧ ([outItem 0 false none, outItem 255 false (some { bytes := [], clock := Clock.zero, fault := some (0x12, 1, 0) }),
        outItem 0 true (some { bytes := List.replicate 512 5, clock := Clock.zero, fault := none }),
        outItem 0 true (some { bytes := [], clock := Clock.zero, fault := some (0x13, 0, 448) })].all fun k =>
      decide (((outOf k).engine 0).items.find? (fun i => i.kind.isOut) = some (due0 k))
        && decide (((outOf k).engine 0).items = [due0 k]) && decide (((outOf k).engine 0).spillDue ((outOf k).engine 0).prevented = none)
        && ((outOf k).ctx? 0 0).isSome) = true
    ∧ ([(ItemKind.window [0] 0 [(0, 64)] false, 0), (.load (.v 31) 1 [(0, 0x20)] false 4, 0x20), (.load (.s 7) 1 [(0, 0x38)] true 2, 0x38),
        (.fmtC 15 0, 0)].all fun e =>
      let k := e.1
      let s : State := { holdingItem k with ecc := [sliceAddr 0 0] }
      (match k with
        | .window _ _ l _ => decide ((s.engine 0).dueLandings = [due0 k]) && decide (l.find? (fun r => s.localBad 0 r.1 r.2) = some (0, 64))
        | _ => decide ((s.engine 0).dueAccesses = [due0 k]) && decide ((k.readsOf.find? (fun r => s.localBad 0 r.1 r.2)).map Prod.fst = some e.2))
        && (s.ctx? 0 0).isSome) = true
    ∧ ((holdingItem (.fmtC 15 0xFC0)).localBad 0 0xFC0 64 = false ∧ (holdingItem (.fmtC 15 0xFC0)).localBad 0 0xFFC 4 = false
      ∧ (holdingItem (.fmtC 15 0xFC0)).localBad 0 0xFF8 8 = false) := by
  and_intros <;> decide +kernel

/-- A late stop that is no step fault; a bundle or a hart that has waited one period of the watchdog to the tick. -/
theorem witness_BundleEngineRows_ends :
    (let s := probe fun x => { x with lateStop := [{ State.reset.stopRec 0 0 0x0A with late := true }] }
     At s 0 0 ∧ ((s.ctx 0 0).lateStop.map fun r => r.code) = [0x0A] ∧ (s.ctx 0 0).st = .resident ∧ (s.ctx 0 0).dbg.attached = false)
    ∧ (let s : State := { probe fun x => { x with heldSince := some 0 } with now := 2 ^ 30 }
       At s 0 0 ∧ s.bundleOverdue 0 0 = some 1)
    ∧ (let s : State := { waiting .parcel .kJoin none with now := 2 ^ 30 }
       At s 0 0 ∧ s.bundleOverdue 0 0 = none ∧ (s.hartOverdue 0 0).map Prod.snd = some 1)
    ∧ (let s : State := { waiting .parcel .kJoin none with now := 2 ^ 30 - 1 }
       (s.hartOverdue 0 0).map Prod.snd = none)
    ∧ (let s := running oneBundle true false id
       At s 0 0 ∧ (s.ctx 0 0).curRun?.isSome = true ∧ (s.ctx 0 0).st = .resident ∧ (s.ctx 0 0).dbg.attached = false)
    ∧ (let s := (probe id).modTile 0 fun x => { x with charges := [(0, { owner := 8, cause := .idle, pc := 0 })] }
       (tabGet? (s.tile 0).charges ((s.tile 0).samples % 9)).map Charge.owner = some 8 ∧ s.focus.fn = 0)
    ∧ (let s := (owned 0 (probe id)).modTile 0 fun x => { x with charges := [(0, { owner := 0, cause := .loopset, pc := 5 })] }
       (tabGet? (s.tile 0).charges ((s.tile 0).samples % 9)).map Charge.owner = some 0 ∧ s.asidFn (s.asidOf 0 0) = s.focus.fn)
    ∧ tabGet? ((probe id).tile 0).charges (((probe id).tile 0).samples % 9) = none := by
  simp only [At]
  and_intros <;> decide +kernel

/-- Tile 0 with a state of its clock cycle and of the physical tile it is on. -/
def rated (f : Tile → Tile) (g : Site → Site) : State := ((probe id).modTile 0 f).modSite 0 g

/-- The trim rule of the rating controller is late at one error in 2,000,000 cycles of 1,000,000, clean at 2^32 cycles with a
quarter of that; it does neither just below. -/
def isLate (x : Site) : Bool := decide (1000000 ≤ x.b) && decide (2 * x.b < x.r * 1000000)
def isClean (x : Site) : Bool := decide (2 ^ 32 ≤ x.cb) && decide (x.cr * 1000000 ≤ x.cb / 2)

/-- The last link of a die and of its mesh; a row of the last stack that is worn, and one whose failing units have been rewritten; the
two copies of a sheet, two errors and the third. -/
theorem witness_RatingAndPower :
    ((probe id).enabled 0 = true ∧ (50 : Nat) ≤ 50)
    ∧ (State.reset.deadLinks.contains 13 = false ∧ State.reset.deadLinks.contains 653 = false ∧ (13 : Nat) < 654 ∧ (653 : Nat) < 654)
    ∧ (({ State.reset with deadLinks := [13] } : State).cutOff = [] ∧ 0 ∈ ({ State.reset with deadLinks := [0, 6, 10] } : State).cutOff)
    ∧ (let s : State := { State.reset with rowErrs := [(23, 7, 4)] }
       (23 : Nat) < 24 ∧ s.rowFails 23 7 = false ∧ s.rowWorn 23 7 = true)
    ∧ (let s : State := { State.reset with rewritten := [(23, 7)] }
       s.rowFails 23 7 = false ∧ (23, 7) ∈ s.rewritten)
    ∧ ((probe id).focus.tile = 0 ∧ (probe id).focus.slot ≠ 0 ∧ (slotProbe 0 id).focus.slot = 0)
    ∧ ([0, 1, 2].all fun n => (rated (fun x => { x with errs := n }) id).enabled 0
        && decide (((rated (fun x => { x with errs := n }) id).tile 0).failed = none)) = true
    ∧ ((rated (fun x => { x with failed := some 0 }) id).enabled 0 = true ∧ ((rated (fun x => { x with failed := some 0 }) id).tile 0).drainingOut = true
      ∧ (rated (fun x => { x with failed := some 0 }) id).spills 0 = false)
    ∧ ((rated id fun x => { x with askRetire := true }).site ((rated id fun x => { x with askRetire := true }).siteOf 0)).askRetire = true
    ∧ ((rated id fun x => { x with thermal := true }).site ((rated id fun x => { x with thermal := true }).siteOf 0)).thermal = true
    ∧ (Instr.thermalShutdown, 1) ∈ [(Instr.orderlyShutdown, 0), (.thermalShutdown, 1)] ∧ State.reset.boot ≠ .lost := by
  and_intros <;> decide +kernel

/-- A row whose bank has no spare row left. -/
def outOfSpares : State := { State.reset with repaired := List.replicate 32 (23, 7), rowErrs := [(23, 7, 4)] }

theorem witness_RatingAndPower_spares :
    outOfSpares.rowFails 23 7 = false ∧ outOfSpares.rowWorn 23 7 = true ∧ 32 ≤ outOfSpares.bankUsed 23 7 := by
  refine ⟨rfl, rfl, ?_⟩
  simp [State.bankUsed, outOfSpares]

/-- A failed tile whose die has a spare physical tile, one whose die has an empty tile instead; one whose package has neither. -/
theorem witness_RatingAndPower_move :
    (let s := rated (fun x => { x with failed := some 0 }) id
     ((s.tile 0).failed.isSome = true ∧ (s.tile 0).sectors = [] ∧ s.enabled 0 = true ∧ s.spills 0 = false)
      ∧ (({ (s.drainRest 0) with holding := insNat 0 s.holding } : State).retireSite (s.siteOf 0) (s.tile 0).retireCause).moveChoice 0 = some (1, 40, none)
      ∧ ((s.bound 0).all fun c => (s.ctx 0 c).parkedOrder.isEmpty) = true)
    ∧ (let s : State := { rated (fun x => { x with failed := some 0 }) id with
         sites := (List.range 8).map fun i => (40 + i, { Site.reset (40 + i) with working := false }) }
       (({ (s.drainRest 0) with holding := insNat 0 s.holding } : State).retireSite (s.siteOf 0) (s.tile 0).retireCause).moveChoice 0 = some (2, 1, some 1))
    ∧ (let s : State := { rated (fun x => { x with failed := some 0 }) id with
         n0 := 1
         sites := (List.range 48).map fun i => (i, { Site.reset i with working := false }) }
       (s.tile 0).failed.isSome = true ∧ s.enabled 0 = true
        ∧ (({ (s.drainRest 0) with holding := insNat 0 s.holding } : State).retireSite (s.siteOf 0) (s.tile 0).retireCause).moveChoice 0 = none) := by
  and_intros <;> decide +kernel

/-- Boundary values of the trim rule: late with v below and at the last step and w above and at the floor; clean; neither. -/
theorem witness_RatingAndPower_trim :
    (isLate { Site.reset 0 with b := 1000000, r := 3 } = true ∧ isLate { Site.reset 0 with b := 1000000, r := 2 } = false
      ∧ isLate { Site.reset 0 with b := 999999, r := 3 } = false)
    ∧ ((675 : Nat) < 680 ∧ (680 : Nat) ≤ 680 ∧ (1550 : Nat) < 1555 ∧ (1550 : Nat) ≤ 1550)
    ∧ (isClean { Site.reset 0 with cb := 2 ^ 32, cr := 2147 } = true ∧ isClean { Site.reset 0 with cb := 2 ^ 32, cr := 2148 } = false
      ∧ isClean { Site.reset 0 with cb := 2 ^ 32 - 1 } = false ∧ isLate { Site.reset 0 with cb := 2 ^ 32, cr := 2147 } = false) := by
  and_intros <;> decide +kernel

/-- A hart's instruction and a slot's, each with operands at the ends of their fields. -/
theorem witness_EncodeDecode :
    ([Instr.kLda 3 6 true 31 31, .kTlwait 5 31 31 31].all fun i => wellFormed i && (encode i).isSome && ofHart i) = true
    ∧ ([Instr.add ⟨7, 31, 31, 31⟩, .spost 63 6 0x1FFF, .swait 63 7].all fun i => wellFormed i && (encode i).isSome && !(placesOf i).isEmpty) = true := by
  and_intros <;> decide +kernel

def okStep (o : Out) : Bool := match o with
  | .next _ => true
  | _ => false

/-- The bundle at 0 issues for context 0 of tile 0, slot n is next; slots 0 and 7 hold a word. -/
def issuing (n : Nat) : State :=
  { (running oneBundle true false fun e => { e with turn := some 0, cur := some (0, 0) }).modTile 0 fun x =>
      { x with bmem := [(3, 2), (31, 2)] } with micro := [.slot 0 0 n] }

/-- A step of a machine whose memories are in canonical form. -/
theorem witness_InvariantKept :
    (State.reset.withFetchWord 32 0x00000013).Canon
      ∧ okStep (step (State.reset.withFetchWord 32 0x00000013)) = true := by
  and_intros <;> decide +kernel

/-- A hart whose pc is the last word of instruction memory; the highest slot, and the lowest, of the bundle that issues. -/
theorem witness_StepRunsDecoded :
    (let s := ({ hartProbe fun h => { h with pc := 0xFFFE } with micro := [.hart 0 0] } : State)
     s.boot = .running ∧ (s.ctx? 0 0).isSome = true ∧ (s.hart 0 0).pc.toNat < 0x10000)
    ∧ ([0, 7].all fun n =>
       let s := issuing n
       decide (s.boot = .running) && decide (s.micro = [.slot 0 0 n]) && decide ((s.engine 0).stopAt = none) && decide ((s.engine 0).cur = some (0, 0))
        && (collision (s.env 0 0 0) (s.slotsBelow 0 0 (s.engine 0).doneMask bundleSlots) []).isNone
        && !(s.engine 0).doneMask.getLsbD n && !(s.ctx 0 0).dbg.attached && decide ((s.env 0 0 n).word ≠ 0)) = true := by
  and_intros <;> decide +kernel

/-! ### Single steps

The expected values are worked out by hand from the rules cited. -/

/-- Whether i answers a next state at s of which p holds. -/
def gives (i : Instr) (s : State) (p : State → Bool) : Bool := match exec i s with
  | .next u => p u
  | _ => false

/-- R60: a 12-bit immediate is sign-extended; the sum wraps. -/
theorem test_addi_wraps :
    gives (.controlCompute (.aluImm .addi 5 6 0xFFF)) (regProbe [(6, 0)]) (fun u => decide (u.getX 0 0 5 = 0xFFFFFFFFFFFFFFFF)
      && decide ((u.hart 0 0).pc = 4)) = true := by decide +kernel

/-- R60: the quotient by zero is all ones, the quotient that overflows is the dividend. -/
theorem test_div_corners :
    gives (.controlCompute (.alu .div 5 6 7)) (regProbe [(6, 9), (7, 0)]) (fun u => decide (u.getX 0 0 5 = 0xFFFFFFFFFFFFFFFF)) = true
    ∧ gives (.controlCompute (.alu .div 5 6 7)) (regProbe [(6, 0x8000000000000000), (7, 0xFFFFFFFFFFFFFFFF)])
      (fun u => decide (u.getX 0 0 5 = 0x8000000000000000)) = true := by
  and_intros <;> decide +kernel

/-- R60: jalr with the same register as base and link; bit 0 of the target is cleared. -/
theorem test_jalr_reads_first :
    gives (.controlCompute (.jalr 1 1 7)) (regProbe [(1, 0x100)]) (fun u => decide (u.getX 0 0 1 = 4) && decide ((u.hart 0 0).pc = 0x106)) = true := by
  decide +kernel

/-- R60: x0 stays zero. -/
theorem test_x0_discards :
    gives (.controlCompute (.lui 0 1)) (regProbe []) (fun u => decide (u.getX 0 0 0 = 0)) = true := by decide +kernel

/-- R22: little-endian; a store of two bytes writes two. -/
theorem test_sh_bytes :
    gives (.controlStore 1 6 7 0) (regProbe [(6, 0x10), (7, 0x1234ABCD)]) (fun u => decide (u.localByte 0 0x10 = 0xCD)
      && decide (u.localByte 0 0x11 = 0xAB) && decide (u.localByte 0 0x12 = 0)) = true := by decide +kernel

/-- R61: sc.w without a reservation writes 1 to rd and no memory. -/
theorem test_sc_fails :
    gives (.sc false false false 5 6 7) (regProbe [(6, 0x10), (7, 9)]) (fun u => decide (u.getX 0 0 5 = 1) && decide (u.localByte 0 0x10 = 0)) = true := by
  decide +kernel

/-- The kinds of the items in flight in tile 0. -/
def kinds (s : State) : List ItemKind := (s.engine 0).items.map fun i => i.kind

/-- R197: 64-bit sums wrap. -/
theorem test_slot_add_wraps :
    gives (.add ⟨0, 3, 1, 2⟩) (slotProbe 0 fun b => { b with s := [(1, 0xFFFFFFFFFFFFFFFF), (2, 3)] })
      (fun u => (kinds u).any fun k => match k with
        | .scalar (.s 3) v _ => decide (v = 2)
        | _ => false) = true := by decide +kernel

/-- Lane 0 of what vector instruction i brings when lane 0 of V1, V2, V3 holds a, b, c. -/
def lane0 (i : Instr) (a b c : W32) : Option (W32 × BitVec 5) :=
  match exec i (slotProbe 2 fun x => { x with v := [(1, lanesOf fun _ => a), (2, lanesOf fun _ => b), (3, lanesOf fun _ => c)] }) with
  | .next u => (kinds u).findSome? fun k => match k with
    | .vec _ _ d _ f => some (laneAt d 0, f)
    | _ => none
  | _ => none

/-- R225: 1 + 2^-24 is a tie and rounds to even; 1 + 3·2^-24 rounds up. -/
theorem test_fadd_ties_to_even :
    (lane0 (.fadd ⟨.f, 0, 3, 1, 2⟩) 0x3F800000 0x33800000 0).map Prod.fst = some 0x3F800000
    ∧ (lane0 (.fadd ⟨.f, 0, 3, 1, 2⟩) 0x3F800000 0x34400000 0).map Prod.fst = some 0x3F800002 := by
  and_intros <;> decide +kernel

/-- R247's example: the fused sum -2^-46 is exact and raises no flag. -/
theorem test_fma_example :
    lane0 (.fma ⟨.f, 0, 3, 1, 2⟩) 0x3F800001 0x3F7FFFFE 0xBF800000 = some (0xA8800000, 0) := by
  decide +kernel

/-- R251: 32-bit lanes wrap. -/
theorem test_vadd_wraps : (lane0 (.vaddI32 ⟨0, 3, 1, 2⟩) 0xFFFFFFFF 2 0).map Prod.fst = some 1 := by decide +kernel

/-- Lane 0 of what X slot instruction i brings when lane 0 of V1 holds a. -/
def lane0X (i : Instr) (a : W32) : Option (W32 × BitVec 5) :=
  match exec i (slotProbe 5 fun x => { x with v := [(1, lanesOf fun _ => a)] }) with
  | .next u => (kinds u).findSome? fun k => match k with
    | .vec _ _ d _ f => some (laneAt d 0, f)
    | _ => none
  | _ => none

/-- R266's examples: rsqa of 2.0, sina of 0.125, exp2a of 0.5, rcpa of 3.0 and of 1 + 3/512. -/
theorem test_sfu_examples :
    (lane0X (.rsqa ⟨0, 4, 1⟩) 0x40000000).map Prod.fst = some 0x3F3504F3
    ∧ (lane0X (.sina ⟨0, 4, 1⟩) 0x3E000000).map Prod.fst = some 0x3F3504F3
    ∧ (lane0X (.exp2a ⟨0, 4, 1⟩) 0x3F000000).map Prod.fst = some 0x3FB504F3
    ∧ (lane0X (.rcpa ⟨0, 4, 1⟩) 0x40400000).map Prod.fst = some 0x3EAAAAAB
    ∧ (lane0X (.rcpa ⟨0, 4, 1⟩) 0x3F80C000).map Prod.fst = some 0x3F7E827C := by
  and_intros <;> decide +kernel

/-- R268's verdicts: inf - inf, 0 * inf with a quiet NaN addend, the larger of two zeros, cvt.e4m3 of 500. -/
theorem test_vector_verdicts :
    lane0 (.fadd ⟨.f, 0, 3, 1, 2⟩) 0x7F800000 0xFF800000 0 = some (0x7FC00000, 0b10000)
    ∧ (lane0 (.fma ⟨.f, 0, 3, 1, 2⟩) 0 0x7F800000 0x7FC00000).map (fun r => r.2.getLsbD 4) = some true
    ∧ (lane0 (.fmax ⟨.f, 0, 3, 1, 2⟩) 0x80000000 0 0).map Prod.fst = some 0
    ∧ lane0 (.fmaxn ⟨.f, 0, 3, 1, 2⟩) 0x7FC00000 0x3F800000 0 = some (0x3F800000, 0)
    ∧ lane0 (.cvt ⟨0, 3, 1, 0, 4, 1⟩) 0x43FA0000 0 0 = some (0x7E, 0b00101) := by
  and_intros <;> decide +kernel

end Sys2Proof.Tests
end

section
/-! PROOFS of the statements of the package's rating and reset: what reset leaves (O59), and why the loss of a link does not
keep the lifetime records (O55). -/

namespace Sys2Proof.Proofs

open Sys2Proof.Machine Sys2Proof.Safety

/-! ### What reset leaves (R4, R23, R38, R117) -/

theorem ctx_reset (t c : Nat) : State.reset.ctx t c = Ctx.reset := rfl

theorem sem_reset (t g : Nat) : State.reset.sem t g = Sem.reset := rfl

theorem getX_reset (t c : Nat) (q : BitVec 5) : State.reset.getX t c q = 0 := by
  by_cases hq : q = 0
  · rw [hq, State.getX_zero]
  · rw [State.getX, if_neg hq, State.hart, ctx_reset]
    rfl

/-- The readable fields of a semaphore entry after reset are all zero, and so is every byte of it. -/
theorem byte_semReset (o : Nat) : Sem.reset.byte o = 0 := by
  have hbits : Sem.reset.bits = 0 := by decide
  rw [Sem.byte, hbits]
  split
  · exact BitVec.extractLsb'_zero
  · rfl

theorem localByte_reset (t a : Nat) : State.reset.localByte t a = 0 := by
  unfold State.localByte
  split
  · rw [sem_reset, byte_semReset]
  · rfl

/-- Settles O59: every table of the state after reset is empty, so each reader answers its default. -/
theorem resetState : Obligations.ResetState :=
  ⟨⟨rfl, rfl⟩, rfl, rfl, rfl, fun _ _ => rfl, sem_reset, getX_reset, fun _ => rfl, fun _ => rfl, localByte_reset⟩

/-! ### The loss of a link and the lifetime records (R28, R370, R386, R387) -/

/-- The state once a link has failed for good: it is disabled, and a link between dies is counted in the lifetime records
(R386, R388). -/
def linkLost (link : Nat) (s : State) : State :=
  { s with
    deadLinks := s.deadLinks ++ [link]
    lifetime := if link < 14 then { s.lifetime with linksDisabled := min 255 (s.lifetime.linksDisabled + 1) } else s.lifetime }

/-- The failure of a link between dies that has no spare lane left disables it and retires the tiles that it cuts off. -/
theorem exec_laneSwap_disables {s : State} {link : Nat} (up : s.deadLinks.contains link = false) (dies : link < 14)
    (bare : s.lanesLeft link = 0) :
    exec (.laneSwap link) s
      = .next ((linkLost link s).cutOff.foldl (fun (u : State) t => u.failTile t 2) (linkLost link s)) := by
  have hdue : ¬(s.deadLinks.contains link = true ∨ meshLink 8 0 ≤ link) := by
    have hnum : meshLink 8 0 = 654 := rfl
    rw [up, hnum]
    simp only [Bool.false_eq_true, false_or]
    omega
  have hspare : ¬(link < 14 ∧ s.lanesLeft link ≠ 0) := fun h => h.2 bare
  rw [exec_laneSwap, execLaneSwap, if_neg hdue, if_neg hspare]
  rfl

/-- A link that has used four lanes has none left, whatever manufacture has left of its spares. -/
theorem lanesLeft_four_used {s : State} {link : Nat} (h : tabGet 0 s.lanesUsed link = 4) : s.lanesLeft link = 0 := by
  rw [State.lanesLeft, h]
  omega

/-- A launch of address space 1 with block counters at virtual address 0x10000 (R44, R370). -/
def countedLaunch : Launch := { Launch.none with record := 1#2048 <<< 192 ||| 0x10000#2048 <<< 640, tiles := [0] }

/-- Die 0 hangs on its link to IO0, whose four spare lanes are used: its links to dies 1 and 4 are disabled. On tile 0 a task
has counted block 0 once, and the bucket of the page table that translates the counter's address holds an uncorrectable
error. -/
def lastLink : State :=
  { State.reset with
    deadLinks := [0, 6]
    lanesUsed := [(10, 4)]
    launches := [countedLaunch]
    asids := [(1, BitVec.ofNat 128 (2 ^ 63 + hbmBase))]
    ecc := [hbmBase]
    tiles := [(0, { Tile.reset with ctxs := [(0, Ctx.reset)], cache := [{ launch := 0, n := 0, delta := 1 }] })] }

/-- The tiles of die 0 lose their route. -/
theorem cutOff_lastLink : (linkLost 10 lastLink).cutOff = List.range 40 := by decide +kernel

/-- The drain of tile 0 writes its counter back; the walk meets the uncorrectable error, and the lifetime records of stack 0
count it (R3, R386). -/
theorem ecc_retired_lastLink :
    ((List.range 40).foldl (fun (u : State) t => u.failTile t 2) (linkLost 10 lastLink)).lifetime.ecc = [(0, (0, 1))] := by
  decide +kernel

/-- Refutes O55: a link's loss does not leave the lifetime records as the count of disabled links alone has them. From
`lastLink` the tiles of die 0 are retired, and the write-back of a block counter adds an uncorrectable error of stack 0. -/
theorem not_ratingAndPower : ¬ Obligations.RatingAndPower := by
  unfold Obligations.RatingAndPower
  rintro ⟨-, hswap, -⟩
  have bare : lastLink.lanesLeft 10 = 0 := lanesLeft_four_used rfl
  obtain ⟨u, hu, hclaim⟩ := hswap lastLink 10 rfl (by decide)
  rw [if_neg fun h => h.2 bare] at hclaim
  obtain ⟨-, hlife, -⟩ := hclaim
  rw [exec_laneSwap_disables rfl (by decide) bare, cutOff_lastLink] at hu
  injection hu with hu
  have hecc : u.lifetime.ecc = [(0, (0, 1))] := hu ▸ ecc_retired_lastLink
  rw [hlife] at hecc
  exact absurd hecc (by decide)

end Sys2Proof.Proofs
end

section
/-! PROOFS of the credit rule of the semaphores (O10), and the bytes of a word that a store takes. -/

namespace Sys2Proof.Proofs

open Sys2Proof.Machine Sys2Proof.Safety

/-! ### The bytes of a word (R11) -/

@[simp] theorem length_bytesOf {m : Nat} (w : BitVec m) (n : Nat) : (bytesOf w n).length = n := by simp [bytesOf]

theorem getD_bytesOf {m : Nat} (w : BitVec m) {n i : Nat} (h : i < n) : (bytesOf w n).getD i 0 = byteOf w i := by
  simp [bytesOf, h]

theorem byteOf_succ {m : Nat} (w : BitVec m) (i : Nat) : byteOf w (i + 1) = byteOf (w >>> 8) i := by
  ext j hj
  simp [byteOf, Nat.mul_add, Nat.add_comm, Nat.add_left_comm]

theorem bytesOf_succ {m : Nat} (w : BitVec m) (n : Nat) : bytesOf w (n + 1) = byteOf w 0 :: bytesOf (w >>> 8) n := by
  simp [bytesOf, List.range_succ_eq_map, Function.comp_def, byteOf_succ]

/-- The bytes of a word hold the word modulo what they can hold. -/
theorem natOfBytes_bytesOf {m : Nat} (w : BitVec m) (n : Nat) : natOfBytes (bytesOf w n) = w.toNat % 2 ^ (8 * n) := by
  induction n generalizing w with
  | zero => simp [bytesOf, natOfBytes, Nat.mod_one]
  | succ n ih =>
    have hlow : (byteOf w 0).toNat = w.toNat % 256 := by simp [byteOf]
    have hhigh : (w >>> 8).toNat = w.toNat / 256 := by simp [Nat.shiftRight_eq_div_pow]
    rw [bytesOf_succ, natOfBytes, ih, hlow, hhigh, ← Nat.mod_mul, Nat.mul_add, Nat.pow_add, Nat.mul_comm]

/-- Four bytes make the word whose bytes they are. -/
theorem wordOf_bytes {w : W32} {f : Nat → Byte} (h : ∀ i, i < 4 → byteOf w i = f i) :
    wordOf 32 ((List.range 4).map f) = w := by
  have hf : (List.range 4).map f = bytesOf w 4 := List.map_congr_left fun i hi => (h i (List.mem_range.1 hi)).symm
  rw [hf, wordOf, natOfBytes_bytesOf]
  exact BitVec.eq_of_toNat_eq (by simpa using w.isLt)

/-- A word and a longer one that it begins have the same low bytes. -/
theorem byteOf_setWidth {m k : Nat} (w : BitVec m) {i : Nat} (h : 8 * i + 8 ≤ k) : byteOf (w.setWidth k) i = byteOf w i := by
  ext j hj
  simp [byteOf, show 8 * i + j < k by omega]

theorem bytesOf_setWidth {m k : Nat} (w : BitVec m) {n : Nat} (h : 8 * n ≤ k) : bytesOf (w.setWidth k) n = bytesOf w n :=
  List.map_congr_left fun i hi => byteOf_setWidth w (by have := List.mem_range.1 hi; omega)

theorem getLsbD_byteOf {m : Nat} (w : BitVec m) (i : Nat) {j : Nat} (h : j < 8) :
    (byteOf w i).getLsbD j = w.getLsbD (8 * i + j) := by
  simp [byteOf, h]

/-! ### The credit rule (R24) -/

/-- Rounds of the loop that are enough take the remainder of the division by TARGET, and its quotient in generations. -/
theorem advance_eq_divMod {target : Nat} (h0 : target ≠ 0) (n count : Nat) (gen : W16) (adv : Nat) (h : count ≤ n) :
    Sem.advance n target count gen adv
      = (count % target, gen + BitVec.ofNat 16 (count / target), adv + count / target) := by
  induction n generalizing count gen adv with
  | zero => simp [Sem.advance, Nat.le_zero.1 h]
  | succ n ih =>
    by_cases hle : target ≤ count
    · have hdiv : count / target = (count - target) / target + 1 := Nat.div_eq_sub_div (Nat.pos_of_ne_zero h0) hle
      rw [Sem.advance, if_pos ⟨h0, hle⟩, ih _ _ _ (by omega), Nat.mod_eq_sub_mod hle, hdiv, BitVec.ofNat_add,
        BitVec.add_comm (BitVec.ofNat 16 _), BitVec.add_assoc, Nat.add_assoc, Nat.add_comm 1]
      rfl
    · have hlt : count < target := Nat.lt_of_not_le hle
      rw [Sem.advance, if_neg fun hc => hle hc.2, Nat.mod_eq_of_lt hlt, Nat.div_eq_of_lt hlt]
      simp

/-- With a TARGET of zero the loop ends at once. -/
theorem advance_zero (n count : Nat) (gen : W16) (adv : Nat) : Sem.advance n 0 count gen adv = (count, gen, adv) := by
  cases n <;> simp [Sem.advance]

theorem advance_eq_generations {n target count : Nat} (gen : W16) (h : count ≤ n) :
    Sem.advance n target count gen 0 = Sem.generations target count gen := by
  by_cases h0 : target = 0
  · rw [h0, advance_zero]; rfl
  · rw [advance_eq_divMod h0 n count gen 0 h, Sem.generations, if_neg h0, Nat.zero_add]

/-- The saturated sum of a credit is the smaller of the sum and the largest COUNT. -/
theorem saturated_eq_min (k : Nat) : (if decide (0xFFFFFFFF < k) then 0xFFFFFFFF else k) = min 0xFFFFFFFF k := by
  simp only [decide_eq_true_eq]
  split <;> omega

/-- Settles O10: the loop is the division by TARGET, by induction on its rounds. -/
theorem creditRule : Obligations.CreditRule := by
  refine ⟨fun x v n h => ?_, fun x w n h => ?_⟩
  · simp only [Sem.credit, saturated_eq_min, advance_eq_generations x.gen h]
  · simp only [Sem.store, advance_eq_generations x.gen h]

end Sys2Proof.Proofs
end

section
/-! PROOFS of what a store of the control core does: to the semaphore block, to the scratchpad below it, to the harts. -/

namespace Sys2Proof.Proofs

open Sys2Proof.Machine Sys2Proof.Safety

/-! ### What a store leaves of the harts (R61, R358) -/

/-- What a store of hart c of tile t leaves of the harts: another hart loses at most its reservation; its own keeps all but its
reservation, which it cannot gain, and its list of accesses not yet performed. -/
def StoreFrame (s u : State) (t c : Nat) : Prop :=
  OthersKept s u t c
    ∧ { u.hart t c with reservation := none, outst := [] } = { s.hart t c with reservation := none, outst := [] }
    ∧ ((s.hart t c).reservation = none → (u.hart t c).reservation = none)
    ∧ u.focus = s.focus

theorem StoreFrame.refl (s : State) (t c : Nat) : StoreFrame s s t c := ⟨fun _ _ _ => rfl, rfl, id, rfl⟩

theorem StoreFrame.trans {s u v : State} {t c : Nat} (h : StoreFrame s u t c) (k : StoreFrame u v t c) : StoreFrame s v t c := by
  obtain ⟨hothers, hown, hres, hfocus⟩ := h
  obtain ⟨kothers, kown, kres, kfocus⟩ := k
  exact ⟨fun x d n => (kothers x d n).trans (hothers x d n), kown.trans hown, fun e => kres (hres e), kfocus.trans hfocus⟩

/-- If every hart is what it was but for a reservation it may have lost, the frame of a store is kept. -/
theorem storeFrame_of_harts {s u : State} (t c : Nat) (h : ∀ x d, ∃ r, u.hart x d = { s.hart x d with reservation := r })
    (hres : (s.hart t c).reservation = none → (u.hart t c).reservation = none) (hf : u.focus = s.focus) : StoreFrame s u t c := by
  refine ⟨fun x d _ => ?_, ?_, hres, hf⟩
  · obtain ⟨r, e⟩ := h x d
    rw [e]
  · obtain ⟨r, e⟩ := h t c
    rw [e]

theorem StoreFrame.othersKept {s u : State} {t c : Nat} (h : StoreFrame s u t c) : OthersKept s u t c := h.1

theorem StoreFrame.focus {s u : State} {t c : Nat} (h : StoreFrame s u t c) : u.focus = s.focus := by
  obtain ⟨-, -, -, hfocus⟩ := h
  exact hfocus

theorem StoreFrame.noReservation {s u : State} {t c : Nat} (h : StoreFrame s u t c) (hn : (s.hart t c).reservation = none) :
    (u.hart t c).reservation = none := by
  obtain ⟨-, -, hres, -⟩ := h
  exact hres hn

theorem StoreFrame.pc {s u : State} {t c : Nat} (h : StoreFrame s u t c) : (u.hart t c).pc = (s.hart t c).pc := by
  obtain ⟨-, hown, -, -⟩ := h
  exact (congrArg Hart.pc hown :)

theorem StoreFrame.x {s u : State} {t c : Nat} (h : StoreFrame s u t c) (x d : Nat) : (u.hart x d).x = (s.hart x d).x := by
  obtain ⟨hothers, hown, -, -⟩ := h
  by_cases n : x = t ∧ d = c
  · rw [n.1, n.2]; exact (congrArg Hart.x hown :)
  · exact (congrArg Hart.x (hothers x d n) :)

theorem StoreFrame.regsKept {s u : State} {t c : Nat} (h : StoreFrame s u t c) : RegsKept s u := fun x d q => by
  simp only [State.getX, h.x x d]

theorem StoreFrame.hartKept {s u : State} {t c : Nat} (h : StoreFrame s u t c) : HartKept (s.hart t c) (u.hart t c) := by
  obtain ⟨-, hown, -, -⟩ := h
  exact ⟨(congrArg Hart.fhandler hown :), (congrArg Hart.fepc hown :), (congrArg Hart.faddr hown :), (congrArg Hart.fin hown :),
    (congrArg Hart.fpcw hown :), (congrArg Hart.fflags hown :)⟩

/-! ### Reservations that a write breaks (R61) -/

/-- A context of number k after a write of [a, a + n) by hart w: its reservation is lost if it lies on the lines written. -/
def brokenCtx (a n : Nat) (w : Option Nat) (k : Nat) (x : Ctx) : Ctx :=
  match x.hart.reservation with
  | some l =>
    if lineOf a ≤ l ∧ l ≤ lineOf (a + n - 1) ∧ w ≠ some k then { x with hart := { x.hart with reservation := none } } else x
  | none => x

theorem breakReservations_eq (s : State) (t a n : Nat) (w : Option Nat) :
    s.breakReservations t a n w = s.modTile t fun x => { x with ctxs := x.ctxs.map fun e => (e.1, brokenCtx a n w e.1 e.2) } := rfl

theorem brokenCtx_of_none {a n k : Nat} {w : Option Nat} {x : Ctx} (h : x.hart.reservation = none) : brokenCtx a n w k x = x := by
  simp [brokenCtx, h]

theorem tabGet?_mapKey {α : Type} (f : Nat → α → α) (l : Tab α) (k : Nat) :
    tabGet? (l.map fun e => (e.1, f e.1 e.2)) k = (tabGet? l k).map (f k) := by
  induction l with
  | nil => rfl
  | cons e l ih =>
    simp only [List.map_cons, tabGet?]
    split
    · next h => rw [h]; rfl
    · exact ih

/-- A write gives no reservation: a hart without one is what it was. -/
theorem reservation_breakReservations {s : State} {u d : Nat} (t a n : Nat) (w : Option Nat)
    (h : (s.hart u d).reservation = none) : ((s.breakReservations t a n w).hart u d).reservation = none := by
  rw [breakReservations_eq]
  by_cases hu : u = t
  · subst hu
    simp only [State.hart, State.ctx, State.tile_modTile_same, tabGet, tabGet?_mapKey] at h ⊢
    cases hx : tabGet? (s.tile u).ctxs d with
    | none => rfl
    | some x =>
      rw [hx] at h
      exact (congrArg (fun y : Ctx => y.hart.reservation) (brokenCtx_of_none h)).trans h
  · rw [State.hart, State.ctx, State.tile_modTile_other _ _ hu]
    exact h

theorem hart_breakReservations (s : State) (t a n : Nat) (w : Option Nat) (u d : Nat) :
    ∃ r, (s.breakReservations t a n w).hart u d = { s.hart u d with reservation := r } := by
  obtain ⟨r, e⟩ := s.ctx_breakReservations t a n w u d
  exact ⟨r, (congrArg Ctx.hart e :)⟩

theorem hart_taintWindows (s : State) (t a n : Nat) (u d : Nat) : (s.taintWindows t a n).hart u d = s.hart u d := by
  obtain ⟨f, g, e⟩ := s.ctx_taintWindows t a n u d
  exact (congrArg Ctx.hart e :)

theorem hart_pokeLocals (s : State) (t a : Nat) (l : List Byte) (u d : Nat) : (s.pokeLocals t a l).hart u d = s.hart u d :=
  congrArg Ctx.hart (s.ctx_pokeLocals t a l u d)

theorem storeFrame_writeLocal (s : State) (t c a : Nat) (l : List Byte) (w : Option Nat) :
    StoreFrame s (s.writeLocal t a l w) t c := by
  refine storeFrame_of_harts t c (hart_writeLocal s t a l w) (fun h => ?_) ?_
  · rw [State.writeLocal, hart_taintWindows]
    exact reservation_breakReservations _ _ _ _ (by rw [hart_pokeLocals]; exact h)
  · exact (congrArg State.focus (s.writeLocal_frame t a l w) :)

/-! ### A change of a semaphore (R23, R24, R61) -/

theorem semPuts_modSem (s : State) (t g : Nat) (f : Sem → Sem) : SemPuts s (s.modSem t g f) t g (f (s.sem t g)) := by
  refine ⟨?_, fun y h n => ?_, rfl⟩
  · rw [State.modSem, State.sem_breakReservations, State.sem_setSem]
  · rw [State.modSem, State.sem_breakReservations, State.sem_setSem_other _ _ n]

theorem semPuts_refl (s : State) (t g : Nat) : SemPuts s s t g (s.sem t g) := ⟨rfl, fun _ _ _ => rfl, rfl⟩

theorem hart_setSem (s : State) (t g u d : Nat) (x : Sem) : (s.setSem t g x).hart u d = s.hart u d := by
  simp only [State.hart, State.ctx, State.setSem, State.tile_modTile]
  split
  · next h => rw [h]
  · rfl

theorem storeFrame_modSem (s : State) (t c g : Nat) (f : Sem → Sem) : StoreFrame s (s.modSem t g f) t c := by
  refine storeFrame_of_harts t c (fun x d => ?_) (fun h => ?_) rfl
  · rw [← hart_setSem s t g x d (f (s.sem t g))]
    exact hart_breakReservations _ _ _ _ _ _ _
  · exact reservation_breakReservations _ _ _ _ (by rw [hart_setSem]; exact h)

/-! ### A credit to a semaphore of the own tile (R358) -/

/-- A credit is one message, on its way by the next clock cycle. -/
theorem sends_localCredit (s : State) (t c g v : Nat) :
    Sends s (s.localCredit t c g v []) t c false (.tile t) (.credit t g v) [] 0 := by
  refine ⟨⟨_, rfl, rfl, rfl, rfl, rfl, rfl, rfl, rfl, rfl, rfl⟩, rfl, ?_, ?_, ?_⟩
  · simp [State.localCredit, State.hart_modHart, State.sendQuiet, State.post]
  · simp only [State.localCredit, State.hart_modHart]
    rfl
  · exact ⟨fun _ => rfl, fun x h => State.sem_modHart _ _ _ _ _ _, fun _ => rfl⟩

theorem hart_localCredit (s : State) (t c g v : Nat) :
    (s.localCredit t c g v []).hart t c = { s.hart t c with outst := (s.hart t c).outst ++ [s.nextId] } :=
  State.hart_modHart _ _ _ _

theorem storeFrame_localCredit (s : State) (t c g v : Nat) : StoreFrame s (s.localCredit t c g v []) t c := by
  refine ⟨fun x d n => ?_, ?_, fun h => ?_, rfl⟩
  · rw [State.localCredit, State.hart_modHart_other _ _ n]
    rfl
  · rw [hart_localCredit]
  · rw [hart_localCredit]
    exact h

/-! ### A store to a semaphore entry (R23, R24) -/

theorem natOfBytes_low32 (v : W64) : natOfBytes (bytesOf v 4) = (low32 v).toNat := by
  rw [natOfBytes_bytesOf, low32, BitVec.toNat_setWidth]

theorem modSem_congr {s : State} {t g : Nat} {f : Sem → Sem} {x : Sem} (h : f (s.sem t g) = x) :
    s.modSem t g f = s.modSem t g fun _ => x := by
  simp only [State.modSem, h]

section
variable {s : State} {t c g o n : Nat} {v : W64}

/-- TARGET takes the bytes stored to it. -/
theorem semStore_target {w : W32} (ho : o < 4)
    (hw : ∀ i, i < 4 → byteOf w i = if o ≤ i ∧ i < o + n then byteOf v (i - o) else byteOf (s.sem t g).target i) :
    s.semStore t c g o (bytesOf v n) = s.modSem t g fun _ => (s.sem t g).store w := by
  rw [State.semStore, if_pos ho]
  refine modSem_congr (congrArg _ (wordOf_bytes fun i hi => ?_))
  rw [hw i hi, length_bytesOf]
  by_cases hc : o ≤ i ∧ i < o + n
  · simp only [if_pos hc, Option.getD_some, getD_bytesOf v (show i - o < n by omega)]
  · simp only [if_neg hc, Option.getD_none]

/-- A store that covers their byte clears ERR and OVERSHOOT where it has a one. -/
theorem semStore_flags (h8 : 8 ≤ o) (h10 : o ≤ 10) (hn : 10 < o + n) (hend : o + n ≤ 16) :
    s.semStore t c g o (bytesOf v n) = s.modSem t g fun _ => { s.sem t g with
      err := (s.sem t g).err && !(byteOf v (10 - o)).getLsbD 0,
      overshot := (s.sem t g).overshot && !(byteOf v (10 - o)).getLsbD 1 } := by
  simp only [State.semStore, length_bytesOf]
  rw [if_neg (by omega), if_neg (by omega), if_pos ⟨h8, by omega⟩, if_pos ⟨h10, hn⟩, getD_bytesOf v (by omega)]
  exact modSem_congr rfl

/-- Four bytes to POST leave a credit, none for zero. -/
theorem semStore_post : s.semStore t c g 16 (bytesOf v 4)
    = if low32 v = 0 then s else s.localCredit t c g (low32 v).toNat [] := by
  have hzero : (low32 v).toNat = 0 ↔ low32 v = 0 := by rw [← BitVec.toNat_inj]; rfl
  simp [State.semStore, natOfBytes_low32, hzero]

/-- Every other store to the post word sets ERR. -/
theorem semStore_badPost (hn : 0 < n) (h16 : 16 ≤ o) (h20 : o < 20) (h : ¬(o = 16 ∧ n = 4)) :
    s.semStore t c g o (bytesOf v n) = s.modSem t g fun _ => { s.sem t g with err := true } := by
  simp only [State.semStore, length_bytesOf]
  rw [if_neg (show ¬o < 4 by omega), if_neg (show ¬(8 ≤ o ∧ o < 16) by omega), if_pos ⟨h20, by omega⟩, if_neg h]
  exact modSem_congr rfl

/-- Where a store meets neither TARGET nor the post word and does not cover the byte of ERR and OVERSHOOT, it changes nothing
but reservations. -/
theorem semStore_ignored (h : (4 ≤ o ∧ o + n ≤ 16 ∧ ¬(8 ≤ o ∧ o ≤ 10 ∧ 10 < o + n)) ∨ 20 ≤ o) :
    s.semStore t c g o (bytesOf v n) = if 8 ≤ o ∧ o < 16 then s.modSem t g fun _ => s.sem t g else s := by
  simp only [State.semStore, length_bytesOf]
  rw [if_neg (by omega), if_neg (by omega)]
  split
  · rw [if_neg (by omega)]
    exact modSem_congr (by simp)
  · rfl

/-- A store to a semaphore entry is one of its tile's semaphores changed, a credit, or nothing, as far as the harts go. -/
theorem storeFrame_semStore (l : List Byte) : StoreFrame s (s.semStore t c g o l) t c := by
  simp only [State.semStore]
  split
  · exact storeFrame_modSem _ _ _ _ _
  · generalize hu : (if 8 ≤ o ∧ o < 16 then _ else s) = u
    have hflags : StoreFrame s u t c := by
      rw [← hu]
      split
      · exact storeFrame_modSem _ _ _ _ _
      · exact StoreFrame.refl _ _ _
    split
    · split
      · split
        · exact hflags
        · exact hflags.trans (storeFrame_localCredit _ _ _ _ _)
      · exact hflags.trans (storeFrame_modSem _ _ _ _ _)
    · exact hflags

end

/-- A store of the control core keeps the harts' registers, in the scratchpad and in the semaphore block. -/
theorem storeFrame_hartStore (s : State) (t c a : Nat) (l : List Byte) : StoreFrame s (s.hartStore t c a l) t c := by
  unfold State.hartStore
  split
  · exact storeFrame_semStore l
  · exact storeFrame_writeLocal s t c a l (some c)

theorem hartStore_sem {s : State} {t c a g o : Nat} {l : List Byte} (ha : a = semBase + 64 * g + o) (ho : o < 64) :
    s.hartStore t c a l = s.semStore t c g o l := by
  have hg : (a - semBase) / 64 = g := by omega
  have hoff : (a - semBase) % 64 = o := by omega
  rw [State.hartStore, if_pos (by omega), hg, hoff]

theorem semPuts_ignored {s : State} {t c g o n : Nat} {v : W64}
    (h : (4 ≤ o ∧ o + n ≤ 16 ∧ ¬(8 ≤ o ∧ o ≤ 10 ∧ 10 < o + n)) ∨ 20 ≤ o) :
    SemPuts s (s.semStore t c g o (bytesOf v n)) t g (s.sem t g) := by
  rw [semStore_ignored h]
  split
  · exact semPuts_modSem s t g _
  · exact semPuts_refl s t g

/-- Aligned stores of 4 and of 8 bytes to a semaphore entry do what R23 and R24 say. -/
theorem semStored_semStore {s : State} {t c g o n : Nat} {v : W64} (hn : n = 4 ∨ n = 8) (hal : o % n = 0) :
    SemStored s (s.semStore t c g o (bytesOf v n)) t c g o n v := by
  refine ⟨fun h0 => ?_, fun h8 => ?_, fun h16 h => ?_, fun h16 h hv => ?_, fun h0 h8 h => ?_⟩
  · have hw : ∀ i, i < 4 → byteOf (low32 v) i
        = if o ≤ i ∧ i < o + n then byteOf v (i - o) else byteOf (s.sem t g).target i := fun i hi => by
      rw [if_pos (by omega), h0]
      exact byteOf_setWidth v (by omega)
    rw [semStore_target (by omega) hw]
    exact semPuts_modSem s t g _
  · subst h8
    rw [semStore_flags (by omega) (by omega) (by omega) (by omega), getLsbD_byteOf v _ (by omega), getLsbD_byteOf v _ (by omega)]
    exact semPuts_modSem s t g _
  · rw [semStore_badPost (by omega) (by omega) (by omega) (by omega)]
    exact semPuts_modSem s t g _
  · rw [h16, h, semStore_post, if_neg hv]
    exact sends_localCredit s t c g _
  · by_cases hz : o = 16 ∧ n = 4
    · have hv : low32 v = 0 := Decidable.byContradiction fun hne => h ⟨hz.1, .inr hne⟩
      rw [hz.1, hz.2, semStore_post, if_pos hv]
      exact semPuts_refl s t g
    · refine semPuts_ignored ?_
      rcases hn with rfl | rfl
      · omega
      · have : ¬ o = 16 := fun e => h ⟨e, .inl rfl⟩
        omega

end Sys2Proof.Proofs
end

section
/-! PROOFS of the statements of the control core's accesses of the scratchpad: loads (O4), stores (O5, O9), exceptions (O6), atomics
(O7, O8); and of its CSRs (O11). -/

namespace Sys2Proof.Proofs

open Sys2Proof.Machine Sys2Proof.Safety

/-! ### Sizes and places of accesses (R22, R61) -/

theorem sizeOf_cases (sz : BitVec 2) :
    Machine.sizeOf sz = 1 ∨ Machine.sizeOf sz = 2 ∨ Machine.sizeOf sz = 4 ∨ Machine.sizeOf sz = 8 := by
  revert sz
  decide

theorem sizeOf_eq_four {sz : BitVec 2} : Machine.sizeOf sz = 4 ↔ sz = 2 := by
  revert sz
  decide

theorem atomicSize_cases (dbl : Bool) : atomicSize dbl = 4 ∨ atomicSize dbl = 8 := by cases dbl <;> decide

theorem loadSize_pos (op : LoadOp) : 0 < loadSize op := by cases op <;> decide

theorem sizeOf_pos (sz : BitVec 2) : 0 < Machine.sizeOf sz := Nat.two_pow_pos _

theorem sizeOf_dvd (sz : BitVec 2) : Machine.sizeOf sz ∣ 64 := by
  revert sz
  decide

/-- The semaphore entries are aligned: an aligned access is aligned in its entry. -/
theorem offset_aligned {n g o : Nat} (hn : n ∣ 64) (h : (semBase + 64 * g + o) % n = 0) : o % n = 0 := by
  have hentry : n ∣ semBase + 64 * g := Nat.dvd_add (Nat.dvd_trans hn (by decide)) (Nat.dvd_trans hn (Nat.dvd_mul_right 64 g))
  exact Nat.mod_eq_zero_of_dvd ((Nat.dvd_add_right hentry).1 (Nat.dvd_of_mod_eq_zero h))

theorem reaches_aligned {s : State} {t c n : Nat} {a : W64} {r w : Bool} (h : Reaches s t c a n r w) : a.toNat % n = 0 := h.1

/-! ### What the control core does to itself besides -/

section
variable {s u v : State} {t c g : Nat} {x : Sem}

theorem bytesKept_trans (h : BytesKept s u) (k : BytesKept u v) : BytesKept s v := by
  obtain ⟨hmem, hsem, hhost⟩ := h
  obtain ⟨kmem, ksem, khost⟩ := k
  exact ⟨fun a => (kmem a).trans (hmem a), fun y g => (ksem y g).trans (hsem y g), fun a => (khost a).trans (hhost a)⟩

theorem semPuts_modHart (h : SemPuts s u t g x) (d : Nat) (f : Hart → Hart) : SemPuts s (u.modHart t d f) t g x := by
  obtain ⟨hown, hothers, hframe⟩ := h
  exact ⟨(u.sem_modHart _ _ _ _ _).trans hown, fun y k n => (u.sem_modHart _ _ _ _ _).trans (hothers y k n), hframe⟩

theorem othersKept_modHart (h : OthersKept s u t c) (f : Hart → Hart) : OthersKept s (u.modHart t c f) t c := fun y d n => by
  rw [State.hart_modHart_other _ _ n]
  exact h y d n

theorem regsKept_refl (s : State) : RegsKept s s := fun _ _ _ => rfl

theorem regsKept_modHart {f : Hart → Hart} (h : RegsKept s u) (hf : (f (u.hart t c)).x = (u.hart t c).x) :
    RegsKept s (u.modHart t c f) := fun y d q => by
  refine Eq.trans ?_ (h y d q)
  by_cases n : y = t ∧ d = c
  · rw [n.1, n.2, State.getX_modHart, hf]
    rfl
  · rw [State.getX, State.hart_modHart_other _ _ n]
    rfl

theorem regsKept_advance (h : RegsKept s u) : RegsKept s (u.advance t c) := regsKept_modHart h rfl

theorem pc_advance (h : StoreFrame s u t c) : ((u.advance t c).hart t c).pc = (s.hart t c).pc + BitVec.ofNat 64 s.focus.len := by
  rw [State.advance_eq, State.hart_modHart, h.pc, h.focus]

theorem writes_result {rd : BitVec 5} {w : W64} {lat : Nat} (h : RegsKept s u) : Writes s (u.result t c rd w lat) t c rd w :=
  fun q => by rw [State.getX_result, h t c q]

theorem hartKept_advance (h : HartKept (s.hart t c) (u.hart t c)) : HartKept (s.hart t c) ((u.advance t c).hart t c) := by
  rw [State.advance_eq, State.hart_modHart]
  exact h

/-- What a store leaves of the harts, a result after it leaves: rd alone is written. -/
theorem frame_result (h : StoreFrame s u t c) (rd : BitVec 5) (w : W64) (lat : Nat) :
    Writes s (u.result t c rd w lat) t c rd w ∧ OthersKept s (u.result t c rd w lat) t c
      ∧ HartKept (s.hart t c) ((u.result t c rd w lat).hart t c) := by
  refine ⟨writes_result h.regsKept, ?_, ?_⟩
  · rw [State.result_eq]
    exact othersKept_modHart h.othersKept _
  · rw [State.result_eq, State.hart_modHart]
    exact h.hartKept

/-- A message that the hart has sent is not taken back by what it does to itself afterwards. -/
theorem sends_modHart {ticks : Bool} {home : Home} {body : Body} {after : List Nat} {va : W64} {f : Hart → Hart}
    (h : Sends s u t c ticks home body after va) (hf : (f (u.hart t c)).outst = (u.hart t c).outst) :
    Sends s (u.modHart t c f) t c ticks home body after va := by
  obtain ⟨hmsg, hdies, hout, hframe, hbytes⟩ := h
  refine ⟨hmsg, hdies, ?_, ?_, bytesKept_trans hbytes (bytesKept_modHart u t c f)⟩
  · rw [State.hart_modHart, hf]
    exact hout
  · have := congrArg (fun y => y.modHart t c fun _ => f (u.hart t c)) hframe
    rw [State.hart_modHart, ← State.modHart_modHart s t c (fun _ => u.hart t c) fun _ => f (u.hart t c)]
    exact this

/-- Nor does what it did to itself before count. -/
theorem sends_of_modHart {ticks : Bool} {home : Home} {body : Body} {after : List Nat} {va : W64} {f : Hart → Hart}
    (h : Sends (s.modHart t c f) u t c ticks home body after va) : Sends s u t c ticks home body after va := by
  obtain ⟨hmsg, hdies, hout, hframe, hbytes⟩ := h
  rw [State.modHart_modHart] at hframe
  exact ⟨hmsg, hdies, hout, hframe, bytesKept_trans (bytesKept_modHart s t c f) hbytes⟩

theorem semPuts_of_modHart {f : Hart → Hart} (h : SemPuts (s.modHart t c f) u t g x) : SemPuts s u t g x := by
  obtain ⟨hown, hothers, hframe⟩ := h
  exact ⟨hown, fun y k n => (hothers y k n).trans (s.sem_modHart _ _ _ _ _),
    (congrArg (fun y : State => { y with tiles := s.tiles }) hframe :)⟩

theorem semStored_modHart {o n : Nat} {w : W64} {f : Hart → Hart} (h : SemStored s u t c g o n w)
    (hf : (f (u.hart t c)).outst = (u.hart t c).outst) : SemStored s (u.modHart t c f) t c g o n w := by
  obtain ⟨htarget, hflags, hbad, hpost, hrest⟩ := h
  exact ⟨fun h0 => semPuts_modHart (htarget h0) c f, fun h8 => semPuts_modHart (hflags h8) c f,
    fun h16 hn => semPuts_modHart (hbad h16 hn) c f, fun h16 hn hw => sends_modHart (hpost h16 hn hw) hf,
    fun h0 h8 h => semPuts_modHart (hrest h0 h8 h) c f⟩

theorem semStored_of_modHart {o n : Nat} {w : W64} {f : Hart → Hart} (h : SemStored (s.modHart t c f) u t c g o n w) :
    SemStored s u t c g o n w := by
  unfold SemStored at h
  rw [State.sem_modHart] at h
  obtain ⟨htarget, hflags, hbad, hpost, hrest⟩ := h
  exact ⟨fun h0 => semPuts_of_modHart (htarget h0), fun h8 => semPuts_of_modHart (hflags h8),
    fun h16 hn => semPuts_of_modHart (hbad h16 hn), fun h16 hn hw => sends_of_modHart (hpost h16 hn hw),
    fun h0 h8 h => semPuts_of_modHart (hrest h0 h8 h)⟩

theorem stores_of_modHart {a : Nat} {l : List Byte} {f : Hart → Hart} (h : Stores (s.modHart t c f) u t a l) :
    Stores s u t a l := by
  obtain ⟨hlocal, hmem, hsem, hbun, hframe⟩ := h
  refine ⟨fun y b => ?_, hmem, fun y k => (hsem y k).trans (s.sem_modHart _ _ _ _ _),
    fun y d => (hbun y d).trans (s.bun_modHart _ _ _ _ _), (congrArg (fun y : State => { y with tiles := s.tiles }) hframe :)⟩
  rw [hlocal, State.localByte_modHart]

end

/-! ### Loads and stores (R22 to R24, R61) -/

/-- Settles O4: a load that reaches its bytes is a result of 3 cycles. -/
theorem loadWritesRd : Obligations.LoadWritesRd := by
  intro s t c op rd a imm h hr
  refine completes_hart h _ (exec_controlLoad op rd a imm s) rfl ?_
  rw [hartAccess_reaches _ hr]
  exact sets_result s t c rd _ 3

/-- A store that reaches its bytes stores them and passes on. -/
theorem completes_controlStore {s : State} {t c : Nat} {sz : BitVec 2} {a b : BitVec 5} {imm : BitVec 12} {P : State → Prop}
    (h : At s t c) (hr : Reaches s t c (s.getX t c a + imm.signExtend 64) (Machine.sizeOf sz) false true)
    (p : P ((s.hartStore t c (s.getX t c a + imm.signExtend 64).toNat (bytesOf (s.getX t c b) (Machine.sizeOf sz))).advance t c)) :
    Completes (.controlStore sz a b imm) s P :=
  completes_hart h _ (exec_controlStore sz a b imm s) rfl (by rw [hartAccess_reaches _ hr]; exact p)

/-- The bytes of a word stored below the semaphore block. -/
theorem stores_bytesOf (s : State) (t c : Nat) {a n m : Nat} (v : BitVec m) (hend : a + n ≤ semBase) (h0 : 0 < n) :
    Stores s (s.hartStore t c a (bytesOf v n)) t a (bytesOf v n) := by
  have hlen : a + (bytesOf v n).length ≤ semBase := by rw [length_bytesOf]; exact hend
  have hne : bytesOf v n ≠ [] := List.length_pos_iff.1 (by rw [length_bytesOf]; exact h0)
  exact (stores_hartStore hlen hne).1

/-- Settles O5: below the semaphore block a store is a write of the scratchpad, then the pc passes on. -/
theorem storeWritesBytes : Obligations.StoreWritesBytes := by
  intro s t c sz a b imm h hr hb
  have hf := storeFrame_hartStore s t c (s.getX t c a + imm.signExtend 64).toNat (bytesOf (s.getX t c b) (Machine.sizeOf sz))
  have hend := hr.ends (Nat.dvd_trans (sizeOf_dvd sz) (by decide)) hb
  have hs := stores_bytesOf s t c (s.getX t c b) hend (sizeOf_pos sz)
  exact completes_controlStore h hr ⟨stores_modHart hs t c _, regsKept_advance hf.regsKept, othersKept_modHart hf.othersKept _,
    hartKept_advance hf.hartKept, pc_advance hf⟩

/-- A store to a semaphore entry that leaves x there completes with x there and the pc passed on. -/
theorem completes_semStore {s : State} {t c g o : Nat} {sz : BitVec 2} {a b : BitVec 5} {imm : BitVec 12} {x : Sem} (h : At s t c)
    (hr : Reaches s t c (s.getX t c a + imm.signExtend 64) (Machine.sizeOf sz) false true)
    (ha : (s.getX t c a + imm.signExtend 64).toNat = semBase + 64 * g + o) (ho : o < 64)
    (hx : SemPuts s (s.semStore t c g o (bytesOf (s.getX t c b) (Machine.sizeOf sz))) t g x) :
    Completes (.controlStore sz a b imm) s fun u =>
      SemBecomes s u t g x ∧ (u.hart t c).pc = (s.hart t c).pc + BitVec.ofNat 64 s.focus.len := by
  have hf : StoreFrame s _ t c := storeFrame_semStore (g := g) (o := o) (bytesOf (s.getX t c b) (Machine.sizeOf sz))
  obtain ⟨hown, hothers, hframe⟩ := semPuts_modHart hx c fun k => { k with pc := k.pc + BitVec.ofNat 64 _ }
  refine completes_controlStore h hr ?_
  rw [hartStore_sem ha ho]
  exact ⟨⟨hown, hothers, regsKept_advance hf.regsKept, hframe⟩, pc_advance hf⟩

/-- Settles O9: the entry's words one by one, at every size and alignment that reaches them. -/
theorem semaphoreStores : Obligations.SemaphoreStores := by
  intro s t c sz a b imm g o h hr ha ho
  have hal : o % Machine.sizeOf sz = 0 := offset_aligned (sizeOf_dvd sz) (ha ▸ reaches_aligned hr)
  have hsize := sizeOf_cases sz
  refine ⟨fun w ho4 hw => ?_, fun h8 h10 hn => ?_, fun h16 hsz hv => ?_, fun h16 hsz hv => ?_, fun h16 h20 hsz => ?_,
    fun hrest => ?_⟩
  · refine completes_semStore h hr ha ho ?_
    rw [semStore_target ho4 hw]
    exact semPuts_modSem s t g _
  · refine completes_semStore h hr ha ho ?_
    rw [semStore_flags h8 h10 hn (by rcases hsize with e | e | e | e <;> rw [e] at hal ⊢ <;> omega)]
    exact semPuts_modSem s t g _
  · subst h16 hsz
    refine completes_controlStore h hr ?_
    rw [hartStore_sem ha ho, sizeOf_eq_four.2 rfl, semStore_post, if_pos hv]
    exact passes_advance s t c
  · subst h16 hsz
    refine completes_controlStore h hr ?_
    rw [hartStore_sem ha ho, sizeOf_eq_four.2 rfl, semStore_post, if_neg hv]
    have hf := storeFrame_localCredit s t c g (low32 (s.getX t c b)).toNat
    refine ⟨sends_modHart (sends_localCredit s t c g _) rfl, ⟨pc_advance hf, hartKept_advance hf.hartKept, ?_⟩,
      regsKept_advance hf.regsKept⟩
    rw [State.advance_eq, State.hart_modHart, hart_localCredit]
  · refine completes_semStore h hr ha ho ?_
    rw [semStore_badPost (sizeOf_pos sz) h16 h20 fun e => hsz ⟨e.1, sizeOf_eq_four.1 e.2⟩]
    exact semPuts_modSem s t g _
  · refine completes_semStore h hr ha ho (semPuts_ignored ?_)
    rcases hsize with e | e | e | e <;> rw [e] at hal hrest ⊢ <;> omega

/-! ### Exceptions of accesses (R22, R61, R341) -/

/-- Where the control core does not reach: above the scratchpad, or below the semaphore block outside the launch's carves. -/
theorem hartReaches_outside {s : State} {t c n : Nat} {a : W64} (hn : 0 < n)
    (h : 0x400000 ≤ a.toNat ∨ (a.toNat < semBase ∧ s.inLaunchCarves (s.ctx t c).launch t a.toNat n = false)) :
    s.hartReaches t c a n = false := by
  unfold State.hartReaches
  rcases h with habove | ⟨hbelow, hcarves⟩
  · rw [decide_eq_false (show ¬ a.toNat + n ≤ 0x400000 by omega), Bool.false_and]
  · rw [decide_eq_false (Nat.not_le.2 hbelow), hcarves, Bool.or_false, Bool.and_false]

/-- An access that is misaligned takes its first exception, one that is aligned and outside its second. -/
theorem access_traps {s : State} {t c n : Nat} {i : Instr} {a : W64} (mis : Nat) {rd wr : Bool} {g : State → State}
    (h : At s t c) (hr : Running s t c) (f : Nat → Nat → State → State) (e : exec i s = s.hartDo i f)
    (w : wellFormed i = true)
    (hf : f t c s = s.hartAccess t c a n mis rd wr g) (hn : 0 < n) :
    (a.toNat % n ≠ 0 → Completes i s fun u => Traps s u t c mis a)
      ∧ (a.toNat % n = 0 →
          0x400000 ≤ a.toNat ∨ (a.toNat < semBase ∧ s.inLaunchCarves (s.ctx t c).launch t a.toNat n = false) →
          Completes i s fun u => Traps s u t c (mis + 1) a) := by
  refine ⟨fun ha => completes_hart h f e w ?_, fun ha ho => completes_hart h f e w ?_⟩
  · rw [hf, State.hartAccess_misaligned g ha]
    exact traps_raise h hr mis a
  · rw [hf, State.hartAccess_outside g ha (hartReaches_outside hn ho)]
    exact traps_raise h hr (mis + 1) a

/-- Settles O6: every access of the control core is one hartAccess, which checks alignment, then place. -/
theorem accessTraps : Obligations.AccessTraps := by
  intro s t c h hr
  refine ⟨fun op rd a imm p hp => ?_, fun sz a b imm p hp => ?_, fun dbl aq rl rd a b op p hp => ?_⟩
  · subst hp
    exact access_traps 4 h hr _ (exec_controlLoad op rd a imm s) rfl rfl (loadSize_pos op)
  · subst hp
    exact access_traps 6 h hr _ (exec_controlStore sz a b imm s) rfl rfl (sizeOf_pos sz)
  · subst hp
    have hn : 0 < atomicSize dbl := by rcases atomicSize_cases dbl with e | e <;> rw [e] <;> omega
    have hlr := access_traps 4 h hr _ (exec_lr dbl aq rl rd a s) rfl rfl hn
    have hsc := access_traps 6 h hr _ (exec_sc dbl aq rl rd a b s) rfl rfl hn
    have hamo := access_traps 6 h hr _ (exec_controlAmo op dbl aq rl rd a b s) rfl rfl hn
    exact ⟨fun k => ⟨hlr.1 k, hsc.1 k, hamo.1 k⟩, fun k o => ⟨hlr.2 k o, hsc.2 k o, hamo.2 k o⟩⟩

/-! ### Atomics (R61) -/

/-- A result of a hart that changed something of itself first: nothing but the hart has changed. -/
theorem onlyHart_result (s : State) (t c : Nat) (f : Hart → Hart) (rd : BitVec 5) (w : W64) (lat : Nat) :
    OnlyHart s ((s.modHart t c f).result t c rd w lat) t c ∧ BytesKept s ((s.modHart t c f).result t c rd w lat) := by
  rw [State.result_eq, State.modHart_modHart]
  exact ⟨onlyHart_modHart s t c _, bytesKept_modHart s t c _⟩

theorem hart_modHart_result (s : State) (t c : Nat) (f : Hart → Hart) (rd : BitVec 5) (w : W64) (lat : Nat) :
    ((s.modHart t c f).result t c rd w lat).hart t c = { f (s.hart t c) with
      x := if rd = 0 then (f (s.hart t c)).x else tabPut (f (s.hart t c)).x rd.toNat w,
      regAt := if rd = 0 then (f (s.hart t c)).regAt
        else tabPut (f (s.hart t c)).regAt rd.toNat (((s.modHart t c f).tile t).clk + lat),
      pc := (f (s.hart t c)).pc + BitVec.ofNat 64 s.focus.len } := by
  rw [State.result_eq, State.hart_modHart, State.hart_modHart]
  rfl

theorem reservation_result (u : State) (t c : Nat) (rd : BitVec 5) (w : W64) (lat : Nat) :
    ((u.result t c rd w lat).hart t c).reservation = (u.hart t c).reservation := by
  rw [State.result_eq, State.hart_modHart]

/-- Where a store of 4 or 8 bytes before a result goes: below the semaphore block its bytes, else the semaphore entry. -/
theorem placed_result (s : State) (t c : Nat) {a n : Nat} (v : W64) (rd : BitVec 5) (y : W64) (lat : Nat) (hn : n = 4 ∨ n = 8)
    (hal : a % n = 0) (hend : a < semBase → a + n ≤ semBase) :
    let u := (s.hartStore t c a (bytesOf v n)).result t c rd y lat
    (a < semBase → Stores s u t a (bytesOf v n))
      ∧ ∀ g o, a = semBase + 64 * g + o → o < 64 → SemStored s u t c g o n v := by
  refine ⟨fun hb => ?_, fun g o ha ho => ?_⟩
  · rw [State.result_eq]
    exact stores_modHart (stores_bytesOf s t c v (hend hb) (by omega)) t c _
  · have hoff : o % n = 0 := offset_aligned (by rcases hn with rfl | rfl <;> decide) (ha ▸ hal)
    rw [hartStore_sem ha ho, State.result_eq]
    exact semStored_modHart (semStored_semStore hn hoff) rfl

/-- An aligned access of 4 or 8 bytes that begins below the semaphore block ends there. -/
theorem reaches_ends {s : State} {t c n : Nat} {a : W64} {r w : Bool} (hr : Reaches s t c a n r w) (hn : n = 4 ∨ n = 8) :
    a.toNat < semBase → a.toNat + n ≤ semBase := hr.ends (by rcases hn with rfl | rfl <;> decide)

/-- The hart gives its reservation up. -/
def noReservation (h : Hart) : Hart := { h with reservation := none }

theorem storeFrame_noReservation (s : State) (t c : Nat) : StoreFrame s (s.modHart t c noReservation) t c := by
  refine ⟨fun x d n => ?_, ?_, fun _ => ?_, rfl⟩
  · rw [State.hart_modHart_other _ _ n]
  · rw [State.hart_modHart]
    rfl
  · rw [State.hart_modHart]
    rfl

/-- SC by whether the hart holds the reservation of the line. -/
theorem completes_sc {s : State} {t c : Nat} {dbl aq rl : Bool} {rd a b : BitVec 5} {P : State → Prop} (h : At s t c)
    (hr : Reaches s t c (s.getX t c a) (atomicSize dbl) false true)
    (p : P (if decide ((s.hart t c).reservation = some ((s.getX t c a).toNat / 64)) then
        ((s.modHart t c noReservation).hartStore t c (s.getX t c a).toNat
          (bytesOf (s.getX t c b) (atomicSize dbl))).result t c rd 0 3
      else (s.modHart t c noReservation).result t c rd 1 3)) :
    Completes (.sc dbl aq rl rd a b) s P := by
  refine completes_hart h _ (exec_sc dbl aq rl rd a b s) rfl ?_
  rw [hartAccess_reaches _ hr]
  exact p

/-- Settles O7: LR is a result with the reservation set; SC gives the reservation up, then stores or not. -/
theorem loadReserveStoreConditional : Obligations.LoadReserveStoreConditional := by
  intro s t c dbl aq rl rd a h
  refine ⟨fun hr => ?_, fun b hr => ⟨fun hres => ?_, fun hres => ?_⟩⟩
  · refine completes_hart h _ (exec_lr dbl aq rl rd a s) rfl ?_
    obtain ⟨hone, hbytes⟩ := onlyHart_result s t c (fun k => { k with reservation := some (lineOf (s.getX t c a).toNat) }) rd
      (signOf (atomicSize dbl) (s.localBytes t (s.getX t c a).toNat (atomicSize dbl))) 3
    rw [hartAccess_reaches _ hr, hart_modHart_result]
    exact ⟨rfl, writes_result (regsKept_modHart (regsKept_refl s) rfl), hone, ⟨rfl, rfl, rfl, rfl, rfl, rfl⟩, hbytes⟩
  · refine completes_sc h hr ?_
    rw [if_pos (decide_eq_true hres)]
    have hn := atomicSize_cases dbl
    have hf := storeFrame_hartStore (s.modHart t c noReservation) t c (s.getX t c a).toNat
      (bytesOf (s.getX t c b) (atomicSize dbl))
    obtain ⟨hstores, hsem⟩ := placed_result (s.modHart t c noReservation) t c (s.getX t c b) rd 0 3 hn (reaches_aligned hr)
      (reaches_ends hr hn)
    obtain ⟨hwrites, hothers, hkept⟩ := frame_result ((storeFrame_noReservation s t c).trans hf) rd 0 3
    refine ⟨fun hb => stores_of_modHart (hstores hb), fun g o ha ho => semStored_of_modHart (hsem g o ha ho), fun q => ?_, ?_,
      hothers, hkept⟩
    · rw [hwrites q]
      by_cases hq : q = 0
      · rw [if_pos hq, hq, State.getX_zero, ite_self]
      · rw [if_neg hq]
    · rw [reservation_result]
      exact hf.noReservation (by rw [State.hart_modHart]; rfl)
  · refine completes_sc h hr ?_
    obtain ⟨hone, hbytes⟩ := onlyHart_result s t c noReservation rd 1 3
    rw [if_neg (by simpa using hres), hart_modHart_result]
    exact ⟨writes_result (regsKept_modHart (regsKept_refl s) rfl), rfl, hone, ⟨rfl, rfl, rfl, rfl, rfl, rfl⟩, hbytes⟩

theorem signOf_four (l : List Byte) : signOf 4 l = (wordOf 32 l).signExtend 64 := by
  rw [signOf, if_neg (by decide), if_pos rfl]

/-- An AMO of a word stores the new one and gives rd the old one, sign-extended. -/
theorem completes_amoWord {s : State} {t c : Nat} {op : AmoOp} {aq rl : Bool} {rd a b : BitVec 5} {P : State → Prop} {old : W32}
    (h : At s t c) (hr : Reaches s t c (s.getX t c a) 4 true true) (hold : old = wordOf 32 (s.localBytes t (s.getX t c a).toNat 4))
    (p : P ((s.hartStore t c (s.getX t c a).toNat (bytesOf ((amoEval op old (low32 (s.getX t c b))).setWidth 64) 4)).result t c rd
      (old.signExtend 64) 3)) :
    Completes (.controlAmo op false aq rl rd a b) s P := by
  refine completes_hart h _ (exec_controlAmo op false aq rl rd a b s) rfl ?_
  rw [hartAccess_reaches (n := atomicSize false) _ hr]
  rw [bytesOf_setWidth _ (by decide), hold, ← signOf_four] at p
  exact p

/-- An AMO of a doubleword stores the new one and gives rd the old one. -/
theorem completes_amoDouble {s : State} {t c : Nat} {op : AmoOp} {aq rl : Bool} {rd a b : BitVec 5} {P : State → Prop} {old : W64}
    (h : At s t c) (hr : Reaches s t c (s.getX t c a) 8 true true) (hold : old = wordOf 64 (s.localBytes t (s.getX t c a).toNat 8))
    (p : P ((s.hartStore t c (s.getX t c a).toNat (bytesOf (amoEval op old (s.getX t c b)) 8)).result t c rd old 3)) :
    Completes (.controlAmo op true aq rl rd a b) s P := by
  refine completes_hart h _ (exec_controlAmo op true aq rl rd a b s) rfl ?_
  rw [hartAccess_reaches (n := atomicSize true) _ hr]
  rw [hold] at p
  exact p

/-- Settles O8: an AMO is a store of the new value, then a result of the old one. -/
theorem amoReadsAndWrites : Obligations.AmoReadsAndWrites := by
  intro s t c op aq rl rd a b h
  refine ⟨fun old hold hr => ?_, fun old hold hr => ?_⟩
  · refine completes_amoWord h hr hold ?_
    obtain ⟨hstores, hsem⟩ := placed_result s t c ((amoEval op old (low32 (s.getX t c b))).setWidth 64) rd (old.signExtend 64) 3
      (.inl rfl) (reaches_aligned hr) (reaches_ends hr (.inl rfl))
    refine ⟨fun hb => ?_, hsem, frame_result (storeFrame_hartStore s t c _ _) rd (old.signExtend 64) 3⟩
    have hst := hstores hb
    rw [bytesOf_setWidth _ (by decide)] at hst ⊢
    exact hst
  · refine completes_amoDouble h hr hold ?_
    obtain ⟨hstores, hsem⟩ := placed_result s t c (amoEval op old (s.getX t c b)) rd old 3 (.inr rfl) (reaches_aligned hr)
      (reaches_ends hr (.inr rfl))
    exact ⟨hstores, hsem, frame_result (storeFrame_hartStore s t c _ _) rd old 3⟩

/-! ### CSRs (R18, R66) -/

/-- A write of a CSR sets the bits that its row defines, of that CSR only (R66). -/
theorem csrSet_eq (h : Hart) (csr : BitVec 12) (v : W64) : h.csrSet csr v = { h with
    fhandler := if csr = 0x800 then v &&& 0xFFFE else h.fhandler
    fepc := if csr = 0x801 then v &&& 0xFFFE else h.fepc
    faddr := if csr = 0x802 then v else h.faddr
    fin := if csr = 0x803 then v.getLsbD 0 else h.fin
    fpcw := if csr = 0x810 then low32 v &&& 0x00011F07 else h.fpcw
    fflags := if csr = 0x811 then v.extractLsb' 0 5 else h.fflags } := by
  have hnum (k : BitVec 12) : csr = k ↔ csr.toNat = k.toNat := BitVec.toNat_inj.symm
  simp only [hnum, Hart.csrSet]
  split <;> simp_all [fpcwBits]

section
variable {s : State} {t c : Nat} {op : CsrOp} {csr : BitVec 12} {rd rs : BitVec 5} {old v : W64}

theorem csrOp_reads (hread : s.csrRead t c csr = some old) (hnew : csrNew op old (s.csrSrc t c op rs) rs = none) :
    s.csrOp t c op csr rd rs = s.result t c rd old 1 := by
  simp only [State.csrOp, hread, hnew]

theorem csrOp_writes (hread : s.csrRead t c csr = some old) (hnew : csrNew op old (s.csrSrc t c op rs) rs = some v)
    (hw : csrWritable csr = true) :
    s.csrOp t c op csr rd rs = (s.modHart t c fun h => h.csrSet csr v).result t c rd old 1 := by
  simp only [State.csrOp, hread, hnew, if_pos hw]

end

/-- Settles O11: a form that writes nothing is a result; one that writes sets the CSR of its hart first. -/
theorem csrReadsAndWrites : Obligations.CsrReadsAndWrites := by
  intro s t c csr rd old h hread
  refine ⟨?_, fun op rs hwf => ⟨fun hnew => ?_, fun v hnew hw => ?_⟩⟩
  · refine completes_hart h _ (exec_csrr csr rd s) rfl ?_
    rw [csrOp_reads hread rfl]
    exact sets_result s t c rd old 1
  · refine completes_hart h _ (exec_csrWrite op csr rd rs s) hwf ?_
    rw [csrOp_reads hread hnew]
    exact sets_result s t c rd old 1
  · refine completes_hart h _ (exec_csrWrite op csr rd rs s) hwf ?_
    rw [csrOp_writes hread hnew hw]
    have hx : ((s.hart t c).csrSet csr v).x = (s.hart t c).x := by rw [csrSet_eq]
    rw [hart_modHart_result, csrSet_eq]
    exact ⟨writes_result (regsKept_modHart (regsKept_refl s) hx), rfl, rfl, rfl, rfl, rfl, rfl, rfl, onlyHart_result ..⟩

end Sys2Proof.Proofs
end

section
/-! PROOFS of the statement of the parcels (O30): a draw at the distributor, and how a blocking instruction ends or blocks. -/

namespace Sys2Proof.Proofs

open Sys2Proof.Machine Sys2Proof.Safety

/-! ### How a blocking instruction ends or blocks (R63, R79, R358) -/

/-- An instruction that ends leaves its result, and a hart that is not blocked. -/
theorem ends_endWait (s : State) (t c : Nat) (rd : BitVec 5) (v : W64) : Ends s (s.endWait t c rd v) t c rd v := by
  unfold State.endWait State.unblock
  obtain ⟨honly, hbytes⟩ := onlyHart_result s t c (fun h => { h with wait := none, abandoned := false, savedDeadline := none }) rd v
    (if (s.hart t c).wait.isSome then 0 else 1)
  refine ⟨writes_result (regsKept_modHart (regsKept_refl s) rfl), ?_, ?_, honly, hbytes⟩
  · rw [Advances, hart_modHart_result]
    exact ⟨rfl, ⟨rfl, rfl, rfl, rfl, rfl, rfl⟩, rfl⟩
  · rw [hart_modHart_result]

/-- An update of a hart is what it makes of the hart as it stands. -/
theorem modHart_congr {s : State} {t c : Nat} {f g : Hart → Hart} (h : f (s.hart t c) = g (s.hart t c)) :
    s.modHart t c f = s.modHart t c g :=
  congrArg (fun k => s.setCtx t c { s.ctx t c with hart := k }) h

/-- A hart that is not blocked begins to wait. -/
theorem block_eq {s : State} {t c : Nat} (hw : (s.hart t c).wait = none) (what : WaitFor) (i : Instr) (timeout : Nat) :
    s.block t c what i timeout = s.modHart t c fun h => { h with
      wait := some { what := what, instr := i, len := s.focus.len, deadline := h.newDeadline s.now timeout, since := s.now,
                     reported := 0 },
      abandoned := false, savedDeadline := none } :=
  modHart_congr (by simp only [hw])

theorem blocks_block {s : State} {t c : Nat} (hw : (s.hart t c).wait = none) (what : WaitFor) (i : Instr) (timeout : Nat) :
    Blocks s (s.block t c what i timeout) t c what i timeout := by
  rw [block_eq hw, Blocks, State.hart_modHart]
  exact ⟨⟨_, rfl, rfl, rfl, rfl⟩, modHart_congr rfl, bytesKept_modHart s t c _⟩

/-! ### A draw (R291, R292) -/

/-- The flag hungry is all of the distributor that a change of a queue's length may set or clear. -/
theorem settle_eq (p : Parcels) (t : Nat) : p.settle t = { p with hungry := (p.settle t).hungry } := by
  unfold Parcels.settle
  dsimp only
  split
  · rfl
  · split <;> rfl

theorem queue_settle (p : Parcels) (t x : Nat) : (p.settle t).queue x = p.queue x := by
  rw [settle_eq]
  rfl

theorem queue_setQueue (p : Parcels) (t x : Nat) (l : List Nat) :
    (p.setQueue t l).queue x = if x = t then l else p.queue x := tabGet_put _ _ _ _ _

section
variable {p : Parcels} {t n : Nat} {l : List Nat}

theorem draw_nil (h : p.queue t = []) : p.draw t = (p, none) := by
  simp only [Parcels.draw, h]

/-- A draw takes the front of its own queue and counts it. -/
theorem draw_cons (h : p.queue t = n :: l) :
    ∃ p', p.draw t = (p', some n) ∧ p'.drawn = p.drawn + 1 ∧ p'.queue t = l ∧ p'.next = p.next ∧ p'.total = p.total
      ∧ ∀ x, x ≠ t → p'.queue x = p.queue x := by
  simp only [Parcels.draw, h]
  refine ⟨_, rfl, ?_, ?_, ?_, ?_, fun x hx => ?_⟩
  · rw [settle_eq]
    rfl
  · rw [queue_settle, queue_setQueue, if_pos rfl]
  · rw [settle_eq]
    rfl
  · rw [settle_eq]
    rfl
  · rw [queue_settle, queue_setQueue, if_neg hx]
    rfl

end

/-! ### k.parcel by the distributor's state (R40, R92) -/

section
variable {s : State} {t c n : Nat} {rd : BitVec 5} {p p' : Parcels} {P : State → Prop}

theorem completes_kParcel_noSpace (h : At s t c) (hp : s.parcelsOf (s.ctx t c).launch = none)
    (post : P (s.endWait t c rd (BitVec.allOnes 64))) : Completes (.kParcel rd) s P := by
  refine completes_hart h _ (exec_kParcel rd s) rfl ?_
  simp only [hp]
  exact post

theorem completes_kParcel_held (h : At s t c) (hp : s.parcelsOf (s.ctx t c).launch = some p) (held : t ∈ s.holding)
    (post : P (s.block t c .parcel (.kParcel rd) 0)) : Completes (.kParcel rd) s P := by
  refine completes_hart h _ (exec_kParcel rd s) rfl ?_
  simp only [hp, if_pos (List.contains_iff_mem.2 held)]
  exact post

theorem completes_kParcel_drawn (h : At s t c) (hp : s.parcelsOf (s.ctx t c).launch = some p) (free : ¬ t ∈ s.holding)
    (hd : p.draw t = (p', some n))
    (post : P ((s.setParcels (s.ctx t c).launch p').endWait t c rd (BitVec.ofNat 64 n))) : Completes (.kParcel rd) s P := by
  refine completes_hart h _ (exec_kParcel rd s) rfl ?_
  simp only [hp, if_neg (mt List.contains_iff_mem.1 free), hd]
  exact post

theorem completes_kParcel_empty (h : At s t c) (hp : s.parcelsOf (s.ctx t c).launch = some p) (free : ¬ t ∈ s.holding)
    (hq : p.queue t = [])
    (post : P (if p.drawn = p.total then s.endWait t c rd (BitVec.allOnes 64) else s.block t c .parcel (.kParcel rd) 0)) :
    Completes (.kParcel rd) s P := by
  refine completes_hart h _ (exec_kParcel rd s) rfl ?_
  simp only [hp, if_neg (mt List.contains_iff_mem.1 free), draw_nil hq]
  exact post

end

/-- Settles O30: k.parcel by whether there is a parcel space, the tile is held, its queue is empty; k.pinfo is a result of one
cycle. -/
theorem parcelsDrawn : Obligations.ParcelsDrawn := by
  intro s t c rd h
  refine ⟨fun hp => ?_, fun p hp held hw => ?_, fun p hp free => ⟨fun n l hq => ?_, fun hq hall => ?_, fun hq hleft hw => ?_⟩,
    fun sel a => ?_⟩
  · exact completes_kParcel_noSpace h hp (ends_endWait s t c rd _)
  · exact completes_kParcel_held h hp held (blocks_block hw _ _ _)
  · obtain ⟨p', hd, hcount⟩ := draw_cons hq
    refine completes_kParcel_drawn h hp free hd ?_
    obtain ⟨hwrites, hadv, hwait, honly, hbytes⟩ :=
      ends_endWait (s.setParcels (s.ctx t c).launch p') t c rd (BitVec.ofNat 64 n)
    generalize (s.setParcels (s.ctx t c).launch p').endWait t c rd (BitVec.ofNat 64 n) = u at *
    have hparcels : u.parcelsOf (s.ctx t c).launch = some p' := by
      rw [honly]
      exact tabGet?_put_same _ _ _
    exact ⟨hwrites, hadv, hwait, ⟨p', hparcels, hcount⟩, (congrArg (fun v : State => { v with parcels := u.parcels }) honly :),
      hbytes⟩
  · refine completes_kParcel_empty h hp free hq ?_
    rw [if_pos hall]
    exact ends_endWait s t c rd _
  · refine completes_kParcel_empty h hp free hq ?_
    rw [if_neg hleft]
    exact blocks_block hw _ _ _
  · exact completes_hart h _ (exec_kPinfo sel rd a s) rfl (sets_result s t c rd _ 1)

end Sys2Proof.Proofs
end

section
/-! PROOFS of the statement of the illegal instructions and of the traps of the environment (O12). -/

namespace Sys2Proof.Proofs

open Sys2Proof.Machine Sys2Proof.Safety

/-- The trap of an illegal instruction: cause 2 with the instruction's word (R61, R68). -/
def IllegalTrap (s : State) (t c : Nat) (u : State) : Prop := Traps s u t c 2 ((s.pcWord t c).setWidth 64)

section
variable {s : State} {t c : Nat} {i : Instr}

theorem illegalTrap_illegal (h : At s t c) (hr : Running s t c) : IllegalTrap s t c (s.illegal t c) :=
  traps_raise h hr 2 _

/-- Operand codes that the maps reserve trap, whatever the instruction would do. -/
theorem completes_reserved (h : At s t c) (hr : Running s t c) (f : Nat → Nat → State → State) (e : exec i s = s.hartDo i f)
    (w : wellFormed i = false) : Completes i s (IllegalTrap s t c) :=
  completes_illegal h f e w (illegalTrap_illegal h hr)

/-- An instruction traps whose meaning is an illegal instruction, whether its operand codes are legal or not. -/
theorem completes_meansIllegal (h : At s t c) (hr : Running s t c) (f : Nat → Nat → State → State) (e : exec i s = s.hartDo i f)
    (hf : f t c s = s.illegal t c) : Completes i s (IllegalTrap s t c) := by
  have htrap := illegalTrap_illegal h hr
  cases w : wellFormed i with
  | false => exact completes_illegal h f e w htrap
  | true => exact completes_hart h f e w (hf ▸ htrap)

end

section
variable {s : State} {t c : Nat} {op : CsrOp} {csr : BitVec 12} {rd rs : BitVec 5}

theorem csrOp_absent (hread : s.csrRead t c csr = none) : s.csrOp t c op csr rd rs = s.illegal t c := by
  simp only [State.csrOp, hread]

theorem csrOp_readOnly {old v : W64} (hread : s.csrRead t c csr = some old)
    (hnew : csrNew op old (s.csrSrc t c op rs) rs = some v) (hw : csrWritable csr = false) :
    s.csrOp t c op csr rd rs = s.illegal t c := by
  simp only [State.csrOp, hread, hnew, hw, Bool.false_eq_true, if_false]

end

/-- Settles O12: an operand code that a map reserves fails the check of the operands; the others mean an exception. -/
theorem illegalAndEnvironmentTraps : Obligations.IllegalAndEnvironmentTraps := by
  intro s t c h hr
  refine ⟨fun csr rd hread => ?csrr, fun op csr rd rs hread => ?csrWrite, fun op csr rd rs old v hread hnew hw => ?readOnly,
    ?wfi, fun w => ?unlisted, fun sz sc spad a b hw => ?acquireRelease, fun op sc spad rd a b hw => ?atomics,
    fun sc a b hw => ?fencePostPut, fun q rd a b hw => ?queues, fun sc rd a b hw => ?bar, fun sc rd a b hw => ?barriers,
    ?mfence, ?pause, ?ebreak, fun ha => ?ecall⟩
  case csrr => exact completes_meansIllegal h hr _ (exec_csrr csr rd s) (csrOp_absent hread)
  case csrWrite => exact completes_meansIllegal h hr _ (exec_csrWrite op csr rd rs s) (csrOp_absent hread)
  case readOnly => exact completes_meansIllegal h hr _ (exec_csrWrite op csr rd rs s) (csrOp_readOnly hread hnew hw)
  case wfi => exact completes_meansIllegal h hr _ (exec_wfi s) rfl
  case unlisted => exact completes_meansIllegal h hr _ (exec_illegalInstruction w s) rfl
  case acquireRelease =>
    exact ⟨completes_reserved h hr _ (by rw [exec_kLda, execKLda]) hw, completes_reserved h hr _ (exec_kStl sz sc spad a b s) hw⟩
  case atomics =>
    exact ⟨completes_reserved h hr _ (by rw [exec_kAmoW, execKAmoW, State.kAmo]) hw,
      completes_reserved h hr _ (by rw [exec_kAmoD, execKAmoD, State.kAmo]) hw⟩
  case fencePostPut =>
    exact ⟨completes_reserved h hr _ (exec_kFence sc s) hw, completes_reserved h hr _ (exec_kSpost sc a b s) hw,
      completes_reserved h hr _ (exec_kFput sc a b s) hw⟩
  case queues =>
    exact ⟨completes_reserved h hr _ (exec_kTlwait q rd a b s) hw, completes_reserved h hr _ (exec_kTlread q rd s) hw,
      completes_reserved h hr _ (exec_kQstat q rd s) hw⟩
  case bar => exact completes_reserved h hr _ (exec_kBar sc rd a b s) hw
  case barriers =>
    exact ⟨completes_reserved h hr _ (exec_kBarw sc rd a b s) hw, completes_reserved h hr _ (exec_kClosure sc rd a s) hw⟩
  case mfence => exact completes_reserved h hr _ (exec_kMfence 0 s) (by decide)
  case pause => exact completes_reserved h hr _ (exec_kPause 0 s) (by decide)
  case ebreak => exact completes_hart h _ (exec_ebreak s) rfl (traps_raise h hr 3 _)
  case ecall =>
    refine completes_hart h _ (exec_ecall s) rfl ?_
    rw [if_neg ha]
    exact traps_raise h hr 8 0

end Sys2Proof.Proofs
end

section
/-! PROOFS of the parts of the launch unit's statement (O47) about its queues: doorbells, validation, the blocking head, TLARM,
QOWN. -/

namespace Sys2Proof.Proofs

open Sys2Proof.Machine Sys2Proof.Safety

/-! ### What the launch unit's bookkeeping leaves -/

/-- Queues, pages, parcel spaces, power limits, messages and what is still to be done may have changed; tiles, memory, launches
and everything else are what they were. -/
def Bookkeeping (s u : State) : Prop :=
  { u with
    queues := s.queues, pages := s.pages, parcels := s.parcels, cls := s.cls, limits := s.limits, net := s.net, nextId := s.nextId,
    dies := s.dies, agenda := s.agenda } = s

namespace Bookkeeping

variable {s u v : State}

theorem refl (s : State) : Bookkeeping s s := rfl

theorem trans (h : Bookkeeping s u) (k : Bookkeeping u v) : Bookkeeping s v :=
  (congrArg (fun y : State => { y with
    queues := s.queues, pages := s.pages, parcels := s.parcels, cls := s.cls, limits := s.limits, net := s.net,
    nextId := s.nextId, dies := s.dies, agenda := s.agenda }) k :).trans h

theorem tiles (h : Bookkeeping s u) : u.tiles = s.tiles := (congrArg State.tiles h :)
theorem mem (h : Bookkeeping s u) : u.mem = s.mem := (congrArg State.mem h :)
theorem launches (h : Bookkeeping s u) : u.launches = s.launches := (congrArg State.launches h :)
theorem nextLaunch (h : Bookkeeping s u) : u.nextLaunch = s.nextLaunch := (congrArg State.nextLaunch h :)

end Bookkeeping

theorem bookkeeping_send (s : State) (d : Nat) (h : Home) (b : Body) (l : List Nat) (o : Option (Nat × Nat)) (va : W64) :
    Bookkeeping s (s.send d h b l o va).1 := by
  unfold State.send
  split <;> rfl

theorem bookkeeping_setStatus (s : State) (q m low nzx state code : Nat) : Bookkeeping s (s.setStatus q m low nzx state code) := by
  unfold State.setStatus
  split <;> rfl

theorem bookkeeping_writeStatusWord (s : State) (x : QRec) (code : Nat) : Bookkeeping s (s.writeStatusWord x code) := by
  unfold State.writeStatusWord
  split
  · exact Bookkeeping.refl s
  · exact bookkeeping_send ..

theorem bookkeeping_dropHead (s : State) (q : Nat) : Bookkeeping s (s.dropHead q) := rfl

theorem bookkeeping_setClass (s : State) : Bookkeeping s s.setClass := by
  unfold State.setClass
  dsimp only
  split <;> split <;> rfl

theorem bookkeeping_checkTlarm (s : State) (q : Nat) : Bookkeeping s (s.checkTlarm q) := by
  unfold State.checkTlarm
  dsimp only
  split <;> rfl

theorem wantAttempt_eq (s : State) : ∃ w, s.wantAttempt = { s with agenda := w } := by
  unfold State.wantAttempt
  dsimp only
  split
  · exact ⟨_, rfl⟩
  · exact ⟨_, rfl⟩

theorem bookkeeping_wantAttempt (s : State) : Bookkeeping s s.wantAttempt := by
  obtain ⟨w, h⟩ := wantAttempt_eq s
  rw [h]
  rfl

/-! ### Doorbells (R158, R329) -/

section
variable {s : State} {f q : Nat}

theorem queueRoom_eq_zero {x : LQueue} : queueRoom x = 0 ↔ 64 ≤ x.recs.length := by
  unfold queueRoom
  omega

theorem exec_doorbell_inBoot (h : s.boot ≠ .running) : exec (.doorbell f q) s = .next s := by
  rw [exec_doorbell, execDoorbell, if_pos h]

theorem exec_doorbell_full (h : s.boot = .running) (hq : 64 ≤ (s.queue q).recs.length) :
    exec (.doorbell f q) s = .next (s.modQueue q fun y => { y with drops := y.drops + 1 }) := by
  rw [exec_doorbell, execDoorbell, if_neg (Decidable.not_not.2 h), if_pos (queueRoom_eq_zero.2 hq)]

theorem exec_doorbell_enters (h : s.boot = .running) (hq : (s.queue q).recs.length < 64) :
    exec (.doorbell f q) s
      = .next (s.enterRecord q (s.queue q).stage (s.dieClock 8) [] none (decide (f ≤ 16))) := by
  rw [exec_doorbell, execDoorbell, if_neg (Decidable.not_not.2 h), if_neg (mt queueRoom_eq_zero.1 (Nat.not_le.2 hq))]

end

/-- The record that enters a queue: at the front it begins to be head now. -/
def entering (s : State) (q : Nat) (r : LaunchRec) (clock : Clock) (after : List Nat) (status : Option (Nat × Nat))
    (fromHost : Bool) : QRec :=
  { record := r, m := (s.queue q).entered.toNat, clock := clock, after := after, status := status, fromHost := fromHost,
    headt := if (s.queue q).recs.isEmpty then some s.now else none, valid := false, blocking := false }

theorem queue_enterRecord (s : State) (q : Nat) (r : LaunchRec) (clock : Clock) (after : List Nat) (status : Option (Nat × Nat))
    (fromHost : Bool) :
    (s.enterRecord q r clock after status fromHost).queue q = { s.queue q with
      entered := (s.queue q).entered + 1
      recs := (s.queue q).recs ++ [entering s q r clock after status fromHost]
      status := tabPut (s.queue q).status ((s.queue q).entered.toNat % 64)
        (statusEntry 0xFFFFFFFF 0 (s.queue q).entered.toNat 0 0) } :=
  State.queue_modQueue s q _

/-! ### Validation and the head of a queue (R48, R329) -/

section
variable {s : State} {q : Nat} {x : QRec} {l : List QRec}

theorem exec_launchHeadValidation_valid (hrecs : (s.queue q).recs = x :: l) (hv : x.valid = false) (hs : s.submitted x = true)
    (hcode : s.qrecCode q x = 0) :
    ∃ w, exec (.launchHeadValidation q) s
      = .next { s.modQueue q fun y => { y with recs := { x with valid := true } :: l } with agenda := w } := by
  obtain ⟨w, hw⟩ := wantAttempt_eq (s.modQueue q fun y => { y with recs := { x with valid := true } :: l })
  refine ⟨w, ?_⟩
  rw [exec_launchHeadValidation, execLaunchHeadValidation, ← hw]
  simp [hrecs, hv, hs, hcode]

theorem exec_launchHeadValidation_rejected (hrecs : (s.queue q).recs = x :: l) (hv : x.valid = false)
    (hs : s.submitted x = true) (hcode : s.qrecCode q x ≠ 0) :
    exec (.launchHeadValidation q) s = .next (s.rejectHead q x (s.qrecCode q x)) := by
  rw [exec_launchHeadValidation, execLaunchHeadValidation]
  simp [hrecs, hv, hs, hcode]

theorem recs_setStatus (s : State) (q m low nzx state code : Nat) :
    ((s.setStatus q m low nzx state code).queue q).recs = (s.queue q).recs := by
  unfold State.setStatus
  split
  · rfl
  · rw [State.queue_modQueue]

/-- A status entry is written while it is still that of its record. -/
theorem status_setStatus {m : Nat} (low nzx state code : Nat)
    (h : fieldNat (tabGet 0 (s.queue q).status (m % 64)) 63 32 = m % 2 ^ 32) :
    tabGet 0 ((s.setStatus q m low nzx state code).queue q).status (m % 64) = statusEntry low nzx m state code := by
  rw [State.setStatus, if_neg (Decidable.not_not.2 h), State.queue_modQueue, tabGet_put_same]

theorem queue_writeStatusWord (s : State) (x : QRec) (code q : Nat) : (s.writeStatusWord x code).queue q = s.queue q := by
  unfold State.writeStatusWord
  split
  · rfl
  · unfold State.send
    split <;> rfl

theorem numbers_dropHead (s : State) (q : Nat) :
    ((s.dropHead q).queue q).recs.map QRec.m = (s.queue q).recs.tail.map QRec.m := by
  rw [State.dropHead, State.queue_modQueue]
  rcases (s.queue q).recs with _ | ⟨y, _ | ⟨z, l⟩⟩ <;> rfl

theorem status_dropHead (s : State) (q : Nat) : ((s.dropHead q).queue q).status = (s.queue q).status := by
  rw [State.dropHead, State.queue_modQueue]

theorem bookkeeping_rejectHead (s : State) (q : Nat) (x : QRec) (code : Nat) : Bookkeeping s (s.rejectHead q x code) :=
  ((bookkeeping_setStatus ..).trans (bookkeeping_writeStatusWord ..)).trans (bookkeeping_dropHead ..)

theorem numbers_rejectHead (hrecs : (s.queue q).recs = x :: l) (code : Nat) :
    ((s.rejectHead q x code).queue q).recs.map QRec.m = l.map QRec.m := by
  rw [State.rejectHead, numbers_dropHead, queue_writeStatusWord, recs_setStatus, hrecs, List.tail_cons]

theorem status_rejectHead (code : Nat) (h : fieldNat (tabGet 0 (s.queue q).status (x.m % 64)) 63 32 = x.m % 2 ^ 32) :
    tabGet 0 ((s.rejectHead q x code).queue q).status (x.m % 64) = statusEntry 0xFFFFFFFF 0 x.m 3 code := by
  rw [State.rejectHead, status_dropHead, queue_writeStatusWord, status_setStatus _ _ _ _ h]

/-! ### The blocking head (R331) -/

theorem exec_blockingHead_oldest (hb : s.heads.any (fun e => e.2.blocking) = false) {h : List (Nat × QRec)}
    (hold : s.oldHeads = (q, x) :: h) {y : QRec} (hrecs : (s.queue q).recs = y :: l) :
    exec .blockingHead s = .next (s.modQueue q fun z => { z with recs := { x with blocking := true } :: l }) := by
  rw [exec_blockingHead, execBlockingHead]
  simp only [hb, Bool.false_eq_true, if_false, hold, State.modQueue, hrecs]

end

/-! ### TLARM and QOWN (R157, R158) -/

section
variable {s : State} {f q : Nat}

/-- An alarm that the timeline has reached fires vector 1 of the queue's owner and is cleared. -/
theorem exec_tlarmWrite_fires (hf : f ≤ 16) {v : W64} (h0 : v ≠ 0) (h : v ≤ (s.queue q).timeline) :
    exec (.tlarmWrite f q v) s
      = .next (((s.modQueue q fun x => { x with tlarm := v }).modQueue q fun x => { x with tlarm := 0 }).msix
          (s.queue q).qown.toNat 1) := by
  rw [exec_tlarmWrite, execTlarmWrite, if_neg (Nat.not_lt.2 hf), State.checkTlarm, State.queue_modQueue]
  exact congrArg Host.Outcome.next (if_pos ⟨h0, BitVec.ule_iff_le.2 h⟩)

theorem exec_tlarmWrite_waits (hf : f ≤ 16) {v : W64} (h : ¬(v ≠ 0 ∧ v ≤ (s.queue q).timeline)) :
    exec (.tlarmWrite f q v) s = .next (s.modQueue q fun x => { x with tlarm := v }) := by
  rw [exec_tlarmWrite, execTlarmWrite, if_neg (Nat.not_lt.2 hf), State.checkTlarm, State.queue_modQueue]
  exact congrArg Host.Outcome.next (if_neg fun ⟨h0, hle⟩ => h ⟨h0, BitVec.ule_iff_le.1 hle⟩)

/-- A vector that goes out is counted. -/
theorem sent_msix {f v : Nat} (h : (s.page f).sends v = true) :
    tabGet 0 ((s.msix f v).page f).sent v = tabGet 0 (s.page f).sent v + 1 := by
  rw [State.msix, State.page_modPage, if_pos h, tabGet_put_same]

theorem exec_qownWrite_taken {v : BitVec 5} (hrecs : (s.queue q).recs = []) (hl : ∀ l, l ∈ s.launches → l.queue ≠ q) :
    exec (.qownWrite 0 q v) s = .next (s.modQueue q fun x => { x with qown := v }) := by
  rw [exec_qownWrite, execQownWrite, if_neg (Decidable.not_not.2 rfl), if_pos (by simpa [hrecs] using hl)]

theorem exec_qownWrite_ignored {v : BitVec 5} (h : ¬((s.queue q).recs = [] ∧ ∀ l, l ∈ s.launches → l.queue ≠ q)) :
    exec (.qownWrite 0 q v) s = .next s := by
  rw [exec_qownWrite, execQownWrite, if_neg (Decidable.not_not.2 rfl), if_neg (by simpa using h)]

end

end Sys2Proof.Proofs
end

section
/-! PROOFS of the parts of the launch unit's statement (O47) about attempts: which tiles a head takes, and the start state of
every task. -/

namespace Sys2Proof.Proofs

open Sys2Proof.Machine Sys2Proof.Safety

/-! ### What fetching and placing leave -/

/-- Tiles, memory, its error marks, the clocks of dies, the lifetime records and the count of free values may have changed;
everything else is what it was. -/
def Places (s u : State) : Prop :=
  { u with tiles := s.tiles, mem := s.mem, ecc := s.ecc, dies := s.dies, lifetime := s.lifetime, free := s.free } = s

namespace Places

variable {s u v : State}

theorem refl (s : State) : Places s s := rfl

theorem trans (h : Places s u) (k : Places u v) : Places s v :=
  (congrArg (fun y : State => { y with
    tiles := s.tiles, mem := s.mem, ecc := s.ecc, dies := s.dies, lifetime := s.lifetime, free := s.free }) k :).trans h

theorem launches (h : Places s u) : u.launches = s.launches := (congrArg State.launches h :)
theorem nextLaunch (h : Places s u) : u.nextLaunch = s.nextLaunch := (congrArg State.nextLaunch h :)
theorem now (h : Places s u) : u.now = s.now := (congrArg State.now h :)
theorem dealt (h : Places s u) : u.dealt = s.dealt := (congrArg State.dealt h :)

end Places

/-- Translation changes nothing, counts an uncorrectable error, or fills the TLB. -/
theorem translate_cases (s : State) (t : Nat) (a : W16) (va : W64) (n : Need) :
    (s.translate t a va n).1 = s ∨ (∃ l, (s.translate t a va n).1 = s.noteEcc l) ∨ ∃ e, (s.translate t a va n).1 = s.tlbFill t e := by
  unfold State.translate
  dsimp only
  split
  · exact .inl rfl
  split
  · exact .inl rfl
  split
  · exact .inl rfl
  split
  · exact .inr (.inl ⟨_, rfl⟩)
  · exact .inl rfl
  split
  · exact .inl rfl
  split
  · exact .inl rfl
  · exact .inr (.inr ⟨_, rfl⟩)

theorem places_noteEcc (s : State) (l : List Nat) : Places s (s.noteEcc l) := by
  unfold State.noteEcc
  split <;> rfl

theorem places_translate (s : State) (t : Nat) (a : W16) (va : W64) (n : Need) : Places s (s.translate t a va n).1 := by
  rcases translate_cases s t a va n with h | ⟨l, h⟩ | ⟨e, h⟩ <;> rw [h]
  · exact Places.refl s
  · exact places_noteEcc s l
  · unfold State.tlbFill
    dsimp only
    split <;> rfl

theorem places_readVa (t : Nat) (asid : W16) (fuel : Nat) : ∀ (s : State) (va n : Nat), Places s (s.readVa t asid va n fuel).1 := by
  induction fuel with
  | zero => exact fun s _ _ => Places.refl s
  | succ fuel ih =>
    intro s va n
    unfold State.readVa
    split
    · exact Places.refl s
    dsimp only
    have htr := places_translate s t asid (BitVec.ofNat 64 va) ⟨true, false, false⟩
    generalize s.translate t asid (BitVec.ofNat 64 va) ⟨true, false, false⟩ = p at htr
    obtain ⟨v, f | d⟩ := p
    · exact htr
    dsimp only
    split
    · split
      · exact htr.trans (places_noteEcc v _)
      · exact htr
    · have hrest := htr.trans (ih v (va + min n (2048 - va % 2048)) (n - min n (2048 - va % 2048)))
      generalize v.readVa t asid (va + min n (2048 - va % 2048)) (n - min n (2048 - va % 2048)) fuel = p at hrest
      obtain ⟨w, _ | m⟩ := p <;> exact hrest

theorem places_fetchLaunch (s : State) (r : LaunchRec) (tiles : List Nat) : Places s (s.fetchLaunch r tiles).1 := by
  unfold State.fetchLaunch
  dsimp only
  generalize himg : @ite (State × Option (Option (List Byte))) _ (_) _ _ = img
  have hread : Places s img.1 := by
    have hva := places_readVa (tiles.headD 0) (recAsid r) 1024 s (recImageVa r) (recImageLen r)
    generalize s.readVa (tiles.headD 0) (recAsid r) (recImageVa r) (recImageLen r) 1024 = p at himg hva
    rw [← himg]
    obtain ⟨v, _ | l⟩ := p
    all_goals
      split
      · exact Places.refl s
      · exact hva
  obtain ⟨v, _ | i⟩ := img
  · exact hread
  dsimp only
  split
  · exact hread
  · have hva := hread.trans (places_readVa (tiles.headD 0) (recAsid r) 4096 v (recInitVa r) (recInitLen r))
    generalize v.readVa (tiles.headD 0) (recAsid r) (recInitVa r) (recInitLen r) 4096 = p at hva
    obtain ⟨w, _ | l⟩ := p <;> exact hva

/-- Where every tile holds the image and there is no initialiser, nothing is fetched (R48, R52). -/
theorem fetchLaunch_resident {s : State} {r : LaunchRec} {tiles : List Nat} (hinit : recInitVa r = 0)
    (himage : ∀ t, t ∈ tiles → ∃ i, (s.tile t).image = some i ∧ i.hash = recHash r) :
    s.fetchLaunch r tiles = (s, some (none, [])) := by
  unfold State.fetchLaunch
  dsimp only
  generalize himg : @ite (State × Option (Option (List Byte))) _ (_) _ _ = img
  split at himg
  · rw [← himg]
    exact if_pos hinit
  · next hall =>
    refine absurd (List.all_eq_true.2 fun t ht => ?_) hall
    obtain ⟨i, hi, hash⟩ := himage t ht
    simp only [hi, hash, decide_true]

/-! ### A tile made ready for a task (R45, R51, R52) -/

/-- Tile x has the contexts and the clock cycle it had. -/
def TasksKept (s u : State) (x : Nat) : Prop := (∀ d, u.ctx? x d = s.ctx? x d) ∧ (u.tile x).clk = (s.tile x).clk

/-- Bytes, images and pages of tiles may have changed, but no context and no clock cycle. -/
def Prepares (s u : State) : Prop := Places s u ∧ ∀ x, TasksKept s u x

theorem TasksKept.trans {s u v : State} {x : Nat} (h : TasksKept s u x) (k : TasksKept u v x) : TasksKept s v x :=
  ⟨fun d => (k.1 d).trans (h.1 d), k.2.trans h.2⟩

theorem TasksKept.freeCtxs {s u : State} {x : Nat} (h : TasksKept s u x) : u.freeCtxs x = s.freeCtxs x := by
  simp only [State.freeCtxs, h.1]

theorem Prepares.refl (s : State) : Prepares s s := ⟨rfl, fun _ => ⟨fun _ => rfl, rfl⟩⟩

theorem Prepares.trans {s u v : State} (h : Prepares s u) (k : Prepares u v) : Prepares s v :=
  ⟨h.1.trans k.1, fun x => (h.2 x).trans (k.2 x)⟩

theorem prepares_of_tiles {s u : State} (h : Places s u) (ht : u.tiles = s.tiles) : Prepares s u :=
  ⟨h, fun x => ⟨fun d => by simp only [State.ctx?, State.tile, ht], by simp only [State.tile, ht]⟩⟩

theorem prepares_modTile (s : State) (t : Nat) {f : Tile → Tile} (hctxs : ∀ y, (f y).ctxs = y.ctxs) (hclk : ∀ y, (f y).clk = y.clk) :
    Prepares s (s.modTile t f) := by
  refine ⟨rfl, fun x => ?_⟩
  simp only [TasksKept, State.ctx?, State.tile_modTile]
  split
  · next h => simp only [hctxs, hclk, h, implies_true, and_self]
  · exact ⟨fun _ => rfl, rfl⟩

theorem prepares_zeroLocal (s : State) (t a e : Nat) : Prepares s (s.zeroLocal t a e) := prepares_of_tiles rfl rfl

theorem prepares_pokeLocals (s : State) (t a : Nat) (l : List Byte) : Prepares s (s.pokeLocals t a l) := by
  rw [State.pokeLocals_eq]
  exact prepares_of_tiles rfl rfl

theorem prepares_takePages (s : State) (t a e : Nat) (asid : W16) : Prepares s (s.takePages t a e asid) := by
  unfold State.takePages
  refine List.foldlRecOn _ _ (Prepares.refl s) fun u hu p _ => hu.trans ?_
  dsimp only
  refine Prepares.trans ?_ (prepares_modTile _ t (fun _ => rfl) fun _ => rfl)
  split
  · exact Prepares.refl u
  · exact prepares_zeroLocal ..

theorem prepares_loadImage (s : State) (t : Nat) (r : LaunchRec) (bytes : List Byte) :
    Prepares s (s.modTile t fun y => y.loadImage r bytes) := prepares_modTile s t (fun _ => rfl) fun _ => rfl

theorem prepares_mergeDie (s : State) (d : Nat) (k : Clock) : Prepares s (s.mergeDie d k) := prepares_of_tiles rfl rfl

/-! ### One task starts (R54) -/

/-- The start state rests on the tile's clock cycle and on the places dealt at reset. -/
theorem startCtx_congr {s u : State} {t : Nat} (hclk : (u.tile t).clk = (s.tile t).clk) (hdealt : u.dealt = s.dealt)
    (l : Nat) (r : LaunchRec) (c k i n : Nat) : u.startCtx l r t c k i n = s.startCtx l r t c k i n := by
  simp only [State.startCtx, State.placed, State.dealtOf, hclk, hdealt]

section
variable (s : State) (l : Nat) (r : LaunchRec) (init : List Byte) (t c k i n : Nat)

theorem startTask_eq : ∃ v, Prepares s v ∧ s.startTask l r init t c k i n = v.setCtx t c (s.startCtx l r t c k i n) := by
  have hv := ((prepares_takePages s t (recCarveBase r + k * recCarveSize r)
    (recCarveBase r + k * recCarveSize r + recCarveSize r) (recAsid r)).trans (prepares_zeroLocal _ t
      (recCarveBase r + k * recCarveSize r + recFutOff r)
      (recCarveBase r + k * recCarveSize r + recFutOff r + 16 * recFutCount r))).trans
    (prepares_pokeLocals _ t (recCarveBase r + k * recCarveSize r) init)
  refine ⟨_, hv, ?_⟩
  rw [← startCtx_congr (hv.2 t).2 hv.1.dealt]
  rfl

theorem places_startTask : Places s (s.startTask l r init t c k i n) := by
  obtain ⟨v, hv, h⟩ := startTask_eq s l r init t c k i n
  rw [h]
  exact hv.1.trans rfl

theorem ctx?_startTask (x d : Nat) :
    (s.startTask l r init t c k i n).ctx? x d = if x = t ∧ d = c then some (s.startCtx l r t c k i n) else s.ctx? x d := by
  obtain ⟨v, hv, h⟩ := startTask_eq s l r init t c k i n
  rw [h, State.ctx?_setCtx, (hv.2 x).1]

theorem clk_startTask (x : Nat) : ((s.startTask l r init t c k i n).tile x).clk = (s.tile x).clk := by
  obtain ⟨v, hv, h⟩ := startTask_eq s l r init t c k i n
  rw [h, State.tile_setCtx, ← (hv.2 x).2]
  split
  · next e => rw [e]
  · rfl

end

/-! ### One after the other -/

/-- A fold over elements that differ pairwise does for each what one step does, if a step undoes nothing for the others: U says
that nothing has been done yet for an element, P that its step has been done. -/
theorem foldl_each {σ α : Type} {f : σ → α → σ} {U P : α → σ → Prop} {ne : α → α → Prop} (hne : ∀ a b, ne a b → ne b a)
    (hdo : ∀ a u, U a u → P a (f u a)) (hU : ∀ a b u, ne a b → U a u → U a (f u b)) (hP : ∀ a b u, ne a b → P a u → P a (f u b)) :
    ∀ (l : List α) (u : σ), l.Pairwise ne → (∀ a, a ∈ l → U a u) → ∀ a, a ∈ l → P a (l.foldl f u)
  | [], _, _, _, _, h => nomatch h
  | b :: l, u, hl, hu, a, ha => by
    obtain ⟨hb, hl⟩ := List.pairwise_cons.1 hl
    rcases List.mem_cons.1 ha with rfl | ha
    · exact List.foldlRecOn l f (hdo a u (hu a ha)) fun v hv b hbl => hP a b v (hb b hbl) hv
    · exact foldl_each hne hdo hU hP l _ hl
        (fun a ha => hU a b u (hne b a (hb a ha)) (hu a (List.mem_cons_of_mem b ha))) a ha

/-- The pairs of a zip differ where the second list has no element twice. -/
theorem pairwise_zip_snd {α β : Type} (l : List α) {m : List β} (h : m.Nodup) : (l.zip m).Pairwise fun a b => a.2 ≠ b.2 := by
  rw [List.pairwise_iff_getElem]
  intro i j hi hj hij
  simp only [List.getElem_zip]
  exact (List.pairwise_iff_getElem.1 h) i j _ _ hij

theorem mem_zip_range {α : Type} {m : List α} {n i : Nat} {a : α} (hi : i < n) (ha : m[i]? = some a) :
    (i, a) ∈ (List.range n).zip m := by
  refine List.mem_iff_getElem?.2 ⟨i, ?_⟩
  rw [List.getElem?_zip_eq_some]
  exact ⟨by simp [hi], ha⟩

/-! ### A launch starts on one tile (R47, R50) -/

theorem nodup_freeCtxs (s : State) (t : Nat) : (s.freeCtxs t).Nodup := List.nodup_range.filter _

section
variable (s : State) (l : Nat) (x : QRec) (image : Option (List Byte)) (init : List Byte) (j t n : Nat)

/-- The tasks of one tile start, the k-th in the k-th of its free contexts. -/
def startTasks : State :=
  ((List.range (recNctx x.record)).zip (s.freeCtxs t)).foldl
    (fun u e => u.startTask l x.record init t e.2 e.1 (j * recNctx x.record + e.1) n) s

theorem startTile_eq : ∃ v, Prepares s v ∧ s.startTile l x image init j t n = startTasks v l x init j t n := by
  refine ⟨_, Prepares.trans ?_ (prepares_mergeDie _ _ x.clock), rfl⟩
  split
  · split
    · split
      · exact Prepares.refl s
      · exact prepares_loadImage ..
    · exact prepares_loadImage ..
  · exact Prepares.refl s

theorem places_startTasks : Places s (startTasks s l x init j t n) :=
  List.foldlRecOn _ _ (Places.refl s) fun _ hu _ _ => hu.trans (places_startTask ..)

theorem clk_startTasks (y : Nat) : ((startTasks s l x init j t n).tile y).clk = (s.tile y).clk :=
  List.foldlRecOn (motive := fun (u : State) => (u.tile y).clk = (s.tile y).clk) _ _ rfl fun u hu _ _ => by rw [clk_startTask, hu]

theorem tasksKept_startTasks {y : Nat} (hy : y ≠ t) : TasksKept s (startTasks s l x init j t n) y := by
  refine ⟨fun d => ?_, clk_startTasks s l x init j t n y⟩
  exact List.foldlRecOn (motive := fun (u : State) => u.ctx? y d = s.ctx? y d) _ _ rfl fun u hu e _ => by
    rw [ctx?_startTask, if_neg fun h => hy h.1, hu]

theorem ctx?_startTasks {k c : Nat} (hk : k < recNctx x.record) (hc : (s.freeCtxs t)[k]? = some c) :
    (startTasks s l x init j t n).ctx? t c = some (s.startCtx l x.record t c k (j * recNctx x.record + k) n) := by
  refine foldl_each (ne := fun a b => a.2 ≠ b.2) (U := fun _ u => Places s u ∧ (u.tile t).clk = (s.tile t).clk)
    (P := fun e u => u.ctx? t e.2 = some (s.startCtx l x.record t e.2 e.1 (j * recNctx x.record + e.1) n))
    (fun _ _ h => h.symm) (fun e u hu => ?_) (fun e b u _ hu => ?_) (fun e b u hne hP => ?_) _ s
    (pairwise_zip_snd _ (nodup_freeCtxs s t)) (fun _ _ => ⟨Places.refl s, rfl⟩) (k, c) (mem_zip_range hk hc)
  · rw [ctx?_startTask, if_pos ⟨rfl, rfl⟩, startCtx_congr hu.2 hu.1.dealt]
  · exact ⟨hu.1.trans (places_startTask ..), (clk_startTask ..).trans hu.2⟩
  · rw [ctx?_startTask, if_neg fun h => hne h.2]
    exact hP

theorem places_startTile : Places s (s.startTile l x image init j t n) := by
  obtain ⟨v, hv, h⟩ := startTile_eq s l x image init j t n
  rw [h]
  exact hv.1.trans (places_startTasks ..)

theorem tasksKept_startTile {y : Nat} (hy : y ≠ t) : TasksKept s (s.startTile l x image init j t n) y := by
  obtain ⟨v, hv, h⟩ := startTile_eq s l x image init j t n
  rw [h]
  exact (hv.2 y).trans (tasksKept_startTasks v l x init j t n hy)

theorem ctx?_startTile {k c : Nat} (hk : k < recNctx x.record) (hc : (s.freeCtxs t)[k]? = some c) :
    (s.startTile l x image init j t n).ctx? t c = some (s.startCtx l x.record t c k (j * recNctx x.record + k) n) := by
  obtain ⟨v, hv, h⟩ := startTile_eq s l x image init j t n
  rw [h, ctx?_startTasks v l x init j t n hk (by rw [(hv.2 t).freeCtxs, hc]), startCtx_congr (hv.2 t).2 hv.1.dealt]

end

/-! ### A launch starts on its tiles (R50 to R54) -/

section
variable (s : State) (q : Nat) (x : QRec) (tiles : List Nat) (image : Option (List Byte)) (init : List Byte)

/-- The launch that a record begins. -/
def begun : Launch :=
  { id := s.nextLaunch, record := x.record, queue := q, m := x.m, tiles := tiles, left := tiles.length * recNctx x.record, nzx := 0,
    lowidx := none, clock := x.clock, started := s.now }

/-- The state with that launch, before any of its tasks has started. -/
def withBegun : State := { s with nextLaunch := s.nextLaunch + 1, launches := s.launches ++ [begun s q x tiles] }

/-- The tasks of launch l start, on tile after tile. -/
def startTiles (l n : Nat) : State :=
  ((List.range tiles.length).zip tiles).foldl (fun u e => u.startTile l x image init e.1 e.2 n) s

theorem places_startTiles (l n : Nat) : Places s (startTiles s x tiles image init l n) :=
  List.foldlRecOn _ _ (Places.refl s) fun _ hu _ _ => hu.trans (places_startTile ..)

theorem ctx?_startTiles (l n : Nat) (hnd : tiles.Nodup) {j t k c : Nat} (ht : tiles[j]? = some t) (hk : k < recNctx x.record)
    (hc : (s.freeCtxs t)[k]? = some c) :
    (startTiles s x tiles image init l n).ctx? t c = some (s.startCtx l x.record t c k (j * recNctx x.record + k) n) := by
  refine foldl_each (ne := fun a b => a.2 ≠ b.2) (U := fun e u => Places s u ∧ TasksKept s u e.2)
    (P := fun e u => ∀ k c, k < recNctx x.record → (s.freeCtxs e.2)[k]? = some c →
      u.ctx? e.2 c = some (s.startCtx l x.record e.2 c k (e.1 * recNctx x.record + k) n))
    (fun _ _ h => h.symm) (fun e u hu k c hk hc => ?_) (fun e b u hne hu => ?_) (fun e b u hne hP k c hk hc => ?_) _ s
    (pairwise_zip_snd _ hnd) (fun _ _ => ⟨Places.refl s, fun _ => rfl, rfl⟩) (j, t)
    (mem_zip_range (List.getElem?_eq_some_iff.1 ht).1 ht) k c hk hc
  · rw [ctx?_startTile _ _ _ _ _ _ _ _ hk (by rw [hu.2.freeCtxs, hc]), startCtx_congr hu.2.2 hu.1.dealt]
  · exact ⟨hu.1.trans (places_startTile ..), hu.2.trans (tasksKept_startTile _ _ _ _ _ _ _ _ hne)⟩
  · rw [(tasksKept_startTile _ _ _ _ _ _ _ _ hne).1]
    exact hP k c hk hc

/-- After its tasks have started, a launch's start is bookkeeping: parcels, status, queue, power class. -/
theorem bookkeeping_startLaunch : Bookkeeping
    (startTiles (withBegun s q x tiles) x tiles image init s.nextLaunch (tiles.length * recNctx x.record))
    (s.startLaunch q x tiles image init) := by
  unfold State.startLaunch
  refine Bookkeeping.trans ?_ (((bookkeeping_setStatus ..).trans (bookkeeping_writeStatusWord ..)).trans
    ((bookkeeping_dropHead ..).trans (bookkeeping_setClass _)))
  split
  · exact Bookkeeping.refl _
  · rfl

theorem launches_startLaunch : (s.startLaunch q x tiles image init).launches = s.launches ++ [begun s q x tiles] :=
  (bookkeeping_startLaunch ..).launches.trans (places_startTiles ..).launches

theorem nextLaunch_startLaunch : (s.startLaunch q x tiles image init).nextLaunch = s.nextLaunch + 1 :=
  (bookkeeping_startLaunch ..).nextLaunch.trans (places_startTiles ..).nextLaunch

theorem ctx?_startLaunch (hnd : tiles.Nodup) {j t k c : Nat} (ht : tiles[j]? = some t) (hk : k < recNctx x.record)
    (hc : (s.freeCtxs t)[k]? = some c) :
    (s.startLaunch q x tiles image init).ctx? t c = some (s.startCtx s.nextLaunch x.record t c k (j * recNctx x.record + k)
      (tiles.length * recNctx x.record)) := by
  have htiles := (bookkeeping_startLaunch s q x tiles image init).tiles
  simp only [State.ctx?, State.tile, htiles]
  exact ctx?_startTiles (withBegun s q x tiles) x tiles image init _ _ hnd ht hk hc

end

/-! ### An attempt with one head (R330) -/

theorem exec_allocationAttempt_none {s : State} (h : s.heads = []) : exec .allocationAttempt s = .next s := by
  rw [exec_allocationAttempt, execAllocationAttempt, State.sortedHeads, h]
  rfl

section
variable {s v : State} {q : Nat} {x : QRec} {tiles : List Nat}

/-- A blocking head bars no tile to itself. -/
theorem tryHead_own {b : Option (Nat × QRec)} (hb : ∀ e, b = some e → e.1 = q) : s.tryHead b (q, x) = s.tryHead none (q, x) := by
  rcases b with _ | ⟨p, y⟩
  · rfl
  · obtain rfl : p = q := hb _ rfl
    simp [State.tryHead]

/-- The only head is tried, and nothing bars it. -/
theorem exec_allocationAttempt_one (h : s.heads = [(q, x)]) : exec .allocationAttempt s = .next (s.tryHead none (q, x)) := by
  have hown : ∀ e, [(q, x)].find? (fun e => e.2.blocking) = some e → e.1 = q := fun e he => by
    rw [List.mem_singleton.1 (List.mem_of_find?_eq_some he)]
  rw [← tryHead_own hown, exec_allocationAttempt, execAllocationAttempt, State.sortedHeads, h]
  rfl

/-- A head that does not fit waits. -/
theorem exec_allocationAttempt_waits (h : s.heads = [(q, x)]) (hcode : s.qrecCode q x = 0)
    (hp : s.placement x.record = none) : exec .allocationAttempt s = .next s := by
  rw [exec_allocationAttempt_one h]
  unfold State.tryHead
  dsimp only
  rw [if_neg Bool.false_ne_true, if_neg (Decidable.not_not.2 hcode), hp]

/-- A head that fits starts, once what it needs has been fetched. -/
theorem exec_allocationAttempt_starts (h : s.heads = [(q, x)]) (hcode : s.qrecCode q x = 0)
    (hp : s.placement x.record = some tiles) {f : Option (List Byte) × List Byte}
    (hf : s.fetchLaunch x.record tiles = (v, some f)) :
    exec .allocationAttempt s = .next (v.startLaunch q x tiles f.1 f.2) := by
  rw [exec_allocationAttempt_one h]
  unfold State.tryHead
  dsimp only
  rw [if_neg Bool.false_ne_true, if_neg (Decidable.not_not.2 hcode), hp]
  dsimp only
  rw [hf]

/-- No tile is named twice. -/
theorem nodup_placement {r : LaunchRec} (h : s.placement r = some tiles) : tiles.Nodup := by
  unfold State.placement at h
  dsimp only at h
  split at h
  · split at h
    · cases h
      exact ((List.nodup_range.filter _).filter _).sublist (List.take_sublist _ _)
    · cases h
  · split at h
    · cases h
      exact List.nodup_range.filter _
    · cases h

end

end Sys2Proof.Proofs
end

section
/-! PROOFS of the parts of the launch unit's statement (O47) about retirement: what a task's end leaves of its tile and of its
launch. -/

namespace Sys2Proof.Proofs

open Sys2Proof.Machine Sys2Proof.Safety

/-! ### What leaves launches and counter caches as they are -/

/-- The resident launches and every tile's counter cache are what they were. -/
def Steady (s u : State) : Prop := u.launches = s.launches ∧ ∀ x, (u.tile x).cache = (s.tile x).cache

theorem Steady.refl (s : State) : Steady s s := ⟨rfl, fun _ => rfl⟩

theorem Steady.trans {s u v : State} (h : Steady s u) (k : Steady u v) : Steady s v :=
  ⟨k.1.trans h.1, fun x => (k.2 x).trans (h.2 x)⟩

theorem steady_of_eq {s u : State} (hl : u.launches = s.launches) (ht : u.tiles = s.tiles) : Steady s u :=
  ⟨hl, fun x => by simp only [State.tile, ht]⟩

theorem Bookkeeping.steady {s u : State} (h : Bookkeeping s u) : Steady s u := steady_of_eq h.launches h.tiles

theorem steady_modTile (s : State) (t : Nat) {f : Tile → Tile} (hf : ∀ y, (f y).cache = y.cache) : Steady s (s.modTile t f) := by
  refine ⟨rfl, fun x => ?_⟩
  rw [State.tile_modTile]
  split
  · next h => rw [hf, h]
  · rfl

theorem steady_modCtx (s : State) (t c : Nat) (f : Ctx → Ctx) : Steady s (s.modCtx t c f) := steady_modTile s t fun _ => rfl

theorem steady_send (s : State) (d : Nat) (h : Home) (b : Body) (l : List Nat) (o : Option (Nat × Nat)) (va : W64) :
    Steady s (s.send d h b l o va).1 := (bookkeeping_send s d h b l o va).steady

theorem steady_bumpFree (s : State) : Steady s s.bumpFree := steady_of_eq rfl rfl

theorem steady_translate (s : State) (t : Nat) (a : W16) (va : W64) (n : Need) : Steady s (s.translate t a va n).1 := by
  rcases translate_cases s t a va n with h | ⟨l, h⟩ | ⟨e, h⟩ <;> rw [h]
  · exact Steady.refl s
  · unfold State.noteEcc
    split <;> exact steady_of_eq rfl rfl
  · unfold State.tlbFill
    dsimp only
    split
    · exact steady_modTile s t fun _ => rfl
    · refine Steady.trans (steady_modTile s t ?_) (steady_bumpFree _)
      exact fun _ => rfl

/-- A record in a fault queue is a translation, a message and a count of the context. -/
theorem steady_record (s : State) (t c : Nat) (r : FaultRec) : Steady s (s.record t c r).1 := by
  unfold State.record
  dsimp only
  split
  · exact Steady.refl s
  split
  · exact steady_modCtx ..
  generalize hp : s.translate t (s.asidOf t c) _ _ = p
  have htr : Steady s p.1 := hp ▸ steady_translate ..
  obtain ⟨v, f | d⟩ := p
  · exact htr.trans (steady_modCtx ..)
  have hkept (l : List Byte) (f : Option Nat) :
      Steady s ((v.postBytes t c d l f []).1.modCtx t c fun x => { x with seq := x.seq + 1 }) :=
    (htr.trans (steady_send ..)).trans (steady_modCtx ..)
  cases d with
  | host a => exact hkept _ _
  | hbm a k =>
    dsimp only
    split
    · exact htr.trans (steady_modCtx ..)
    · exact hkept _ _

theorem steady_event (s : State) (t c code reason : Nat) (arg : W64) : Steady s (s.event t c code reason arg) := by
  unfold State.event
  split
  · exact Steady.refl s
  · exact steady_record ..

/-! ### The write-backs of a task (R56, R151, R370) -/

theorem steady_writeBack (s : State) (t c : Nat) (x : Delta) : Steady s (s.writeBack t c x) := by
  unfold State.writeBack
  split
  · exact Steady.refl s
  dsimp only
  generalize hp : s.translate t _ _ _ = p
  have htr : Steady s p.1 := hp ▸ steady_translate ..
  obtain ⟨v, f | d⟩ := p
  · exact htr.trans (steady_event ..)
  · exact htr.trans (steady_send ..)

/-- The counter cache of tile t without the entries of launch l. -/
def withoutCounters (s : State) (t l : Nat) : State :=
  s.modTile t fun y => { y with cache := y.cache.filter fun x => decide (x.launch ≠ l) }

theorem steady_flushCounters (s : State) (t c l : Nat) : Steady (withoutCounters s t l) (s.flushCounters t c l) :=
  List.foldlRecOn _ _ (Steady.refl _) fun _ hu _ _ => hu.trans (steady_writeBack ..)

theorem cache_flushCounters (s : State) (t c l : Nat) :
    ((s.flushCounters t c l).tile t).cache = (s.tile t).cache.filter fun x => decide (x.launch ≠ l) := by
  rw [(steady_flushCounters s t c l).2, withoutCounters, State.tile_modTile_same]

/-- Without counters of the launch nothing is written back. -/
theorem flushCounters_none {s : State} {t l : Nat} (c : Nat) (h : ∀ x, x ∈ (s.tile t).cache → x.launch ≠ l) :
    s.flushCounters t c l = withoutCounters s t l := by
  have hmine : ((s.tile t).cache.filter fun x => decide (x.launch = l)) = [] :=
    List.filter_eq_nil_iff.2 fun x hx => by simpa using h x hx
  unfold State.flushCounters
  dsimp only
  rw [hmine]
  rfl

theorem steady_hartSend (s : State) (t c : Nat) (home : Home) (b : Body) (l : List Nat) (va : W64) :
    Steady s (s.hartSend t c home b l va) := (steady_send ..).trans (steady_modCtx ..)

theorem steady_writeHotness (s : State) (t c : Nat) : Steady s (s.writeHotness t c) := by
  unfold State.writeHotness
  dsimp only
  split
  · exact Steady.refl s
  refine List.foldlRecOn _ _ (Steady.refl s) fun u hu i _ => hu.trans ?_
  generalize hp : u.translate t _ _ _ = p
  have htr : Steady u p.1 := hp ▸ steady_translate ..
  obtain ⟨v, f | d⟩ := p
  · exact htr
  · exact htr.trans (steady_hartSend ..)

/-- The write-backs of the task in context c of tile t leave, and it waits for them (R56). -/
def writtenBack (s : State) (t c : Nat) : State :=
  let u := (s.flushCounters t c (s.ctx t c).launch).writeHotness t c
  u.modCtx t c fun x => { x with wroteBack := true, backs := u.backsOf t x.launch }

section
variable {s : State} {t c : Nat}

theorem launches_writtenBack : (writtenBack s t c).launches = s.launches :=
  ((steady_writeHotness ..).trans (steady_modCtx ..)).1.trans (steady_flushCounters ..).1

theorem cache_writtenBack :
    ((writtenBack s t c).tile t).cache = (s.tile t).cache.filter fun x => decide (x.launch ≠ (s.ctx t c).launch) :=
  (((steady_writeHotness ..).trans (steady_modCtx ..)).2 t).trans (cache_flushCounters ..)

theorem wroteBack_writtenBack : ((writtenBack s t c).ctx t c).wroteBack = true := by
  rw [writtenBack, State.ctx_modCtx_same]

end

/-! ### A task is counted retired (R56, R295, R369) -/

theorem steady_ring (s : State) (f t : Nat) (r : RingRec) : Steady s (s.ring f t r) := by
  unfold State.ring
  dsimp only
  split
  · exact Steady.refl s
  split
  · exact steady_of_eq rfl rfl
  · exact ((steady_send ..).trans (steady_of_eq rfl rfl)).trans (steady_modTile _ t fun _ => rfl)

theorem steady_flushFreezeOf (s : State) (t c : Nat) : Steady s (s.flushFreezeOf t c) := by
  unfold State.flushFreezeOf
  split
  · split
    · unfold State.flushFreeze
      split
      · exact Steady.refl s
      · dsimp only
        have hcleared : Steady s (s.modEngine t fun e => { e with frzRun := none }) := steady_modTile s t fun _ => rfl
        split
        · exact hcleared.trans (steady_ring ..)
        · exact hcleared
    · exact Steady.refl s
  · exact Steady.refl s

theorem steady_completeEpisode (s : State) (a : Arrival) (e : Episode) (ret : List (Arrival × Clock)) :
    Steady s (s.completeEpisode a e ret) := by
  unfold State.completeEpisode
  exact List.foldlRecOn _ _ (steady_of_eq rfl rfl) fun u hu _ _ => hu.trans (steady_of_eq rfl rfl)

theorem steady_countRetired (s : State) (a : Arrival) (k : Clock) : Steady s (s.countRetired a k) := by
  unfold State.countRetired State.testEpisode
  split
  · exact steady_of_eq rfl rfl
  · dsimp only
    split
    · exact (steady_of_eq rfl rfl).trans (steady_completeEpisode ..)
    · exact steady_of_eq rfl rfl

theorem steady_tellNodes (s : State) (t c : Nat) : Steady s (s.tellNodes t c) := by
  unfold State.tellNodes
  exact List.foldlRecOn _ _ (steady_countRetired ..) fun u hu _ _ => hu.trans (steady_send ..)

/-- A launch with one task less to retire, which ended with a code. -/
def oneLess (code : W32) (die : Clock) (task : Nat) (l : Launch) : Launch :=
  { l with
    left := l.left - 1, clock := l.clock.merge die, nzx := if code = 0 then l.nzx else l.nzx + 1,
    lowidx := if code = 0 then l.lowidx else some (min task (l.lowidx.getD task)) }

theorem id_oneLess (code : W32) (die : Clock) (task : Nat) (l : Launch) : (oneLess code die task l).id = l.id := rfl

/-- The launch is complete if none of its tasks is left. -/
def completeIfDone (s : State) (i : Nat) : State :=
  match s.launch? i with
  | some l => if l.left = 0 then s.completeLaunch l else s
  | none => s

/-- Without launch i, and without what the distributor and the nodes hold of it. -/
def withoutLaunch (s : State) (i : Nat) : State :=
  { s with
    launches := s.launches.filter fun x => decide (x.id ≠ i), parcels := tabDel s.parcels i,
    episodes := s.episodes.filter fun e => !(decide (e.scope ≠ 5) && decide (e.launch = i)),
    reports := s.reports.filter fun e => !(decide (e.scope ≠ 5) && decide (e.launch = i)),
    retiredTasks := s.retiredTasks.filter fun e => !(decide (e.1.scope ≠ 5) && decide (e.1.launch = i)) }

theorem bookkeeping_completeLaunch (s : State) (l : Launch) : Bookkeeping (withoutLaunch s l.id) (s.completeLaunch l) := by
  unfold State.completeLaunch
  dsimp only
  refine Bookkeeping.trans ?_ ((bookkeeping_setStatus ..).trans (bookkeeping_setClass _))
  have hmerged : Bookkeeping (withoutLaunch s l.id) ((withoutLaunch s l.id).mergeDie 8 l.clock) := rfl
  split
  · exact hmerged.trans (bookkeeping_send ..)
  split
  · refine Bookkeeping.trans ?_ (bookkeeping_checkTlarm ..)
    exact hmerged.trans rfl
  · exact hmerged

theorem tiles_completeIfDone (s : State) (i : Nat) : (completeIfDone s i).tiles = s.tiles := by
  unfold completeIfDone
  split
  · split
    · exact (bookkeeping_completeLaunch ..).tiles
    · rfl
  · rfl

theorem id_of_launch? {s : State} {i : Nat} {l : Launch} (h : s.launch? i = some l) : l.id = i := by
  simpa using List.find?_some h

/-- A launch with no task left is resident no more. -/
theorem launch?_completeIfDone_done {s : State} {i : Nat} {l : Launch} (h : s.launch? i = some l) (h0 : l.left = 0) :
    (completeIfDone s i).launch? i = none := by
  have hid := id_of_launch? h
  simp only [completeIfDone, h, if_pos h0]
  rw [State.launch?, (bookkeeping_completeLaunch s l).launches, withoutLaunch]
  simp [hid]

theorem launch?_completeIfDone_left {s : State} {i : Nat} {l : Launch} (h : s.launch? i = some l) (h0 : l.left ≠ 0) :
    (completeIfDone s i).launch? i = some l := by
  simp only [completeIfDone, h, if_neg h0]

theorem launch?_modLaunch {s : State} {i : Nat} {f : Launch → Launch} (hf : ∀ l, (f l).id = l.id) :
    (s.modLaunch i f).launch? i = (s.launch? i).map f := by
  simp only [State.launch?, State.modLaunch]
  induction s.launches with
  | nil => rfl
  | cons l ls ih =>
    by_cases h : l.id = i
    · simp [h, hf]
    · simp [h, ih]

section
variable (s : State) (t c : Nat) (code : W32)

/-- Its freeze record and its nodes are served first, then the context goes and its launch counts it. -/
theorem countTask_eq : ∃ v, Steady s v ∧ ∃ die, s.countTask t c code
    = (completeIfDone ((v.delCtx t c).modLaunch (s.ctx t c).launch (oneLess code die (s.ctx t c).task))
        (s.ctx t c).launch).wantAttempt :=
  ⟨(s.flushFreezeOf t c).tellNodes t c, (steady_flushFreezeOf ..).trans (steady_tellNodes ..), _, rfl⟩

theorem ctx?_delCtx : (s.delCtx t c).ctx? t c = none := by
  rw [State.delCtx, State.ctx?, State.tile_modTile_same, tabGet?_del_same]

theorem steady_delCtx : Steady s (s.delCtx t c) := steady_modTile s t fun _ => rfl

theorem tiles_countTask : ∃ v, Steady s v ∧ (s.countTask t c code).tiles = (v.delCtx t c).tiles := by
  obtain ⟨v, hv, die, h⟩ := countTask_eq s t c code
  refine ⟨v, hv, ?_⟩
  rw [h, (bookkeeping_wantAttempt _).tiles, tiles_completeIfDone]
  rfl

/-- A task that has been counted has left its context. -/
theorem ctx?_countTask : (s.countTask t c code).ctx? t c = none := by
  obtain ⟨v, -, h⟩ := tiles_countTask s t c code
  rw [← ctx?_delCtx v t c]
  simp only [State.ctx?, State.tile, h]

theorem cache_countTask (x : Nat) : ((s.countTask t c code).tile x).cache = (s.tile x).cache := by
  obtain ⟨v, hv, h⟩ := tiles_countTask s t c code
  rw [← (hv.trans (steady_delCtx v t c)).2 x]
  simp only [State.tile, h]

end

/-- The last task completes its launch; before that, each leaves one less, and counts its exit code. -/
theorem launch?_countTask {s : State} {t c : Nat} {code : W32} {l : Launch} (hl : s.launch? (s.ctx t c).launch = some l) :
    (l.left ≤ 1 → (s.countTask t c code).launch? (s.ctx t c).launch = none)
      ∧ (1 < l.left → ∃ k, (s.countTask t c code).launch? (s.ctx t c).launch = some k ∧ k.left = l.left - 1
        ∧ k.nzx = if code = 0 then l.nzx else l.nzx + 1) := by
  obtain ⟨v, hv, die, h⟩ := countTask_eq s t c code
  have hwant (u : State) (i : Nat) : u.wantAttempt.launch? i = u.launch? i := by
    simp only [State.launch?, (bookkeeping_wantAttempt u).launches]
  have hcounted : ((v.delCtx t c).modLaunch (s.ctx t c).launch (oneLess code die (s.ctx t c).task)).launch? (s.ctx t c).launch
      = some (oneLess code die (s.ctx t c).task l) := by
    have hsame : (v.delCtx t c).launch? (s.ctx t c).launch = some l := by
      rw [← hl]
      simp only [State.launch?, (hv.trans (steady_delCtx v t c)).1]
    rw [launch?_modLaunch (id_oneLess code die _), hsame, Option.map_some]
  rw [h, hwant]
  refine ⟨fun hlast => launch?_completeIfDone_done hcounted (Nat.sub_eq_zero_of_le hlast), fun hmore => ?_⟩
  exact ⟨_, launch?_completeIfDone_left hcounted (Nat.sub_ne_zero_of_lt hmore), rfl, rfl⟩

/-! ### Retirement (R56, R57) -/

section
variable {s : State} {t c : Nat}

/-- A task that drains is resident: it has not been dumped. -/
theorem endDone_of_drained (h : s.drained t c = true) : s.endDone t c = false := by
  simp only [State.drained, Bool.and_eq_true, decide_eq_true_eq] at h
  obtain ⟨⟨⟨⟨⟨-, hst⟩, -⟩, -⟩, -⟩, -⟩ := h
  simp [State.endDone, hst]

theorem exec_taskRetirement_ended (h : At s t c) (he : s.endDone t c = true) :
    exec .taskRetirement s = .next (s.countTask t c 0xFFFFFFFF) := by
  obtain ⟨rfl, rfl, -⟩ := h
  rw [exec_taskRetirement, execTaskRetirement, if_pos he, State.finishEnd, if_pos he]

theorem exec_taskRetirement_counted (h : At s t c) (hd : s.drained t c = true) (hw : (s.ctx t c).wroteBack = true) :
    exec .taskRetirement s = .next (s.countTask t c ((s.ctx t c).exit.getD 0)) := by
  obtain ⟨rfl, rfl, -⟩ := h
  rw [exec_taskRetirement, execTaskRetirement]
  simp [endDone_of_drained hd, hd, hw]

/-- The write-backs leave; a task that need not wait for them is counted at once. -/
theorem exec_taskRetirement_writesBack (h : At s t c) (hd : s.drained t c = true) (hw : (s.ctx t c).wroteBack = false) :
    exec .taskRetirement s = .next (if (writtenBack s t c).drained t c then
      (writtenBack s t c).countTask t c ((s.ctx t c).exit.getD 0) else writtenBack s t c) := by
  obtain ⟨rfl, rfl, -⟩ := h
  rw [exec_taskRetirement, execTaskRetirement]
  simp only [endDone_of_drained hd, hd, hw, Bool.false_eq_true, if_false, Bool.not_true]
  exact (apply_ite _ _ _ _).symm

/-- Draining looks at the context and at the messages in flight. -/
theorem drained_of_ctx {u : State} (hctx : u.ctx t c = { s.ctx t c with wroteBack := true, backs := [] }) (hnet : u.net = s.net)
    (hd : s.drained t c = true) : u.drained t c = true := by
  simp only [State.drained, State.outstanding, State.msg?, hctx, hnet, Bool.and_eq_true, List.all_nil, and_true] at hd ⊢
  exact hd.1

/-- With no counters, no hotness readout and no write-back under way, there is nothing to wait for. -/
theorem drained_writtenBack (hcache : ∀ x, x ∈ (s.tile t).cache → x.launch ≠ (s.ctx t c).launch) (hhot : recHotVa (s.recOf t c) = 0)
    (hbacks : s.backsOf t (s.ctx t c).launch = []) (hd : s.drained t c = true) : (writtenBack s t c).drained t c = true := by
  have hctx : (withoutCounters s t (s.ctx t c).launch).ctx t c = s.ctx t c := by
    rw [withoutCounters, State.ctx, State.tile_modTile_same]
    rfl
  have hquiet : (withoutCounters s t (s.ctx t c).launch).writeHotness t c = withoutCounters s t (s.ctx t c).launch := by
    refine if_pos ?_
    rw [State.recOf, hctx]
    exact hhot
  refine drained_of_ctx ?_ ?_ hd
  · rw [writtenBack, flushCounters_none c hcache, hquiet, State.ctx_modCtx_same, hctx]
    exact congrArg (fun l => { s.ctx t c with wroteBack := true, backs := l }) hbacks
  · rw [writtenBack, flushCounters_none c hcache, hquiet]
    rfl

end

end Sys2Proof.Proofs
end

section
/-! PROOF of the statement of the launch unit (O47), a clause for each of its rows. -/

namespace Sys2Proof.Proofs

open Sys2Proof.Machine Sys2Proof.Safety

/-- Settles O47: each row of the launch unit is one of the equations above, and its clause what they leave. -/
theorem launchUnitRows : Obligations.LaunchUnitRows := by
  refine ⟨fun s f q => ⟨fun hboot => ?inBoot, fun hboot hfull => ?dropped, fun hboot hroom => ?entered⟩,
    fun s q x l hrecs hv hsub => ⟨fun hcode => ?validated, fun hcode => ?rejected⟩, fun s hheads => ?noHead,
    fun s q x hheads hcode => ⟨fun hp => ?waits, fun tiles v f hp hf => ?starts, fun tiles hp hinit himage => ?startStates⟩,
    fun s q x l y r hb hold hrecs => ?blocking, fun s t c h hd hw => ?counted, fun s t c h hd hw => ?writesBack,
    fun s t c h he => ?ended, fun s f q v hf => ?tlarm, fun s q v => ?qown⟩
  case inBoot => exact ⟨s, exec_doorbell_inBoot hboot, rfl⟩
  case dropped =>
    have hq := State.queue_modQueue s q fun y => { y with drops := y.drops + 1 }
    exact ⟨_, exec_doorbell_full hboot hfull, (congrArg LQueue.drops hq :), (congrArg LQueue.recs hq :),
      (congrArg LQueue.entered hq :), rfl⟩
  case entered =>
    have hq := queue_enterRecord s q (s.queue q).stage (s.dieClock 8) [] none (decide (f ≤ 16))
    refine ⟨_, exec_doorbell_enters hboot hroom, (congrArg LQueue.entered hq :), (congrArg LQueue.drops hq :),
      ⟨_, (congrArg LQueue.recs hq :), rfl, rfl, rfl, rfl, rfl, rfl, ?_⟩, rfl⟩
    simp only [entering, List.isEmpty_iff]
  case validated =>
    obtain ⟨w, hexec⟩ := exec_launchHeadValidation_valid hrecs hv hsub hcode
    have hq := State.queue_modQueue s q fun y => { y with recs := { x with valid := true } :: l }
    exact ⟨_, hexec, (congrArg LQueue.recs hq :), rfl⟩
  case rejected =>
    exact ⟨_, exec_launchHeadValidation_rejected hrecs hv hsub hcode, numbers_rejectHead hrecs _, status_rejectHead _,
      (bookkeeping_rejectHead ..).mem⟩
  case noHead => exact ⟨s, exec_allocationAttempt_none hheads, rfl⟩
  case waits => exact ⟨s, exec_allocationAttempt_waits hheads hcode hp, rfl⟩
  case starts =>
    have hfetch : Places s v := by
      have := places_fetchLaunch s x.record tiles
      rwa [hf] at this
    refine ⟨_, exec_allocationAttempt_starts hheads hcode hp hf,
      ⟨begun v q x tiles, ?_, hfetch.nextLaunch, rfl, rfl, rfl, rfl, hfetch.now⟩, ?_⟩
    · rw [launches_startLaunch, hfetch.launches]
    · rw [nextLaunch_startLaunch, hfetch.nextLaunch]
  case startStates =>
    refine ⟨_, exec_allocationAttempt_starts hheads hcode hp (fetchLaunch_resident hinit himage),
      ⟨begun s q x tiles, launches_startLaunch .., rfl, rfl, rfl, rfl, rfl, rfl⟩, fun j k t c ht hk hc => ?_⟩
    exact ctx?_startLaunch s q x tiles _ _ (nodup_placement hp) ht hk hc
  case blocking =>
    exact ⟨_, exec_blockingHead_oldest hb hold hrecs, congrArg LQueue.recs (State.queue_modQueue s q _), rfl⟩
  case counted =>
    exact ⟨_, exec_taskRetirement_counted h hd hw, ctx?_countTask .., fun l hl => launch?_countTask hl⟩
  case writesBack =>
    have hgone : ∀ x, x ∈ ((writtenBack s t c).tile t).cache → x.launch ≠ (s.ctx t c).launch := fun x hx => by
      rw [cache_writtenBack] at hx
      simpa using (List.mem_filter.1 hx).2
    refine ⟨_, exec_taskRetirement_writesBack h hd hw, ?_⟩
    split
    · refine ⟨.inl (ctx?_countTask ..), ?_, fun _ _ _ => ctx?_countTask ..⟩
      rw [cache_countTask]
      exact hgone
    · next hwaits =>
      exact ⟨.inr ⟨wroteBack_writtenBack, launches_writtenBack⟩, hgone,
        fun hcache hhot hbacks => absurd (drained_writtenBack hcache hhot hbacks hd) hwaits⟩
  case ended => exact ⟨_, exec_taskRetirement_ended h he, ctx?_countTask ..⟩
  case tlarm =>
    by_cases hreached : v ≠ 0 ∧ v ≤ (s.queue q).timeline
    · have hcleared := State.queue_modQueue (s.modQueue q fun x => { x with tlarm := v }) q fun x => { x with tlarm := 0 }
      exact ⟨_, exec_tlarmWrite_fires hf hreached.1 hreached.2,
        fun _ => ⟨(congrArg LQueue.tlarm hcleared :), sent_msix⟩,
        fun h => absurd hreached h, rfl⟩
    · exact ⟨_, exec_tlarmWrite_waits hf hreached, fun h => absurd h hreached,
        fun _ => ⟨congrArg LQueue.tlarm (State.queue_modQueue s q _), rfl⟩, rfl⟩
  case qown =>
    by_cases hfree : (s.queue q).recs = [] ∧ ∀ l, l ∈ s.launches → l.queue ≠ q
    · refine ⟨_, exec_qownWrite_taken hfree.1 hfree.2, ?_, rfl⟩
      rw [State.queue_modQueue, if_pos hfree]
    · refine ⟨s, exec_qownWrite_ignored hfree, ?_, rfl⟩
      rw [if_neg hfree]

end Sys2Proof.Proofs
end

section
/-! PROOFS that a step keeps the memories in canonical form: the rules of the operations on the state, of a
stop and of a fault.

One lemma for each function of the model that gives a state or an outcome: it leaves a canonical state canonical. The
lemmas stand in the namespace of `State.Canon`, so a proof names the operations of a function in the order in which it
applies them (`hc.modCtx.send`). Only the writes of memory (`writeLocal`, `hbmSet`, `hostPoke` and what is made of
them) touch what the form speaks of; every other operation leaves `mem` and `hostMem` as they are. -/

namespace Sys2Proof.Machine

/-- What an outcome leaves is canonical: a fault or a refusal leaves no state. -/
def Out.Canon : Out → Prop
  | .next u => u.Canon
  | .fault _ => True
  | .refused _ => True

/-- The state of a move that may not be possible, where there is one, is canonical. -/
def OptCanon : Option State → Prop
  | some u => u.Canon
  | none => True

theorem OptCanon.of_some {o : Option State} {u : State} (e : o = some u) (hc : OptCanon o) : u.Canon := by
  rwa [e] at hc

/-- What is quiet leaves both memories as they were (`State.Quiet`). -/
theorem State.Quiet.canon {s u : State} (q : s.Quiet u) (hc : s.Canon) : u.Canon := hc.of_eq q.1 q.2.1

namespace State.Canon
variable {s u : State} {t c : Nat}

theorem ite {p : Prop} [Decidable p] (hc : s.Canon) (hu : u.Canon) : (if p then s else u).Canon := by
  split
  · exact hc
  · exact hu

theorem of_fst {α : Type} {p : State × α} {r : α} (e : p = (u, r)) (hc : p.1.Canon) : u.Canon := by
  rwa [e] at hc

theorem of_snd {α : Type} {p : α × State} {r : α} (e : p = (r, u)) (hc : p.2.Canon) : u.Canon := by
  rwa [e] at hc

theorem foldl {α : Type} {f : State → α → State} {l : List α} (hc : s.Canon)
    (hf : ∀ u x, u.Canon → (f u x).Canon) : (l.foldl f s).Canon := by
  induction l generalizing s with
  | nil => exact hc
  | cons x l ih => exact ih (hf s x hc)

theorem foldlPair {α β : Type} {f : State × β → α → State × β} {l : List α} {b : β} (hc : s.Canon)
    (hf : ∀ v x, v.1.Canon → (f v x).1.Canon) : (l.foldl f (s, b)).1.Canon := by
  suffices h : ∀ v : State × β, v.1.Canon → (l.foldl f v).1.Canon from h _ hc
  induction l with
  | nil => exact fun _ h => h
  | cons x l ih => exact fun v h => ih _ (hf v x h)

theorem noteEcc {l : List Nat} (hc : s.Canon) : (s.noteEcc l).Canon := (s.quiet_noteEcc l).canon hc

theorem translate {a : W16} {va : W64} {n : Need} (hc : s.Canon) : (s.translate t a va n).1.Canon :=
  (s.quiet_translate t a va n).canon hc

theorem send {d : Nat} {k : Home} {b : Body} {l : List Nat} {o : Option (Nat × Nat)} {va : W64} (hc : s.Canon) :
    (s.send d k b l o va).1.Canon :=
  (s.quiet_send d k b l o va).canon hc

theorem postBytes {d : Dest} {l : List Byte} {f : Option Nat} {o : List Nat} (hc : s.Canon) :
    (s.postBytes t c d l f o).1.Canon :=
  hc.send

theorem record {r : FaultRec} (hc : s.Canon) : (s.record t c r).1.Canon := (s.quiet_record t c r).canon hc

theorem event {code reason : Nat} {arg : W64} (hc : s.Canon) : (s.event t c code reason arg).Canon :=
  (s.quiet_event t c code reason arg).canon hc

theorem setTile {x : Tile} (hc : s.Canon) : (s.setTile t x).Canon := hc
theorem modTile {f : Tile → Tile} (hc : s.Canon) : (s.modTile t f).Canon := hc.setTile
theorem modEngine {f : Engine → Engine} (hc : s.Canon) : (s.modEngine t f).Canon := hc.modTile
theorem setCtx {x : Ctx} (hc : s.Canon) : (s.setCtx t c x).Canon := hc.modTile
theorem modCtx {f : Ctx → Ctx} (hc : s.Canon) : (s.modCtx t c f).Canon := hc.setCtx
theorem modHart {f : Hart → Hart} (hc : s.Canon) : (s.modHart t c f).Canon := hc.modCtx
theorem modBun {f : Bun → Bun} (hc : s.Canon) : (s.modBun t c f).Canon := hc.modCtx
theorem modDbg {f : Debug → Debug} (hc : s.Canon) : (s.modDbg t c f).Canon := hc.modCtx
theorem delCtx (hc : s.Canon) : (s.delCtx t c).Canon := hc.modTile
theorem modPage {f : Nat} {g : FnPage → FnPage} (hc : s.Canon) : (s.modPage f g).Canon := hc
theorem modQueue {q : Nat} {g : LQueue → LQueue} (hc : s.Canon) : (s.modQueue q g).Canon := hc
theorem setSem {g : Nat} {x : Sem} (hc : s.Canon) : (s.setSem t g x).Canon := hc.modTile
theorem bumpFree (hc : s.Canon) : s.bumpFree.Canon := hc
theorem modSite {p : Nat} {f : Site → Site} (hc : s.Canon) : (s.modSite p f).Canon := hc
theorem modLaunch {i : Nat} {f : Launch → Launch} (hc : s.Canon) : (s.modLaunch i f).Canon := hc
theorem clearEcc {as : List Nat} (hc : s.Canon) : (s.clearEcc as).Canon := hc

theorem hostSend {fn a : Nat} {data : List (Option Byte)} (hc : s.Canon) : (s.hostSend fn a data).Canon := by
  unfold State.hostSend
  refine hc.foldl fun u e hu => ?_
  split
  · exact hu.hostPoke ..
  · exact hu

theorem setDieClock {d : Nat} {c : Clock} (hc : s.Canon) : (s.setDieClock d c).Canon := hc
theorem mergeDie {d : Nat} {c : Clock} (hc : s.Canon) : (s.mergeDie d c).Canon := hc.setDieClock
theorem acquire {k : Clock} (hc : s.Canon) : (s.acquire t c k).Canon := hc.mergeDie.modHart
theorem keepLeft {k : Clock} (hc : s.Canon) : (s.keepLeft t c k).Canon := hc.ite hc.modCtx
theorem tickDie {d : Nat} (hc : s.Canon) : (s.tickDie d).Canon := hc.setDieClock
theorem setFrontier {h : Home} {c : Clock} (hc : s.Canon) : (s.setFrontier h c).Canon := .ite hc hc
theorem setLine {h : Home} {line : Nat} {c : Clock} (hc : s.Canon) : (s.setLine h line c).Canon := hc
theorem post {m : Msg} (hc : s.Canon) : (s.post m).1.Canon := hc

theorem sendQuiet {src : Nat} {home : Home} {body : Body} {after : List Nat} {own : Option (Nat × Nat)}
    {va : W64} (hc : s.Canon) : (s.sendQuiet src home body after own va).1.Canon :=
  hc.post

theorem dropMsg {id : Nat} (hc : s.Canon) : (s.dropMsg id).Canon := hc
theorem push {l : List Work} (hc : s.Canon) : (s.push l).Canon := hc
theorem msix {f v : Nat} (hc : s.Canon) : (s.msix f v).Canon := hc.modPage

theorem ring {f : Nat} {r : RingRec} (hc : s.Canon) : (s.ring f t r).Canon :=
  hc.ite (hc.modPage.ite hc.send.modPage.modTile)

theorem drainItems (hc : s.Canon) : (s.drainItems t c).Canon := hc.modEngine.modCtx
theorem leaveTurn (hc : s.Canon) : (s.leaveTurn t c).Canon := hc.modEngine
theorem dropLoop (hc : s.Canon) : (s.dropLoop t c).Canon := hc.modEngine
theorem setX {r : BitVec 5} {v : W64} (hc : s.Canon) : (s.setX t c r v).Canon := hc.ite hc.modHart

theorem hartBoundary (hc : s.Canon) : (s.hartBoundary t c).Canon := by
  unfold State.hartBoundary
  split
  · exact hc.modHart
  · split
    · split
      · exact hc.acquire.dropMsg.setX.modHart
      · exact hc.acquire.dropMsg.setX.modHart
      · exact hc.dropMsg.modHart
    · exact .modHart (.ite hc hc)

theorem haltNow {code slot : Nat} {caught : Bool} (hc : s.Canon) : (s.haltNow t c code slot caught).Canon :=
  hc.hartBoundary.modDbg.ite hc.drainItems.leaveTurn.hartBoundary.modDbg.push

theorem fatal {r : Stop} (hc : s.Canon) : (s.fatal t c r).Canon := by
  unfold State.fatal
  refine .ite hc (.ite (hc.modCtx.ite hc.modCtx) (.ite hc ?_))
  with_reducible exact .event (.modCtx hc.drainItems.leaveTurn.dropLoop.hartBoundary)

theorem takeStop {r : Stop} (hc : s.Canon) : (s.takeStop t c r).Canon :=
  (hc.modCtx.modCtx.ite hc.modCtx).haltNow.ite hc.fatal

theorem charge {slots : List Nat} {cause : Cause} {owner pc : Nat} (hc : s.Canon) :
    (s.charge t slots cause owner pc).Canon :=
  hc.modTile

theorem raise {cause : Nat} {tval : W64} (hc : s.Canon) : (s.raise t c cause tval).Canon := hc.charge.takeStop
theorem illegal (hc : s.Canon) : (s.illegal t c).Canon := hc.raise
theorem takeFempty {addr : W64} (hc : s.Canon) : (s.takeFempty t c addr).Canon := hc.modHart
theorem returnFempty (hc : s.Canon) : (s.returnFempty t c).Canon := hc.modHart

theorem park {r : FaultRec} {src : Nat} (hc : s.Canon) : (s.park t c r src).1.Canon := by
  unfold State.park
  extract_lets x stop
  split
  · exact hc.takeStop
  · split
    next e => exact (of_fst e hc.record).modCtx
    next e => exact (of_fst e hc.record).fatal

theorem cdata {arg : W64} {queue sector : Nat} {va : W64} {wr : Bool} (hc : s.Canon) :
    (s.cdata t c arg queue sector va wr).Canon :=
  hc.ite (hc.takeStop.ite hc.record)

theorem breakReservations {a n : Nat} {by' : Option Nat} (hc : s.Canon) :
    (s.breakReservations t a n by').Canon :=
  hc.modTile

theorem modSem {g : Nat} {f : Sem → Sem} (hc : s.Canon) : (s.modSem t g f).Canon :=
  hc.setSem.breakReservations

theorem creditSem {g v : Nat} {k : Clock} (hc : s.Canon) : (s.creditSem t g v k).Canon := hc.modSem

theorem armSem {g : Nat} {target : W32} {zero : Bool} (hc : s.Canon) : (s.armSem t g target zero).Canon :=
  hc.modSem

theorem withCtx {f : Ctx → Out} (_hc : s.Canon) (hf : ∀ x, Out.Canon (f x)) : Out.Canon (s.withCtx t c f) := by
  unfold State.withCtx
  split
  · exact hf _
  · trivial

theorem later {l : List Work} (hc : s.Canon) : (s.later l).Canon := hc

end State.Canon

end Sys2Proof.Machine
end

section
/-! PROOFS that a step keeps the memories in canonical form: the rows of the bundle slots and the turns of
their engine. -/

namespace Sys2Proof.Machine

namespace State.Canon
variable {s u : State} {t c : Nat}

theorem stopSlot {v : Env} {code reason : Nat} {addr : W64} (hc : s.Canon) :
    (s.stopSlot v code reason addr).Canon :=
  hc.modEngine.takeStop

theorem issue {v : Env} {lat : Nat} {k : ItemKind} (hc : s.Canon) : (s.issue v lat k).Canon := hc.modEngine
theorem srAdvance {v : Env} (hc : s.Canon) : (s.srAdvance v).Canon := hc.modBun

/-- A row of a bundle slot keeps the canonical form when what it does with its state does. -/
theorem slotRun {i : Instr} {f : Env → State → State} (hc : s.Canon) (hf : ∀ v u, u.Canon → (f v u).Canon) :
    Out.Canon (s.slotRun i f) := by
  unfold State.slotRun
  refine hc.withCtx fun _ => ?_
  extract_lets v u
  have hu : u.Canon := hc.bumpFree.ite hc
  split
  · exact hu.stopSlot
  · split
    · exact hu.srAdvance.ite hu
    · exact hf _ _ hu

theorem issueS {v : Env} {lat : Nat} {sd : BitVec 6} {r : W64} (hc : s.Canon) : (s.issueS v lat sd r).Canon :=
  hc.issue

theorem issueK {v : Env} {kd : BitVec 3} {b : Bool} (hc : s.Canon) : (s.issueK v kd b).Canon := hc.issue
theorem issueA {v : Env} {ad : BitVec 4} {r : W32} (hc : s.Canon) : (s.issueA v ad r).Canon := hc.issue

theorem issueV {v : Env} {lat : Nat} {d : BitVec 7} {mask : Mask} {data : Lanes} {flags : BitVec 5}
    (hc : s.Canon) : (s.issueV v lat d mask data flags).Canon :=
  hc.issue

theorem issueP {v : Env} {lat : Nat} {pd : BitVec 4} {mask bits : Mask} {flags : BitVec 5} (hc : s.Canon) :
    (s.issueP v lat pd mask bits flags).Canon :=
  hc.issue

theorem scalarRR {i : Instr} {g : SR} {f : W64 → W64 → W64} (hc : s.Canon) : Out.Canon (scalarRR i g f s) :=
  hc.slotRun fun _ _ hu => hu.issueS

theorem scalarR {i : Instr} {g : SU} {f : W64 → W64} (hc : s.Canon) : Out.Canon (scalarR i g f s) :=
  hc.slotRun fun _ _ hu => hu.issueS

theorem scalarRI {i : Instr} {g : SI} {f : W64 → W64 → W64} (hc : s.Canon) : Out.Canon (scalarRI i g f s) :=
  hc.slotRun fun _ _ hu => hu.issueS

theorem scalarSh {i : Instr} {g : SSh} {f : W64 → Nat → W64} (hc : s.Canon) : Out.Canon (scalarSh i g f s) :=
  hc.slotRun fun _ _ hu => hu.issueS

theorem scalarCmp {i : Instr} {g : SC} {c : Cmp} (hc : s.Canon) : Out.Canon (scalarCmp i g c s) :=
  hc.slotRun fun _ _ hu => hu.issueK

theorem scalarCmpI {i : Instr} {g : SCI} {c : Cmp} (hc : s.Canon) : Out.Canon (scalarCmpI i g c s) :=
  hc.slotRun fun _ _ hu => hu.issueK

theorem scalarFlag {i : Instr} {g : SK} {f : Bool → Bool → Bool} (hc : s.Canon) :
    Out.Canon (scalarFlag i g f s) :=
  hc.slotRun fun _ _ hu => hu.issueK

theorem vec2 {i : Instr} {g : V3} {f : W32 → W32 → W32} (hc : s.Canon) : Out.Canon (vec2 i g f s) :=
  hc.slotRun fun _ _ hu => hu.issueV

theorem fpLanes {v : Env} {lat : Nat} {d : BitVec 7} {mask : Mask} {f : Nat → W32 × FFlags} (hc : s.Canon) :
    (fpLanes s v lat d mask f).Canon :=
  hc.issueV

theorem fpArith {i : Instr} {g : VF} {o : FpOp} (hc : s.Canon) : Out.Canon (fpArith i g o s) :=
  hc.slotRun fun _ _ hu => hu.fpLanes

theorem fpSel {i : Instr} {g : VF} {big num : Bool} (hc : s.Canon) : Out.Canon (fpSel i g big num s) :=
  hc.slotRun fun _ _ hu => hu.fpLanes

theorem fpCompare {i : Instr} {g : VFC} {o : FpCmp} (hc : s.Canon) : Out.Canon (fpCompare i g o s) :=
  hc.slotRun fun _ _ hu => hu.issueP

theorem vecCmp {i : Instr} {g : VC} {c : Cmp} (hc : s.Canon) : Out.Canon (vecCmp i g c s) :=
  hc.slotRun fun _ _ hu => hu.issueP

theorem predLogic {i : Instr} {g : PL} {f : Mask → Mask → Mask} (hc : s.Canon) :
    Out.Canon (predLogic i g f s) :=
  hc.slotRun fun _ _ hu => hu.issueP

theorem vecMap {i : Instr} {pr : BitVec 4} {d a : BitVec 7} {f : Lanes → Nat → W32} (hc : s.Canon) :
    Out.Canon (vecMap i pr d a f s) :=
  hc.slotRun fun _ _ hu => hu.issueV

theorem approx {i : Instr} {g : V2} {f : Val → Approx} (hc : s.Canon) : Out.Canon (approx i g f s) :=
  hc.slotRun fun _ _ hu => hu.fpLanes

theorem loadLanes {v : Env} {pr : BitVec 4} {d : BitVec 7} {acc lat : Nat} {l : List (Nat × Int)}
    (hc : s.Canon) : (s.loadLanes v pr d acc lat l).Canon := by
  unfold State.loadLanes
  split
  · exact hc.stopSlot
  · exact hc.issue

theorem storeLanes {v : Env} {d : BitVec 7} {acc : Nat} {l : List (Nat × Int)} (hc : s.Canon) :
    (s.storeLanes v d acc l).Canon := by
  unfold State.storeLanes
  split
  · exact hc.stopSlot
  · exact hc.issue

theorem execSpill {g : MSp} (hc : s.Canon) : Out.Canon (execSpill g s) := by
  unfold Machine.execSpill
  refine hc.slotRun fun v u hu => ?_
  split
  · exact hu.stopSlot
  · exact hu.issue
  · exact hu.storeLanes

theorem execFill {g : MSp} (hc : s.Canon) : Out.Canon (execFill g s) := by
  unfold Machine.execFill
  refine hc.slotRun fun v u hu => ?_
  split
  · exact hu.stopSlot
  · exact hu.issue
  · exact hu.loadLanes

theorem acquireSem {g : Nat} (hc : s.Canon) : (s.acquireSem t c g).Canon := hc.mergeDie.keepLeft
theorem holdBundle {v : Env} (hc : s.Canon) : (s.holdBundle v).Canon := hc.modEngine

theorem execMsetC {ent a : BitVec 4} (hc : s.Canon) : Out.Canon (execMsetC ent a s) := by
  unfold Machine.execMsetC
  refine hc.slotRun fun v u hu => ?_
  dsimp only
  split
  · exact hu.stopSlot
  · exact hu.stopSlot.ite (hu.stopSlot.ite hu.issue)

theorem mmaRun {i : Instr} {g : XM} {accum : Bool} (hc : s.Canon) : Out.Canon (mmaRun i g accum s) := by
  unfold Machine.mmaRun
  refine hc.slotRun fun v u hu => ?_
  extract_lets code ent fa fb prof pf
  refine .ite hu.stopSlot (.ite hu.stopSlot ?_)
  split
  · exact hu.stopSlot
  · split
    · extract_lets o gs
      split
      · exact hu.stopSlot
      · refine .ite hu.stopSlot (.ite hu.stopSlot (.ite hu.stopSlot ?_))
        split
        · exact hu.stopSlot
        · exact hu.modBun.issue.issue.issue
    · exact hu.stopSlot

theorem execMdrain {g : XD} (hc : s.Canon) : Out.Canon (execMdrain g s) := by
  unfold Machine.execMdrain
  refine hc.slotRun fun v u hu => .ite hu.stopSlot (.ite hu.stopSlot (.ite hu.stopSlot ?_))
  split
  · exact hu.stopSlot
  · exact hu.stopSlot.ite (hu.stopSlot.ite (hu.stopSlot.ite ((hu.srAdvance.ite hu).issue.issue.issue)))

theorem writeBack {x : Delta} (hc : s.Canon) : (s.writeBack t c x).Canon := by
  unfold State.writeBack
  refine .ite hc ?_
  dsimp only
  split
  next e => exact (of_fst e hc.translate).event
  next e => exact (of_fst e hc.translate).send

theorem flushCounters {l : Nat} (hc : s.Canon) : (s.flushCounters t c l).Canon :=
  hc.modTile.foldl fun _ _ hu => hu.writeBack

theorem countBlock {l n : Nat} (hc : s.Canon) : (s.countBlock t c l n).Canon :=
  hc.modTile.writeBack.ite ((hc.modTile.foldl fun _ _ hu => hu.writeBack).ite hc.modTile)

theorem openResult {i : Item} (hc : s.Canon) : (s.openResult t i).Canon := hc.bumpFree.modEngine
theorem dropResult {i : Item} (hc : s.Canon) : (s.dropResult t i).Canon := hc.modEngine

theorem stopLate {i : Item} {code reason : Nat} {addr : W64} (hc : s.Canon) :
    (s.stopLate t i code reason addr).Canon :=
  hc.modCtx

theorem land {i : Item} (hc : s.Canon) : (s.land t i).Canon := by
  unfold State.land
  extract_lets u stands v
  have hu : u.Canon := by
    unfold u
    split
    · split
      · exact hc.dropResult.stopLate
      · exact hc.openResult.ite hc
    · exact hc
  have hv : v.Canon := hu.modCtx
  split
  · exact hv.writeLocal ..
  · exact hv

theorem landDue (hc : s.Canon) : (s.landDue t).Canon := hc.modEngine.foldl fun _ _ hu => hu.land

theorem landStops {due : List Item} (hc : s.Canon) : (s.landStops t due).Canon := by
  unfold State.landStops
  refine (hc.foldl (fun u e hu => ?_)).foldl fun _ _ hu => hu.modBun.stopLate.ite hu.modBun
  split
  · exact hu.stopLate
  · exact hu

theorem beginBundle (hc : s.Canon) : (s.beginBundle t).Canon := by
  unfold State.beginBundle
  split
  · exact hc
  · exact hc.modBun

theorem access {i : Item} (hc : s.Canon) : (s.access t i).Canon := by
  unfold State.access
  split
  · exact hc.stopLate
  · split
    · refine .ite ?_ hc.modEngine
      split
      · exact hc.modEngine
      · exact hc
    · exact hc.foldl fun _ _ hu => hu.writeLocal ..
    · exact hc.modEngine
    · exact hc.modEngine.ite hc.send
    · exact hc.armSem
    · exact hc.modEngine
    · exact hc

theorem spillStop {i : Item} {code reason j : Nat} (hc : s.Canon) : (s.spillStop t i code reason j).Canon :=
  hc.stopLate

theorem startSpill {i : Item} (hc : s.Canon) : (s.startSpill t i).Canon := by
  unfold State.startSpill
  split
  · extract_lets u bytes
    have hu : u.Canon := hc.modEngine
    split
    next e => exact (of_fst e hu.translate).spillStop
    next e =>
      have hv := of_fst e hu.translate
      extract_lets h r
      have hr : r.1.Canon := by
        unfold r
        split
        · exact hv.sendQuiet
        · exact hv.send
      exact hr.modEngine
  · exact hc

theorem nextSpill {n ic : Nat} (hc : s.Canon) : (State.nextSpill n s t ic).Canon := by
  induction n generalizing s with
  | zero => exact hc
  | succ n ih =>
    unfold State.nextSpill
    split
    · exact hc
    · split
      · exact ih hc.startSpill
      · exact hc.modEngine

theorem execAccessCycle (hc : s.Canon) : Out.Canon (execAccessCycle s) := by
  unfold Machine.execAccessCycle
  extract_lets t due u v now w l
  have hv : v.Canon := hc.modEngine.foldl fun _ _ hu => hu.access
  have hw : w.Canon := by
    unfold w
    generalize Engine.spillDue _ _ = o
    cases o with
    | none => exact hv
    | some i => exact hv.modEngine.nextSpill
  clear_value l
  split
  · split
    · exact hw.modEngine.push
    · exact hw
  · exact hw

theorem execBankFreeze (hc : s.Canon) : Out.Canon (execBankFreeze s) := by
  unfold Machine.execBankFreeze
  dsimp only
  split
  · trivial
  · exact hc.modEngine

theorem endSpill (hc : s.Canon) : OptCanon (s.endSpill t) := by
  unfold State.endSpill
  split
  · trivial
  · split
    · split
      · split
        · trivial
        · exact hc.modEngine.nextSpill
      · split
        · exact hc.modEngine.mergeDie.keepLeft.spillStop.nextSpill
        · split
          · exact hc.modEngine.mergeDie.keepLeft.modEngine.nextSpill
          · exact hc.modEngine.mergeDie.keepLeft.nextSpill
    · trivial

theorem execSpillAccessDone (hc : s.Canon) : Out.Canon (execSpillAccessDone s) := by
  unfold Machine.execSpillAccessDone
  split
  next e => exact OptCanon.of_some e hc.endSpill
  · trivial

theorem execLateStop (hc : s.Canon) : Out.Canon (execLateStop s) := by
  unfold Machine.execLateStop
  dsimp only
  split
  · trivial
  · exact hc.modCtx.takeStop

theorem execWcol (hc : s.Canon) : Out.Canon (execWcol s) := by
  unfold Machine.execWcol
  refine hc.withCtx fun x => ?_
  split
  · trivial
  · exact hc.charge.takeStop

theorem execFetchFreeze (hc : s.Canon) : Out.Canon (execFetchFreeze s) := by
  unfold Machine.execFetchFreeze
  refine hc.withCtx fun x => ?_
  split
  · trivial
  · exact hc.modEngine

theorem execSwaitRelease (hc : s.Canon) : Out.Canon (execSwaitRelease s) := by
  unfold Machine.execSwaitRelease
  dsimp only
  split
  · exact hc.modEngine
  · trivial

theorem chargeAll {cause : Cause} {owner pc : Nat} (hc : s.Canon) : (s.chargeAll t cause owner pc).Canon :=
  hc.charge

theorem passWen (hc : s.Canon) : (s.passWen t c).Canon := by
  unfold State.passWen
  dsimp only
  split
  · exact hc.ite (hc.modCtx.ite (hc.acquireSem.modCtx.ite hc))
  · exact hc

theorem reinject (hc : s.Canon) : (s.reinject t c).Canon := hc.ite hc.modEngine.modCtx
theorem reinjectIdle (hc : s.Canon) : (s.reinjectIdle t c).Canon := hc.reinject.ite hc
theorem noteEligible (hc : s.Canon) : (s.noteEligible t).Canon := hc.modEngine

theorem execContextSelect (hc : s.Canon) : Out.Canon (execContextSelect s) := by
  unfold Machine.execContextSelect
  dsimp only
  split
  · trivial
  · exact hc.modCtx.modEngine

theorem forceSwitch (hc : s.Canon) : (s.forceSwitch t c).Canon := hc.drainItems.modEngine

theorem execSegmentBudgetSwitch (hc : s.Canon) : Out.Canon (execSegmentBudgetSwitch s) := by
  unfold Machine.execSegmentBudgetSwitch
  dsimp only
  split
  · trivial
  · exact hc.forceSwitch

theorem execRunStart (hc : s.Canon) : Out.Canon (execRunStart s) := by
  unfold Machine.execRunStart
  dsimp only
  split
  · trivial
  · split
    · trivial
    · split
      · exact hc.chargeAll.takeStop
      · exact hc.chargeAll.modCtx.modEngine

theorem leaveRun (hc : s.Canon) : (s.leaveRun t c).Canon := by
  unfold State.leaveRun
  split
  · exact hc
  · exact hc.modCtx.ite (hc.modCtx.modEngine.ite hc.modCtx.send)

theorem execRunComplete (hc : s.Canon) : Out.Canon (execRunComplete s) := by
  unfold Machine.execRunComplete
  dsimp only
  split
  · trivial
  · exact hc.leaveRun.push.ite hc.leaveRun

theorem starve (hc : s.Canon) : (s.starve t).Canon := by
  unfold State.starve
  split <;> exact hc.chargeAll

theorem freezeCycle (hc : s.Canon) : (s.freezeCycle t).Canon := by
  unfold State.freezeCycle
  split
  · exact hc
  · exact (hc.chargeAll.ite hc.starve).modEngine

theorem execDrainIssue (hc : s.Canon) : Out.Canon (execDrainIssue s) := by
  unfold Machine.execDrainIssue
  dsimp only
  split
  · trivial
  · exact hc.chargeAll

theorem throttleCycle (hc : s.Canon) : (s.throttleCycle t).Canon := by
  unfold State.throttleCycle
  extract_lets e
  split
  · exact hc.chargeAll.modEngine
  · split
    · exact hc.chargeAll
    · split
      · exact hc.chargeAll
      · exact hc.starve

theorem issueBundle (hc : s.Canon) : (s.issueBundle t c).Canon := hc.modEngine.modCtx.push

theorem bundleTurn (hc : s.Canon) : (s.bundleTurn t c).Canon := by
  unfold State.bundleTurn
  refine .ite hc.reinject.push (.ite hc.reinject.push ?_)
  split
  · exact hc.reinject.push
  · exact hc.reinject.modEngine.freezeCycle.ite (hc.reinject.throttleCycle.ite hc.reinject.issueBundle)

theorem turnOf (hc : s.Canon) : (s.turnOf t).Canon := by
  unfold State.turnOf
  extract_lets e
  split
  · exact hc.modEngine.push.ite (hc.push.ite (hc.push.ite hc.freezeCycle))
  · split
    · refine .ite hc.modEngine.push ?_
      split
      · exact hc.throttleCycle.ite hc.chargeAll.push
      · split
        · exact hc.push.ite (hc.throttleCycle.ite hc.push)
        · exact hc
      · split
        · exact hc.modEngine.push
        · exact hc.bundleTurn
    · refine .ite hc.throttleCycle (.ite hc.push ?_)
      split
      · exact hc.push
      · exact hc.starve

theorem engineTurn (hc : s.Canon) : (s.engineTurn t).Canon := by
  unfold State.engineTurn
  extract_lets stands u
  have hu : u.Canon := (hc.foldl fun _ _ hu => hu.passWen.reinjectIdle).noteEligible
  refine .ite hc.push (.ite hc.push (.ite hc.nextSpill.push ?_))
  split
  · exact hu.push
  · exact hu.freezeCycle.ite hu.turnOf

theorem slotWork {n : Nat} (hc : s.Canon) : (s.slotWork t c n).1.Canon := by
  unfold State.slotWork
  dsimp only
  split
  · exact hc
  · split
    · exact hc.charge
    · split
      · exact hc.stopSlot
      · split <;> exact hc.charge

theorem chargeStop {j b : Nat} (hc : s.Canon) : (s.chargeStop t c j b).Canon := hc.charge

theorem bundleIssued {b : Nat} (hc : s.Canon) : (s.bundleIssued t c b).Canon := by
  unfold State.bundleIssued
  dsimp only
  split
  · exact hc
  · exact hc.modSite.modCtx.modEngine

theorem emptyIssued (hc : s.Canon) : (s.emptyIssued t).Canon := by
  unfold State.emptyIssued
  dsimp only
  split
  · exact hc
  · exact hc.modEngine

theorem endIssue (hc : s.Canon) : (s.endIssue t).Canon := by
  unfold State.endIssue
  refine .push (.modEngine ?_)
  split
  · exact hc.emptyIssued
  · split
    · exact hc.chargeStop.modEngine
    · exact hc.bundleIssued.haltNow.ite hc.bundleIssued

end State.Canon

end Sys2Proof.Machine
end

section
/-! PROOFS that a step keeps the memories in canonical form: the rows of a hart. -/

namespace Sys2Proof.Machine

namespace State.Canon
variable {s u : State} {t c : Nat}

/-- A row of a hart keeps the canonical form when what it does with its state does. -/
theorem hartDo {i : Instr} {f : Nat → Nat → State → State}
    (hc : s.Canon) (hf : ∀ t c u, u.Canon → (f t c u).Canon) : Out.Canon (s.hartDo i f) := by
  refine hc.withCtx fun _ => ?_
  split
  · exact hf _ _ _ hc
  · exact hc.illegal

theorem advance (hc : s.Canon) : (s.advance t c).Canon := hc.modHart

theorem setRd {rd : BitVec 5} {v : W64} {lat : Nat} (hc : s.Canon) : (s.setRd t c rd v lat).Canon :=
  hc.ite hc.modHart

theorem result {rd : BitVec 5} {v : W64} {lat : Nat} (hc : s.Canon) : (s.result t c rd v lat).Canon :=
  hc.setRd.advance

theorem jump {rd : BitVec 5} {link a : W64} (hc : s.Canon) : (s.jump t c rd link a).Canon := by
  unfold State.jump
  split
  · exact hc.raise
  · exact hc.setRd.modHart

theorem execControlCompute {op : ComputeOp} (hc : s.Canon) : Out.Canon (execControlCompute op s) := by
  unfold Machine.execControlCompute
  refine hc.hartDo fun t c u hu => ?_
  cases op with
  | jal | jalr => exact hu.jump
  | branch => exact hu.jump.ite hu.advance
  | _ => exact hu.result

theorem watchStop {a : W64} (hc : s.Canon) : (s.watchStop t c a).Canon := hc.charge.takeStop

theorem dataFault {a : W64} {wr : Bool} (hc : s.Canon) : (s.dataFault t c a wr).Canon :=
  hc.charge.cdata.ite hc.cdata.advance

theorem hartAccess {a : W64} {n mis : Nat} {r w : Bool} {f : State → State}
    (hc : s.Canon) (hf : ∀ u, u.Canon → (f u).Canon) : (s.hartAccess t c a n mis r w f).Canon := by
  unfold State.hartAccess
  split
  · exact hc.raise
  · exact hc.watchStop.ite (hc.dataFault.ite (hf _ hc))

theorem localCredit {g v : Nat} {after : List Nat} (hc : s.Canon) : (s.localCredit t c g v after).Canon :=
  hc.sendQuiet.modHart

theorem semStore {g o : Nat} {l : List Byte} (hc : s.Canon) : (s.semStore t c g o l).Canon := by
  unfold State.semStore
  extract_lets byteAt clear u
  have hu : u.Canon := hc.modSem.ite hc
  exact hc.modSem.ite (((hu.ite hu.localCredit).ite hu.modSem).ite hu)

theorem hartStore {a : Nat} {l : List Byte} (hc : s.Canon) : (s.hartStore t c a l).Canon :=
  hc.semStore.ite (hc.writeLocal ..)

theorem csrOp {op : CsrOp} {csr : BitVec 12} {rd rs : BitVec 5} (hc : s.Canon) :
    (s.csrOp t c op csr rd rs).Canon := by
  unfold State.csrOp
  split
  · exact hc.illegal
  · split
    · exact hc.result
    · exact hc.modHart.result.ite hc.illegal

theorem retire (hc : s.Canon) : (s.retire t c).Canon := hc.modCtx.modHart

theorem block {what : WaitFor} {i : Instr} {timeout : Nat} (hc : s.Canon) :
    (s.block t c what i timeout).Canon :=
  hc.modHart

theorem unblock (hc : s.Canon) : (s.unblock t c).Canon := hc.modHart
theorem endWait {rd : BitVec 5} {v : W64} (hc : s.Canon) : (s.endWait t c rd v).Canon := hc.unblock.result

theorem hartSend {home : Home} {body : Body} {after : List Nat} {va : W64} (hc : s.Canon) :
    (s.hartSend t c home body after va).Canon :=
  hc.send.modHart

theorem hartAsk {home : Home} {body : Body} {va : W64} (hc : s.Canon) : (s.hartAsk t c home body va).Canon :=
  hc.sendQuiet.modHart

theorem parkAs {id : Nat} {f : TFault} {va : W64} {wr : Bool} {body : Body} (hc : s.Canon) :
    (s.parkAs t c id f va wr body).1.Canon := by
  unfold State.parkAs
  dsimp only
  split
  next e => exact .of_fst e hc.park
  next e => exact (of_fst e hc.park).modCtx

theorem parkHart {f : TFault} {va : W64} {wr : Bool} {body : Body} (hc : s.Canon) :
    (s.parkHart t c f va wr body).1.Canon :=
  .parkAs hc

theorem hartAccessTo {home : Home} {b : Body} {after : List Nat} {va : W64} (hc : s.Canon) :
    (s.hartAccessTo t c home b after va).Canon := by
  unfold State.hartAccessTo
  split
  · exact hc.hartAsk
  · exact hc.hartSend

theorem xAccess {spad : Bool} {a : W64} {n mis ref : Nat} {need : Need} {sc : Nat} {b : Body}
    {go : State → State} (hc : s.Canon) (hf : ∀ u, u.Canon → (go u).Canon) :
    (s.xAccess t c spad a n mis ref need sc b go).Canon := by
  unfold State.xAccess
  split
  · exact hc.raise
  · split
    · exact hc.raise.ite (hf _ hc.hartAccessTo)
    · split
      next e =>
        have hu := of_fst e hc.translate
        split
        next e => exact hf _ (.of_fst e hu.parkHart)
        next e => exact .of_fst e hu.parkHart
      next e => exact hf _ (of_fst e hc.translate).hartAccessTo

theorem execKLda {sz : BitVec 2} {scope : BitVec 3} {spad : Bool} {rd rs1 : BitVec 5} (hc : s.Canon) :
    Out.Canon (execKLda sz scope spad rd rs1 s) := by
  unfold Machine.execKLda
  refine hc.hartDo fun _ _ _ hu => ?_
  split
  · exact hu
  · exact hu.xAccess fun _ hv => hv.block

theorem kAmo {i : Instr} {n : Nat} {op : KAmoOp} {scope : BitVec 3} {spad : Bool} {rd rs1 rs2 : BitVec 5}
    (hc : s.Canon) : Out.Canon (s.kAmo i n op scope spad rd rs1 rs2) :=
  hc.hartDo (fun _ _ _ hu => hu.ite (hu.xAccess (fun _ hu => hu.advance.ite hu.block)))

theorem kArm {i : Instr} {rs1 rs2 : BitVec 5} {zero : Bool} (hc : s.Canon) :
    Out.Canon (s.kArm i rs1 rs2 zero) :=
  hc.hartDo fun _ _ _ hu => hu.raise.ite hu.armSem.advance

theorem acquireHart {g : Nat} (hc : s.Canon) : (s.acquireHart t c g).Canon := hc.acquire

theorem execKSwaitTimeout (hc : s.Canon) : Out.Canon (execKSwaitTimeout s) := by
  unfold Machine.execKSwaitTimeout
  dsimp only
  split
  · split
    · exact hc.endWait
    · trivial
  · trivial

theorem acquireCell {a : Nat} (hc : s.Canon) : (s.acquireCell t c a).Canon := hc.acquire
theorem waitFault {a : W64} (hc : s.Canon) : (s.waitFault t c a).Canon := hc.unblock.dataFault

theorem execKFget {rd rs1 : BitVec 5} (hc : s.Canon) : Out.Canon (execKFget rd rs1 s) := by
  unfold Machine.execKFget
  refine hc.hartDo fun t c u hu => ?_
  dsimp only
  split
  · exact hu.raise
  · refine .ite hu.waitFault (.ite ?_ (hu.unblock.takeFempty.modHart.ite hu.block))
    exact (hu.acquireCell.writeLocal ..).endWait

theorem execKFtry {rd rs1 : BitVec 5} (hc : s.Canon) : Out.Canon (execKFtry rd rs1 s) := by
  unfold Machine.execKFtry
  refine hc.hartDo fun t c u hu => ?_
  dsimp only
  split
  · exact hu.raise
  · exact hu.dataFault.ite ((hu.acquireCell.ite hu).result)

theorem execKHyield {rs1 : BitVec 5} (hc : s.Canon) : Out.Canon (execKHyield rs1 s) := by
  unfold Machine.execKHyield
  refine hc.hartDo fun t c u hu => ?_
  dsimp only
  split
  · exact hu.raise
  · exact hu.waitFault.ite (hu.unblock.advance.ite hu.block)

theorem enterQueue {q : Nat} {rd : BitVec 5} {inc : W64} {f : Nat → Ctx → Ctx} (hc : s.Canon) :
    (s.enterQueue t c q rd inc f).Canon :=
  hc.modCtx.endWait

theorem descriptor {a : W64} {f : Rec64 → State} (hc : s.Canon) (hf : ∀ d, (f d).Canon) :
    (s.descriptor t c a f).Canon :=
  hc.dataFault.ite (hf _)

theorem command {q : Nat} {i : Instr} {rd : BitVec 5} {inc : W64} {d : Rec64} {f : Nat → Ctx → Ctx}
    (hc : s.Canon) : (s.command t c q i rd inc d f).Canon :=
  hc.block.ite hc.enterQueue

theorem kCopyi {i : Instr} {ch : BitVec 2} {out : Bool} {rd rs1 rs2 : BitVec 5} (hc : s.Canon) :
    Out.Canon (s.kCopyi i ch out rd rs1 rs2) :=
  hc.hartDo fun _ _ _ hu => hu.command

theorem acquireLeft (hc : s.Canon) : (s.acquireLeft t c).Canon := hc.acquire

theorem execKTlwaitTimeout (hc : s.Canon) : Out.Canon (execKTlwaitTimeout s) := by
  unfold Machine.execKTlwaitTimeout
  dsimp only
  split
  · split
    · exact hc.endWait
    · trivial
  · trivial

theorem execPauseEnd (hc : s.Canon) : Out.Canon (execPauseEnd s) := by
  unfold Machine.execPauseEnd
  dsimp only
  split
  · exact hc.modHart
  · trivial

theorem hartRecord {kind : Nat} {id : BitVec 12} {data0 : W64} (hc : s.Canon) :
    (s.hartRecord t c kind id data0).Canon :=
  hc.ring.ite hc

theorem flushFreeze (hc : s.Canon) : (s.flushFreeze t).Canon := by
  unfold State.flushFreeze
  split
  · exact hc
  · exact hc.modEngine.ring.ite hc.modEngine

theorem flushFreezeOf (hc : s.Canon) : (s.flushFreezeOf t c).Canon := by
  unfold State.flushFreezeOf
  split
  · exact hc.flushFreeze.ite hc
  · exact hc

theorem execKAcct {rd rs1 : BitVec 5} (hc : s.Canon) : Out.Canon (execKAcct rd rs1 s) := by
  unfold Machine.execKAcct
  refine hc.hartDo fun t c u hu => ?_
  dsimp only
  split <;> exact hu.result

end State.Canon

end Sys2Proof.Machine
end

section
/-! PROOFS that a step keeps the memories in canonical form: messages, parcels, barriers, launches and the
turns of a control core. -/

namespace Sys2Proof.Machine

namespace State.Canon
variable {s u : State} {t c : Nat}

theorem leaveTile {m : Msg} (hc : s.Canon) : (s.leaveTile m).Canon := hc.ite hc.tickDie
theorem leaveTiles (hc : s.Canon) : s.leaveTiles.Canon := hc.foldl fun _ _ hu => hu.leaveTile.ite hu

theorem applied {m : Msg} (hc : s.Canon) : (s.applied m).Canon := by
  unfold State.applied
  refine .ite hc.dropMsg ?_
  split
  · exact hc.dropMsg
  · exact hc.dropMsg
  · exact hc.dropMsg.setFrontier

theorem writeAt {home : Home} {addr key : Nat} {data : List (Option Byte)} {clock : Clock} {fn : Nat}
    (hc : s.Canon) : (s.writeAt home addr key data clock fn).Canon := by
  unfold State.writeAt
  split
  · exact (hc.hbmSets ..).clearEcc.foldl fun _ _ hu => hu.setLine
  · exact (hc.foldl fun _ _ hu => hu.writeLocal ..).foldl fun _ _ hu => hu.setLine
  · exact hc.hostSend
  · exact hc

theorem noteRead {home : Home} {addr n : Nat} (hc : s.Canon) : (s.noteRead home addr n).Canon := by
  unfold State.noteRead
  split
  · exact hc.noteEcc
  · exact hc

theorem sectorApplied {sec msg : Nat} (hc : s.Canon) : (s.sectorApplied sec msg).Canon := .ite (.later hc) hc

theorem applyItem {home : Home} {clock : Clock} {x : SecItem} {fn : Nat} (hc : s.Canon) :
    (s.applyItem home clock x fn).Canon := by
  unfold State.applyItem
  extract_lets data
  cases home with
  | stack h =>
    exact ((hc.foldl fun _ _ hu => hu).foldl fun _ _ hu => hu.hbmSet ..).clearEcc
  | tile t =>
    exact ((hc.foldl fun _ _ hu => hu).foldl fun _ _ hu => hu.writeLocal ..).foldl fun _ _ hu => hu.setLine
  | host => exact (hc.foldl fun _ _ hu => hu.hostSend).foldl fun _ _ hu => hu
  | node | pod => exact (hc.foldl fun _ _ hu => hu).foldl fun _ _ hu => hu

theorem respond {m : Msg} {val : Option W64} {dest : Reply} {clock : Clock} (hc : s.Canon) :
    (s.respond m val dest clock).Canon :=
  hc.post

theorem refuseKey {m : Msg} (hc : s.Canon) : (s.refuseKey m).Canon := by
  unfold State.refuseKey
  split
  · exact hc.applied.parkAs
  · exact hc.applied

theorem execRemoteAtomic {id : Nat} (hc : s.Canon) : Out.Canon (execRemoteAtomic id s) := by
  unfold Machine.execRemoteAtomic
  split
  · split
    · split
      · exact hc.refuseKey
      · split
        · split
          · exact hc.applied.noteRead.respond
          · exact hc.applied.noteRead.cdata
          · exact hc.applied.noteRead
        · split
          · exact hc.writeAt.applied.respond
          · exact hc.writeAt.applied
    · split
      · split
        · exact hc.applied.event
        · exact hc.applied
      · split
        · exact hc.applied.noteRead.event
        · exact hc.applied.noteRead
        · exact hc.writeAt.applied
    · trivial
  · trivial

theorem execFuturePutApply {id : Nat} (hc : s.Canon) : Out.Canon (execFuturePutApply id s) := by
  unfold Machine.execFuturePutApply
  split
  · split
    · exact ((hc.writeLocal ..).setLine.ite ((hc.writeLocal ..).setLine.modTile)).applied
    · trivial
  · trivial

theorem answerFill {id : Nat} {x : FillData} (hc : s.Canon) : (s.answerFill id x).Canon := hc

theorem execReadServe {id : Nat} (hc : s.Canon) : Out.Canon (execReadServe id s) := by
  unfold Machine.execReadServe
  split
  · split
    · split
      · exact hc.refuseKey
      · exact hc.applied.noteRead.respond
    · exact (hc.applied.noteRead.ite hc.applied).answerFill
    · trivial
  · trivial

theorem execReadResponse {id : Nat} (hc : s.Canon) : Out.Canon (execReadResponse id s) := by
  unfold Machine.execReadResponse
  split
  · split
    · extract_lets t c u k stops v
      split
      · exact hc.mergeDie.dropMsg
      · have hu : u.Canon := hc.acquire.dropMsg
        split
        · exact hu.unblock.setX.modHart
        · exact hu.cdata.ite hu.cdata.unblock.modHart
    · trivial
  · trivial

theorem execSemaphoreCredit {id : Nat} (hc : s.Canon) : Out.Canon (execSemaphoreCredit id s) := by
  unfold Machine.execSemaphoreCredit
  split
  · split
    · exact hc.creditSem.applied
    · exact hc.modSem.applied
    · trivial
  · trivial

theorem execFrontierUpdate {id : Nat} (hc : s.Canon) : Out.Canon (execFrontierUpdate id s) := by
  unfold Machine.execFrontierUpdate
  split
  · split
    · exact hc.dropMsg.setFrontier
    · trivial
  · trivial

theorem setParcels {l : Nat} {p : Parcels} (hc : s.Canon) : (s.setParcels l p).Canon := hc

theorem execDealStep (hc : s.Canon) : Out.Canon (execDealStep s) := by
  unfold Machine.execDealStep
  split
  · exact hc
  · split
    · exact hc
    · exact .setParcels hc

theorem execReclaim (hc : s.Canon) : Out.Canon (execReclaim s) := by
  unfold Machine.execReclaim
  dsimp only
  split
  · trivial
  · split
    · trivial
    · exact hc.setParcels

theorem execKParcel {rd : BitVec 5} (hc : s.Canon) : Out.Canon (execKParcel rd s) := by
  unfold Machine.execKParcel
  refine hc.hartDo fun t c u hu => ?_
  extract_lets l
  split
  · exact hu.endWait
  · split
    · exact hu.block
    · split
      · exact hu.setParcels.endWait
      · exact hu.endWait.ite hu.block

theorem execKBarwTimeout (hc : s.Canon) : Out.Canon (execKBarwTimeout s) := by
  unfold Machine.execKBarwTimeout
  dsimp only
  split
  · split
    · exact hc.endWait
    · trivial
  · trivial

theorem completeEpisode {a : Arrival} {e : Episode} {ret : List (Arrival × Clock)} (hc : s.Canon) :
    (s.completeEpisode a e ret).Canon := by
  unfold State.completeEpisode
  refine .foldl ?_ fun _ _ hu => hu.post
  with_reducible exact hc

theorem testEpisode {a : Arrival} (hc : s.Canon) : (s.testEpisode a).Canon := by
  unfold State.testEpisode
  split
  · exact hc
  · exact hc.completeEpisode.ite hc

theorem countArrival {a : Arrival} {clock : Clock} (hc : s.Canon) : (s.countArrival a clock).Canon := by
  unfold State.countArrival
  refine .testEpisode ?_
  split <;> exact hc

theorem execBarrierArrival {id : Nat} (hc : s.Canon) : Out.Canon (execBarrierArrival id s) := by
  unfold Machine.execBarrierArrival
  split
  · split
    · exact hc.applied.countArrival
    · trivial
  · trivial

theorem countRetired {a : Arrival} {clock : Clock} (hc : s.Canon) : (s.countRetired a clock).Canon :=
  .testEpisode hc

theorem execRetirementMessage {id : Nat} (hc : s.Canon) : Out.Canon (execRetirementMessage id s) := by
  unfold Machine.execRetirementMessage
  split
  · split
    · exact hc.applied.countRetired
    · trivial
  · trivial

theorem tellNodes (hc : s.Canon) : (s.tellNodes t c).Canon := hc.countRetired.foldl fun _ _ hu => hu.send

theorem execBarrierCompletion {id : Nat} (hc : s.Canon) : Out.Canon (execBarrierCompletion id s) := by
  unfold Machine.execBarrierCompletion
  split
  · split
    · exact hc.mergeDie.applied.modTile
    · trivial
  · trivial

theorem setStatus {q m low nzx state code : Nat} (hc : s.Canon) : (s.setStatus q m low nzx state code).Canon :=
  hc.ite hc.modQueue

theorem writeStatusWord {x : QRec} {code : Nat} (hc : s.Canon) : (s.writeStatusWord x code).Canon := by
  unfold State.writeStatusWord
  split
  · exact hc
  · exact hc.send

theorem enterRecord {q : Nat} {r : LaunchRec} {clock : Clock} {after : List Nat}
    {status : Option (Nat × Nat)} {fromHost : Bool} (hc : s.Canon) :
    (s.enterRecord q r clock after status fromHost).Canon :=
  hc.modQueue

theorem dropHead {q : Nat} (hc : s.Canon) : (s.dropHead q).Canon := hc.modQueue

theorem rejectHead {q : Nat} {x : QRec} {code : Nat} (hc : s.Canon) : (s.rejectHead q x code).Canon :=
  hc.setStatus.writeStatusWord.dropHead

theorem wantAttempt (hc : s.Canon) : s.wantAttempt.Canon := hc.ite hc.later

theorem execLaunchHeadValidation {q : Nat} (hc : s.Canon) : Out.Canon (execLaunchHeadValidation q s) := by
  unfold Machine.execLaunchHeadValidation
  split
  · trivial
  · split
    · trivial
    · dsimp only
      split
      · exact hc.rejectHead
      · exact hc.modQueue.wantAttempt

theorem readVa {a : W16} {va n fuel : Nat} (hc : s.Canon) : (s.readVa t a va n fuel).1.Canon := by
  induction fuel generalizing s va n with
  | zero => exact hc
  | succ fuel ih =>
    unfold State.readVa
    dsimp only
    split
    · exact hc
    · split
      next e => exact .of_fst e hc.translate
      next e =>
        have hu := of_fst e hc.translate
        split
        · split
          · exact hu.noteEcc
          · exact hu
        · split
          next e => exact .of_fst e (ih hu)
          next e => exact .of_fst e (ih hu)

theorem takePages {a e : Nat} {asid : W16} (hc : s.Canon) : (s.takePages t a e asid).Canon :=
  hc.foldl fun _ _ hu => (hu.ite (hu.zeroLocal ..)).modTile

theorem startTask {l : Nat} {r : LaunchRec} {init : List Byte} {k i n : Nat} (hc : s.Canon) :
    (s.startTask l r init t c k i n).Canon :=
  ((hc.takePages.zeroLocal ..).pokeLocals ..).setCtx

theorem startTile {l : Nat} {x : QRec} {image : Option (List Byte)} {init : List Byte} {j n : Nat}
    (hc : s.Canon) : (s.startTile l x image init j t n).Canon := by
  unfold State.startTile
  extract_lets r u v
  have hu : u.Canon := by
    unfold u
    split
    · split
      · exact hc.ite hc.modTile
      · exact hc.modTile
    · exact hc
  exact hu.mergeDie.foldl fun _ _ hu => hu.startTask

theorem setClass (hc : s.Canon) : s.setClass.Canon := .ite hc hc

theorem fetchLaunch {r : LaunchRec} {tiles : List Nat} (hc : s.Canon) : (s.fetchLaunch r tiles).1.Canon := by
  unfold State.fetchLaunch
  extract_lets t resident img
  have hi : img.1.Canon := by
    unfold img
    split
    · exact hc
    · split
      next e => exact .of_fst e hc.readVa
      next e => exact .of_fst e hc.readVa
  clear_value img
  obtain ⟨v, _ | i⟩ := img
  · exact hi
  · have hv : v.Canon := hi
    dsimp only
    split
    · exact hv
    · split
      next e => exact .of_fst e hv.readVa
      next e => exact .of_fst e hv.readVa

theorem startLaunch {q : Nat} {x : QRec} {tiles : List Nat} {image : Option (List Byte)} {init : List Byte}
    (hc : s.Canon) : (s.startLaunch q x tiles image init).Canon := by
  unfold State.startLaunch
  extract_lets r l n u v w
  have hv : v.Canon := by
    refine .foldl ?_ fun _ _ hu => hu.startTile
    with_reducible exact hc
  have hw : w.Canon := hv.ite hv.setParcels
  exact hw.setStatus.writeStatusWord.dropHead.setClass

theorem tryHead {b : Option (Nat × QRec)} {h : Nat × QRec} (hc : s.Canon) : (s.tryHead b h).Canon := by
  unfold State.tryHead
  refine .ite hc (.ite hc.rejectHead ?_)
  split
  · exact hc
  · split
    next e => exact (of_fst e hc.fetchLaunch).rejectHead
    next e => exact (of_fst e hc.fetchLaunch).startLaunch

theorem execBlockingHead (hc : s.Canon) : Out.Canon (execBlockingHead s) := by
  unfold Machine.execBlockingHead
  split
  · trivial
  · split
    · trivial
    · exact hc.modQueue

theorem execDoorbell {f q : Nat} (hc : s.Canon) : Out.Canon (execDoorbell f q s) := by
  unfold Machine.execDoorbell
  split
  · exact hc
  · dsimp only
    split
    · exact hc.modQueue
    · exact hc.enterRecord

theorem checkTlarm {q : Nat} (hc : s.Canon) : (s.checkTlarm q).Canon := hc.modQueue.msix.ite hc

theorem execTlarmWrite {f q : Nat} {v : W64} (hc : s.Canon) : Out.Canon (execTlarmWrite f q v s) := by
  unfold Machine.execTlarmWrite
  split
  · trivial
  · exact hc.modQueue.checkTlarm

theorem execQownWrite {f q : Nat} {v : BitVec 5} (hc : s.Canon) : Out.Canon (execQownWrite f q v s) := by
  unfold Machine.execQownWrite
  split
  · trivial
  · split
    · exact hc.modQueue
    · exact hc

theorem completeLaunch {l : Launch} (hc : s.Canon) : (s.completeLaunch l).Canon := by
  unfold State.completeLaunch
  extract_lets r u v w
  have hu : u.Canon := hc
  have hv : v.Canon := hu.mergeDie
  have hw : w.Canon := hv.send.ite (hv.modQueue.checkTlarm.ite hv)
  exact hw.setStatus.setClass

theorem countTask {code : W32} (hc : s.Canon) : (s.countTask t c code).Canon := by
  unfold State.countTask
  extract_lets x u die v w y
  have hw : w.Canon := hc.flushFreezeOf.tellNodes.delCtx.modLaunch
  have hy : y.Canon := by
    unfold y
    split
    · exact hw.completeLaunch.ite hw
    · exact hw
  exact hy.wantAttempt

theorem writeHotness (hc : s.Canon) : (s.writeHotness t c).Canon := by
  unfold State.writeHotness
  refine hc.ite (hc.foldl (fun u i hu => ?_))
  split
  next e => exact .of_fst e hu.translate
  next e => exact (of_fst e hu.translate).hartSend

theorem finishEnd (hc : s.Canon) : (s.finishEnd t c).Canon := hc.countTask.ite hc

theorem execTaskRetirement (hc : s.Canon) : Out.Canon (execTaskRetirement s) := by
  unfold Machine.execTaskRetirement
  extract_lets t c x u v
  have hv : v.Canon := hc.flushCounters.writeHotness.modCtx
  split
  · exact hc.finishEnd
  · split
    · trivial
    · split
      · exact hc.countTask
      · split
        · exact hv.countTask
        · exact hv

theorem noteReady (hc : s.Canon) : (s.noteReady t c).Canon := hc.modHart

theorem chargeControl {cause : Option Cause} (hc : s.Canon) : (s.chargeControl t cause).Canon := by
  unfold State.chargeControl
  split <;> exact hc.charge

theorem controlTurn (hc : s.Canon) : (s.controlTurn t).Canon := by
  unfold State.controlTurn
  extract_lets u
  have hu : u.Canon := hc.foldl fun _ _ hu => hu.noteReady
  refine .ite hu.chargeControl ?_
  split
  · exact hu.chargeControl
  · extract_lets x v w
    have hw : w.Canon := hu.charge.modHart.modTile
    exact hw.modDbg.push.ite hw.push

theorem hartWork (hc : s.Canon) : (s.hartWork t c).1.Canon := by
  unfold State.hartWork
  split
  · exact hc.raise
  · exact hc

theorem countStalls (hc : s.Canon) : (s.countStalls t).Canon := hc.foldl fun _ _ hu => hu.modCtx.ite hu
theorem ageCtx (hc : s.Canon) : (s.ageCtx t c).Canon := hc.modCtx

theorem traceFreeze (hc : s.Canon) : (s.traceFreeze t).Canon := by
  unfold State.traceFreeze
  split
  · exact hc
  · split
    · exact hc.modEngine.ite (hc.flushFreeze.modEngine.ite hc.flushFreeze)
    · exact hc.modEngine.ite hc

theorem closeCycle (hc : s.Canon) : (s.closeCycle t).Canon :=
  (hc.countStalls.traceFreeze.foldl fun _ _ hu => hu.ageCtx).modTile.push

theorem execSample (hc : s.Canon) : Out.Canon (execSample s) := by
  unfold Machine.execSample
  extract_lets t f n u
  have hu : u.Canon := hc.modTile
  split
  · exact hu
  · extract_lets mine
    split
    · exact hu.ring
    · exact hu

end State.Canon

end Sys2Proof.Machine
end

section
/-! PROOFS that a step keeps the memories in canonical form: the rows of the copy engines and the stack
engines. -/

namespace Sys2Proof.Machine

namespace State.Canon
variable {s u : State} {t c : Nat}

theorem mapPieces {a : W16} {need : Need} {q0 : Nat} {l : List (Nat × Int × Nat)} (hc : s.Canon) :
    (s.mapPieces t a need q0 l).1.Canon := by
  induction l generalizing s with
  | nil => exact hc
  | cons x l ih =>
    unfold State.mapPieces
    dsimp only
    split
    next e => exact .of_fst e hc.translate
    next e =>
      have hu := of_fst e hc.translate
      split
      next e => exact .of_fst e (ih hu)
      next e => exact .of_fst e (ih hu)

theorem endPieces {k kind u : Nat} {row : Nat → Int} {rowLen q n : Nat} {need : Need} (hc : s.Canon) :
    (s.endPieces t k kind u row rowLen q n need).1.Canon := by
  unfold State.endPieces
  split
  · exact hc.mapPieces
  · split <;> exact hc

theorem modEntry {k ch ord : Nat} {f : Entry → Entry} (hc : s.Canon) : (s.modEntry t k ch ord f).Canon :=
  hc.modCtx

theorem settlePark {k ch ord : Nat} (hc : s.Canon) : (s.settlePark t k ch ord).Canon := by
  unfold State.settlePark
  split
  · split
    · refine .ite hc ?_
      split
      next e => exact (of_fst e hc.park).modEntry
      next e => exact .of_fst e hc.park
    · exact hc
  · exact hc

theorem parkEntry {k ch ord n : Nat} {f : PFault} (hc : s.Canon) : (s.parkEntry t k ch ord n f).Canon :=
  hc.modEntry.settlePark

theorem headCheck {k ch : Nat} {ok : Entry → Bool} (hc : s.Canon) : Out.Canon (s.headCheck t k ch ok) := by
  unfold State.headCheck
  split
  · trivial
  · split
    · exact hc.modEntry
    · exact hc.takeStop

theorem planSector {k : Nat} {e : Entry} {n : Nat} (hc : s.Canon) : (s.planSector t k e n).1.Canon := by
  unfold State.planSector
  dsimp only
  split
  next e => exact .of_fst e hc.endPieces
  next e =>
    have hu := of_fst e hc.endPieces
    split
    next e => exact .of_fst e hu.endPieces
    next e => exact .of_fst e hu.endPieces

theorem planContrib {k ch : Nat} {e : Entry} {n : Nat} (hc : s.Canon) : (s.planContrib t k ch e n).1.Canon := by
  unfold State.planContrib
  dsimp only
  split
  · exact hc
  · split
    next e => exact .of_fst e hc.endPieces
    next e =>
      have hv := of_fst e hc.endPieces
      split
      next e => exact .of_fst e hv.endPieces
      next e => exact .of_fst e hv.endPieces

theorem noteContrib {k ch ord : Nat} {p : Rec64} (hc : s.Canon) : (s.noteContrib t k ch ord p).Canon := hc

theorem addSector {x : Sector} {row : Instr} (hc : s.Canon) : (s.addSector t x row).Canon :=
  .later (.modTile hc)

theorem execSectorStart (hc : s.Canon) : Out.Canon (execSectorStart s) := by
  unfold Machine.execSectorStart
  extract_lets t
  split
  · trivial
  · extract_lets p n u v r x w
    have hv : v.Canon := hc.modTile.modEntry
    have hr : r.1.Canon := by
      unfold r
      split
      · exact hv.planContrib
      · exact hv.planSector
    have hw : w.Canon := hr.noteContrib.ite hr
    exact hw.addSector

theorem dropSector {id : Nat} (hc : s.Canon) : (s.dropSector t id).Canon := hc.modTile
theorem modSector {id : Nat} {f : Sector → Sector} (hc : s.Canon) : (s.modSector t id f).Canon := hc.modTile

theorem mergeReads {d : Nat} {l : List Piece} (hc : s.Canon) : (s.mergeReads t c d l).Canon :=
  hc.mergeDie.keepLeft

theorem sendSector {id : Nat} {own : Nat × Nat} {asid : W16} {die : Home → Nat}
    {items : List (Home × SecItem)} (hc : s.Canon) : (s.sendSector t id own asid die items).Canon := by
  unfold State.sendSector
  refine hc.foldl fun u h hu => ?_
  exact .modSector hu.send

theorem openRows {asid : W16} {e : Entry} (hc : s.Canon) : (s.openRows asid e).Canon := by
  unfold State.openRows
  refine hc.foldl fun u h hu => ?_
  with_reducible exact hu.writeAt

theorem moveSector {id : Nat} {i : Instr} (hc : s.Canon) : Out.Canon (s.moveSector id i) := by
  unfold State.moveSector
  split
  · trivial
  · extract_lets p k park raw free die src u v data
    have hpark : ∀ u f, u.Canon → Out.Canon (park u f) := fun _ _ hu => .parkEntry (.dropSector hu)
    have hu : u.Canon := .modSector (.mergeReads hc)
    have hv : v.Canon := hu.modEntry.ite hu
    split
    · trivial
    · split
      · exact hpark _ _ hc
      · split
        · trivial
        · split
          · exact hpark _ _ hc.bumpFree
          · split
            · exact hc.noteEcc.modSector.later
            · split
              · exact hv.sendSector
              · split <;> exact hv.sendSector

theorem notePath (hc : s.Canon) : s.notePath.Canon := hc

theorem execPodSectorTimeout {id : Nat} (hc : s.Canon) : Out.Canon (execPodSectorTimeout id s) := by
  unfold Machine.execPodSectorTimeout
  split
  · trivial
  · split
    · split
      · exact .parkEntry (.dropSector hc)
      · trivial
    · trivial

theorem execPodAcknowledgement {id : Nat} (hc : s.Canon) : Out.Canon (execPodAcknowledgement id s) := by
  unfold Machine.execPodAcknowledgement
  split
  · split
    · split
      · split
        · exact hc.dropMsg.sectorApplied
        · trivial
      · exact hc.dropMsg
    · trivial
  · trivial

theorem podAnswer {a : PodAccess} {c : Completion} (hc : s.Canon) : (s.podAnswer a c).Canon := hc

theorem podApplied {id : Nat} (hc : s.Canon) : (s.podApplied id).Canon := by
  unfold State.podApplied
  split
  · exact .ite (.podAnswer hc) hc
  · exact hc

theorem loseRecord {m : Msg} {rec' : List Byte} (hc : s.Canon) : (s.loseRecord m rec').Canon := by
  unfold State.loseRecord
  split
  · exact hc.modCtx.modCtx.fatal.ite hc.modCtx
  · exact hc

theorem applySector {m : Msg} {sec : Nat} {items : List SecItem} (hc : s.Canon) :
    (s.applySector m sec items).Canon := by
  unfold State.applySector
  refine .sectorApplied (.applied ?_)
  split
  · exact hc.modSector
  · exact hc.foldl fun _ _ hu => hu.applyItem

theorem areaRefused {id : Nat} (hc : s.Canon) : (s.areaRefused id).Canon := hc

theorem writeFailed {m : Msg} {addr : Nat} {bad : List Nat} (hc : s.Canon) :
    (s.writeFailed m addr bad).Canon := by
  unfold State.writeFailed
  refine .ite hc ?_
  split
  · exact hc.noteEcc.cdata.ite hc.noteEcc.answerFill
  · exact hc.noteEcc

theorem execWriteApply {id : Nat} (hc : s.Canon) : Out.Canon (execWriteApply id s) := by
  unfold Machine.execWriteApply
  split
  · split
    · split
      · exact hc.refuseKey
      · split
        · exact hc.writeAt.applied.podApplied.writeFailed
        · exact hc.applied.answerFill
    · extract_lets bad u made
      have hu : u.Canon := (hc.writeAt.noteEcc.ite hc).applied
      split
      · exact hu.msix.ite hu.loseRecord
      · exact hu.ite hu.areaRefused
    · exact hc.applySector
    · trivial
  · trivial

theorem copyCredit {k u g n : Nat} (hc : s.Canon) : (s.copyCredit t k u g n).Canon := hc.creditSem.ite hc.send

theorem leaveEntries {k ch : Nat} (hc : s.Canon) : (s.leaveEntries t k ch).Canon := by
  unfold State.leaveEntries
  exact (hc.foldl (fun _ _ hu => hu.ite hu.openRows)).modCtx

theorem landContrib {asid : W16} {p : Rec64} {n : Nat} (hc : s.Canon) : (s.landContrib asid p n).Canon := hc
theorem copyErr {k u g : Nat} (hc : s.Canon) : (s.copyErr t k u g).Canon := hc.modSem.ite hc.send

theorem sectorError {x : Sector} {p : Rec64} {f : PFault} (hc : s.Canon) : (s.sectorError t x p f).Canon := by
  unfold State.sectorError
  extract_lets k u r stop v
  have hu : u.Canon := hc.foldl fun _ _ hu => hu.copyErr
  have hv : v.Canon := hu.record
  exact hu.ite (hu.takeStop.ite (hv.takeStop.ite hv))

theorem landCopy {x : Sector} {p : Rec64} (hc : s.Canon) : (s.landCopy t x p).Canon := by
  unfold State.landCopy
  extract_lets k u n v w y
  have hu : u.Canon := hc.modEntry
  have hw : w.Canon := by
    have hv : v.Canon := hu.ite hu.modCtx
    exact hv.landContrib.ite hv
  have hy : y.Canon := by
    unfold y
    split
    · exact hu.sectorError
    · exact hw.foldl fun _ _ hu => hu.copyCredit
  exact hy.leaveEntries.settlePark

theorem stackError {k ord sector : Nat} {p : Rec64} {f : PFault} (hc : s.Canon) :
    (s.stackError t k ord sector p f).Canon := by
  unfold State.stackError
  extract_lets u
  have hu : u.Canon := hc.copyErr.ite hc
  exact hu.ite (hu.takeStop.ite hu.record)

theorem landStack {x : Sector} {p : Rec64} (hc : s.Canon) : (s.landStack t x p).Canon := by
  unfold State.landStack
  refine .settlePark (.modEntry ?_)
  split
  · exact hc.modEntry.stackError
  · exact hc.modEntry.ite hc.modEntry.modCtx

theorem landFold {x : Sector} (hc : s.Canon) : (s.landFold x).Canon := by
  unfold State.landFold
  split
  · exact .stackError hc
  · exact hc

theorem execSectorLanded {id : Nat} (hc : s.Canon) : Out.Canon (execSectorLanded id s) := by
  unfold Machine.execSectorLanded
  split
  · trivial
  · extract_lets u refused ord
    have hu : u.Canon := hc.dropSector
    clear_value refused
    split
    · trivial
    · split
      · exact hu.parkEntry
      · exact hu.landFold.ite (hu.landStack.ite hu.landCopy)

theorem execCopyHeadCheck {k ch : Nat} (hc : s.Canon) : Out.Canon (execCopyHeadCheck t k ch s) := by
  unfold Machine.execCopyHeadCheck
  split <;> exact hc.headCheck

theorem mapRange {k : Nat} {base : W64} {q n : Nat} {need : Need} (hc : s.Canon) :
    (s.mapRange t k base q n need).1.Canon :=
  hc.mapPieces

theorem mapRanges {k n : Nat} {need : Need} {l : List (W64 × Nat)} (hc : s.Canon) :
    (s.mapRanges t k n need l).1.Canon := by
  induction l generalizing s with
  | nil => exact hc
  | cons x l ih =>
    unfold State.mapRanges
    split
    next e => exact .of_fst e hc.mapRange
    next e =>
      have hu := of_fst e hc.mapRange
      split
      next e => exact .of_fst e (ih hu)
      next e => exact .of_fst e (ih hu)

theorem planStack {k n : Nat} {p : Rec64} (hc : s.Canon) : (s.planStack t k p n).1.Canon := by
  unfold State.planStack
  extract_lets q len j0 j1 sq sn blocks sources need
  have hs : sources.1.Canon := by
    unfold sources
    split
    · split
      next e => exact .of_fst e hc.mapRange
      next e =>
        have hu := of_fst e hc.mapRange
        dsimp only
        split
        next e => exact .of_fst e hu.mapPieces
        next e => exact .of_fst e hu.mapPieces
    · exact hc.mapRanges
  clear_value sources
  obtain ⟨v, _ | l⟩ := sources
  · exact hs
  · have hv : v.Canon := hs
    dsimp only
    split
    next e => exact .of_fst e hv.mapRange
    next e => exact .of_fst e hv.mapRange

theorem planOpen {k : Nat} {p : Rec64} (hc : s.Canon) : (s.planOpen t k p).1.Canon := by
  unfold State.planOpen
  dsimp only
  split
  next e => exact .of_fst e hc.mapRange
  next e =>
    have hu := of_fst e hc.mapRange
    split
    next e => exact .of_fst e hu.mapRange
    next e => exact .of_fst e hu.mapRange

theorem bringClock {dst : List Piece} (hc : s.Canon) : (s.bringClock t dst).Canon :=
  hc.foldl fun _ _ hu => hu.mergeDie

theorem stackPart {k : Nat} {y : Sector} (hc : s.Canon) : Out.Canon (s.stackPart t k y) := by
  unfold State.stackPart
  split
  · trivial
  · extract_lets h u
    split
    · trivial
    · exact .modSector (.sendSector hc)

theorem stackStart {k ord : Nat} {e : Entry} (hc : s.Canon) : Out.Canon (s.stackStart t k ord e) := by
  unfold State.stackStart
  extract_lets p n
  split
  next e => exact (of_fst e hc.planStack).parkEntry
  next e =>
    have hu := of_fst e hc.planStack
    extract_lets src h len u bad items todo x at' v w
    have hk : u.Canon := by with_reducible exact hu.modEntry
    have hv : v.Canon := .bringClock (.modTile hk)
    have hw : w.Canon := hv.foldl fun _ _ hv => hv.mergeReads
    split
    · trivial
    · split
      · exact hk.noteEcc.addSector
      · exact hw.sendSector

theorem stackSector {k ord op : Nat} (hc : s.Canon) : Out.Canon (s.stackSector t k ord op) := by
  unfold State.stackSector
  split
  · split
    · exact hc.stackPart
    · trivial
  · split
    · trivial
    · exact hc.stackStart

theorem execStackOpen {k ord : Nat} (hc : s.Canon) : Out.Canon (execStackOpen t k ord s) := by
  unfold Machine.execStackOpen
  split
  · trivial
  · extract_lets p sent
    have hsent : ∀ u, u.Canon → (sent u).Canon := fun _ hu => hu.modEntry
    split
    next e => exact (of_fst e hc.planOpen).parkEntry
    next e =>
      have hu := of_fst e hc.planOpen
      extract_lets engines stop behind x
      split
      · split
        · exact hsent _ hu
        · exact hu.takeStop
      · split
        · split
          · trivial
          · exact hc.modEntry
        · exact hsent _ hu

theorem execSessionFold {id stack : Nat} (hc : s.Canon) : Out.Canon (execSessionFold id stack s) := by
  unfold Machine.execSessionFold
  split
  · trivial
  · split
    · trivial
    · dsimp only
      split
      next e => exact (of_fst e hc.planOpen).parkEntry
      next e =>
        have hw := of_fst e hc.planOpen
        split
        · trivial
        · split
          · exact .addSector (.noteEcc hw)
          · exact .sendSector (.mergeReads (.mergeDie (.modTile hw)))

theorem execStackEntryLeave {k : Nat} (hc : s.Canon) : Out.Canon (execStackEntryLeave t k s) := by
  unfold Machine.execStackEntryLeave
  split
  · trivial
  · extract_lets u v
    have hv : v.Canon := by with_reducible exact hc.mergeDie.modCtx
    exact hv.copyCredit.ite hv

end State.Canon

end Sys2Proof.Machine
end

section
/-! PROOFS that a step keeps the memories in canonical form: registers, the host's accesses, fault replies,
saves and debug commands. -/

namespace Sys2Proof.Machine

namespace State.Canon
variable {s u : State} {t c : Nat}

theorem writePage {f g o : Nat} {v : W64} (hc : s.Canon) : (s.writePage f g o v).Canon := by
  unfold State.writePage
  refine .ite (.ite hc hc.modPage) (.ite hc (.ite hc.modPage (.ite hc.modPage (.ite hc.modPage ?_))))
  exact .ite (.ite hc hc.modPage) (.ite hc.modPage (.ite hc.modPage (.ite hc.modPage hc)))

theorem execRegisterWrite {f off : Nat} {v : W64} (hc : s.Canon) : Out.Canon (execRegisterWrite f off v s) := by
  unfold Machine.execRegisterWrite
  split
  · exact hc.modQueue
  · split
    · exact .ite hc hc
    · split
      · exact hc.writePage
      · split
        · exact hc
        · split
          · exact hc
          · split <;> exact hc

theorem execStalledClear {f page : Nat} (hc : s.Canon) : Out.Canon (execStalledClear f page s) := by
  unfold Machine.execStalledClear
  split
  · exact hc.modPage
  · trivial

theorem execRegerrClear {f page : Nat} (hc : s.Canon) : Out.Canon (execRegerrClear f page s) := by
  unfold Machine.execRegerrClear
  split
  · exact hc.modPage
  · trivial

theorem execAsidEntryWrite {f a : Nat} {high : Bool} {v : W64} (hc : s.Canon) :
    Out.Canon (execAsidEntryWrite f a high v s) := by
  unfold Machine.execAsidEntryWrite
  split
  · trivial
  · split
    · exact hc.ite hc.modPage.msix
    · split <;> exact hc

theorem invalidate {which : Option (TlbEntry → Bool)} (hc : s.Canon) : (s.invalidate which).Canon := by
  unfold State.invalidate
  split <;> exact hc

theorem execInvalidationDone (hc : s.Canon) : Out.Canon (execInvalidationDone s) := by
  unfold Machine.execInvalidationDone
  split
  · exact hc
  · trivial

theorem keyDone {res : Byte} (hc : s.Canon) : (s.keyDone res).Canon := .msix hc

theorem execKeyLoad {slot : Nat} (hc : s.Canon) : Out.Canon (execKeyLoad slot s) := by
  unfold Machine.execKeyLoad
  dsimp only
  split
  · exact hc.keyDone
  · split
    · exact hc.keyDone
    · split
      · exact hc.keyDone
      · split
        · exact hc.keyDone
        · exact .keyDone hc

theorem clearKey {slot : Nat} (hc : s.Canon) : (s.clearKey slot).Canon := hc

theorem execKeyClear {slot : Nat} (hc : s.Canon) : Out.Canon (execKeyClear slot s) := by
  unfold Machine.execKeyClear
  split
  · exact hc.keyDone
  · exact hc.clearKey.keyDone

theorem logAer {f bit : Nat} (hc : s.Canon) : (s.logAer f bit).Canon := hc.modPage.ite hc.modPage.modPage.msix
theorem discardWrite {f : Nat} (hc : s.Canon) : (s.discardWrite f).Canon := hc.modPage

theorem badTlp {f bit : Nat} (hc : s.Canon) : (s.badTlp f bit).Canon :=
  (hc.discardWrite.ite hc).modPage.logAer

theorem configWrite {f off : Nat} {v : W32} (hc : s.Canon) : (s.configWrite f off v).Canon := by
  unfold State.configWrite
  refine .ite (hc.modPage.push.ite hc.modPage) (.ite hc.modPage (.ite (hc.modPage.ite hc.push) (.ite hc ?_)))
  exact hc.modPage.push.ite hc.modPage

theorem releaseWrite {w : Nat} (hc : s.Canon) : (s.releaseWrite w).Canon := hc

theorem acceptWrite {f : Nat} {l : List (Option Home × Nat × List (Option Byte))} (hc : s.Canon) :
    (s.acceptWrite f l).Canon := by
  unfold State.acceptWrite
  with_reducible exact .ite hc.tickDie (.releaseWrite hc.tickDie)

theorem inboundWrite {t : Tlp} (hc : s.Canon) : (s.inboundWrite t).Canon := by
  unfold State.inboundWrite
  refine .ite (hc.ite hc.configWrite) (.ite hc.badTlp (.ite hc.badTlp (.ite hc.discardWrite (.ite hc ?_))))
  split
  · exact hc.acceptWrite.ite hc.logAer
  · exact hc.acceptWrite.ite hc.logAer
  · exact hc

theorem takeIn {t : Tlp} (hc : s.Canon) : (s.takeIn t).Canon := by
  unfold State.takeIn
  exact .inboundWrite hc

theorem admitHeld {n : Nat} (hc : s.Canon) : (State.admitHeld n s).Canon := by
  induction n generalizing s with
  | zero => exact hc
  | succ n ih =>
    unfold State.admitHeld
    split
    · exact hc
    · split
      · exact ih hc.takeIn
      · exact hc

theorem hostSem {g : Nat} {byte : Nat → Option Byte} {unit : Nat} {clock : Clock} (hc : s.Canon) :
    (s.hostSem t g byte unit clock).Canon :=
  (hc.modSem.ite hc).ite ((hc.ite hc.modSem).ite (((hc.ite hc.creditSem).ite (hc.modSem.ite hc)).ite hc))

theorem applyRoute {h : Home} {addr : Nat} {data : List (Option Byte)} {n k : Nat} {clock : Clock}
    (hc : s.Canon) : (s.applyRoute h addr data n k clock).Canon := by
  unfold State.applyRoute
  extract_lets v
  have hv : v.Canon := hc.writeAt
  split
  · exact hv.hostSem.ite hv
  · exact hv

theorem markRoute {id : Nat} (hc : s.Canon) : (s.markRoute id).Canon := hc

theorem clearRoute {h : Home} {addr : Nat} {data : List (Option Byte)} (hc : s.Canon) :
    (s.clearRoute h addr data).Canon := by
  unfold State.clearRoute
  split
  · exact hc.clearEcc
  · exact hc

theorem execRouteApply {id : Nat} (hc : s.Canon) : Out.Canon (execRouteApply id s) := by
  unfold Machine.execRouteApply
  split
  · trivial
  · split
    · trivial
    · split
      · exact hc.markRoute.later.push
      · split
        · split
          · exact hc.applyRoute
          · exact hc.applyRoute.clearRoute.markRoute.later.applied
        · trivial

theorem execRouteAck {id : Nat} (hc : s.Canon) : Out.Canon (execRouteAck id s) := by
  unfold Machine.execRouteAck
  split
  · trivial
  · split
    · trivial
    · dsimp only
      split
      · exact hc
      · split
        · exact .releaseWrite hc
        · exact hc

theorem completeRead {r : HostRead} {c : Completion} (hc : s.Canon) : (s.completeRead r c).Canon := hc

theorem serveRead {r : HostRead} (hc : s.Canon) : (s.serveRead r).Canon :=
  hc.noteEcc.logAer.completeRead.ite ((hc.foldl fun _ _ hu => hu.mergeDie).completeRead)

theorem holdRead {r : HostRead} (hc : s.Canon) : Out.Canon (s.holdRead r) := by
  unfold State.holdRead
  split
  · trivial
  · exact hc

theorem execHostRead {r : HostRead} (hc : s.Canon) : Out.Canon (execHostRead r s) := by
  unfold Machine.execHostRead
  split
  · exact hc.completeRead
  · split
    · exact hc.holdRead
    · split
      · exact hc.completeRead
      · split
        · exact hc.completeRead
        · split
          · exact hc.holdRead
          · split
            · exact hc
            · split <;> exact hc.completeRead
            · split
              · exact hc.serveRead
              · exact hc.completeRead

theorem execMsiXUnmask {f v : Nat} (hc : s.Canon) : Out.Canon (execMsiXUnmask f v s) := by
  unfold Machine.execMsiXUnmask
  split
  · exact hc
  · exact hc.modPage.msix.ite hc.modPage

theorem withdraw {f q : Nat} (hc : s.Canon) : (s.withdraw f q).Canon :=
  (hc.foldl fun _ _ hu => hu.setStatus.writeStatusWord).modQueue

theorem kill {k : Nat} (hc : s.Canon) : (s.kill t k).Canon := hc.fatal

theorem execPcieLinkTraining {lanes gts : Nat} (hc : s.Canon) : Out.Canon (execPcieLinkTraining lanes gts s) := by
  unfold Machine.execPcieLinkTraining
  split
  · exact hc
  · trivial

theorem execPodLinkFailure {io lane : Nat} (hc : s.Canon) : Out.Canon (execPodLinkFailure io lane s) := by
  unfold Machine.execPodLinkFailure
  split
  · exact hc
  · exact .notePath hc

theorem servePod {a : PodAccess} (hc : s.Canon) : (s.servePod a).Canon :=
  hc.noteEcc.podAnswer.ite ((hc.foldl fun _ _ hu => hu.mergeDie).podAnswer)

theorem servePods (hc : s.Canon) : s.servePods.Canon := by
  unfold State.servePods
  refine hc.foldl fun u q hu => ?_
  split
  · exact .ite (.servePod hu) hu
  · exact hu

theorem acceptPod {a : PodAccess} {l : List Byte} (hc : s.Canon) : (s.acceptPod a l).Canon := by
  unfold State.acceptPod
  extract_lets r
  have hr : r.1.Canon := by
    refine hc.foldlPair fun _ _ hv => ?_
    exact hv.send
  exact hr.podAnswer.ite hr

theorem podBarrier {a : PodAccess} {b : PodBarrier} (hc : s.Canon) : (s.podBarrier a b).Canon := by
  unfold State.podBarrier
  split
  · exact hc.send.ite hc
  · exact hc.send.ite hc
  · exact hc.sendQuiet.ite hc

theorem execIncomingPodAccess {a : PodAccess} (hc : s.Canon) : Out.Canon (execIncomingPodAccess a s) := by
  unfold Machine.execIncomingPodAccess
  split
  · exact hc.podBarrier.ite hc
  · extract_lets n k
    split
    · exact hc.podAnswer
    · split
      · exact hc.acceptPod
      · exact .ite hc.servePod hc

theorem writeVa {k va fuel : Nat} {l : List Byte} {after : List Nat} (hc : s.Canon) :
    (s.writeVa t k va l after fuel).1.Canon := by
  induction fuel generalizing s va l with
  | zero => exact hc
  | succ fuel ih =>
    unfold State.writeVa
    dsimp only
    split
    · exact hc
    · split
      next e => exact .of_fst e hc.translate
      next e =>
        have hu := of_fst e hc.translate
        split
        · exact hu
        · split
          next e => exact .of_fst e (ih hu.postBytes)
          next e => exact .of_fst e (ih hu.postBytes)

theorem modParked {f : List ParkedAccess → List ParkedAccess} (hc : s.Canon) : (s.modParked t c f).Canon :=
  hc.modCtx

theorem resend {p : ParkedAccess} {d : Dest} (hc : s.Canon) : (s.resend t c p d).Canon :=
  hc.modParked.ite hc.modParked.tickDie

theorem retryHart {p : ParkedAccess} (hc : s.Canon) : (s.retryHart t c p).Canon := by
  unfold State.retryHart
  refine .ite hc.modParked ?_
  split
  next e => exact (of_fst e hc.translate).resend
  next e =>
    have hv := of_fst e hc.translate
    dsimp only
    split
    next e => exact (of_fst e hv.park).modParked
    next e => exact .of_fst e hv.park

theorem settle {seq : W32} (hc : s.Canon) : (s.settle t c seq).Canon := hc.modCtx

theorem serveRetry {seq : W32} (hc : s.Canon) : (s.serveRetry t c seq).Canon := by
  unfold State.serveRetry
  dsimp only
  split
  · exact hc.settle.modEntry
  · exact hc.settle.retryHart
  · exact hc.settle

theorem serveAbort {seq : W32} (hc : s.Canon) : (s.serveAbort t c seq).Canon := by
  unfold State.serveAbort
  dsimp only
  split
  · exact hc.settle.fatal
  · exact hc.settle.fatal
  · exact hc.settle

theorem writeMaps {k : Nat} (hc : s.Canon) : (s.writeMaps t k).Canon := by
  unfold State.writeMaps
  exact hc.writeVa

theorem replySaved {k : Nat} {seq : W32} {abort : Bool} (hc : s.Canon) : (s.replySaved t k seq abort).Canon :=
  hc.modCtx.writeMaps.serveAbort.modCtx.ite hc.modCtx.writeMaps

theorem reply {f n : Nat} {seq : W32} {abort : Bool} (hc : s.Canon) : (s.reply f t n seq abort).Canon := by
  unfold State.reply
  split
  · exact hc
  · exact hc.replySaved.ite (hc.serveAbort.ite hc.serveRetry)

theorem serveMaps {l : List W32} (hc : s.Canon) : (s.serveMaps t c l).Canon := by
  induction l generalizing s with
  | nil => exact hc
  | cons q l ih =>
    unfold State.serveMaps
    exact hc.serveAbort.ite ((ih hc.serveRetry).ite (ih hc))

theorem restart (hc : s.Canon) : (s.restart t c).Canon := hc.modCtx.modHart.serveMaps

theorem execDepartedSetFlush {k : Nat} (hc : s.Canon) : Out.Canon (execDepartedSetFlush t k s) := by
  unfold Machine.execDepartedSetFlush
  split
  · trivial
  · exact hc.writeVa.modCtx

theorem execWatchdog (hc : s.Canon) : Out.Canon (execWatchdog s) := by
  unfold Machine.execWatchdog
  dsimp only
  split
  · exact hc.modCtx.event
  · split
    · trivial
    · exact hc.modHart.event

theorem complete {f : Nat} {w : W64} {res : Byte} (hc : s.Canon) : (s.complete f w res).Canon := hc.modPage

theorem withCommand {i : Instr} {g : Nat → W64 → Nat → Nat → State}
    (hc : s.Canon) (hf : ∀ f w t k, (g f w t k).Canon) : Out.Canon (s.withCommand i g) := by
  unfold State.withCommand
  dsimp only
  split
  · trivial
  · split
    · exact hc.complete
    · split
      · exact hc.complete
      · exact hf _ _ _ _

theorem await {f : Nat} {header : Option Nat} {out : List Nat} (hc : s.Canon) : (s.await f header out).Canon :=
  hc.modPage

theorem rekey {a b : Nat} (hc : s.Canon) : (s.rekey t a b).Canon := .modTile (.modEngine hc.flushFreezeOf)

theorem writeSections {k area : Nat} {dir : List (Nat × Nat)} {l : List (Nat × List Byte)} (hc : s.Canon) :
    (s.writeSections t k area dir l).1.Canon := by
  induction l generalizing s with
  | nil => exact hc
  | cons x l ih =>
    unfold State.writeSections
    dsimp only
    split
    next e => exact .of_fst e hc.writeVa
    next e =>
      have hu := of_fst e hc.writeVa
      split
      next e => exact .of_fst e (ih hu)
      next e => exact .of_fst e (ih hu)

theorem stopContext {k : Nat} (hc : s.Canon) : (s.stopContext t k).Canon :=
  hc.flushFreezeOf.drainItems.leaveTurn.hartBoundary

theorem abandonSave {f : Nat} {w : W64} {k : Nat} (hc : s.Canon) : (s.abandonSave f w t k).Canon :=
  hc.modCtx.restart.complete

theorem finishSave {f : Nat} {w : W64} {k : Nat} (hc : s.Canon) : (s.finishSave f w t k).Canon :=
  hc.modCtx.rekey.complete

theorem saveMove {f : Nat} {w : W64} {k : Nat} (hc : s.Canon) : OptCanon (s.saveMove f w t k) := by
  unfold State.saveMove
  split
  · split
    · trivial
    · dsimp only
      split
      next e => exact (of_fst e hc.bumpFree.writeSections).await
      next e => exact (of_fst e hc.bumpFree.writeSections).abandonSave
  · split
    · trivial
    · split
      · exact hc.abandonSave
      · split
        · exact hc.finishSave
        · dsimp only
          split
          next e => exact (of_fst e hc.writeVa).await
          next e => exact (of_fst e hc.writeVa).abandonSave

theorem execContextSave (hc : s.Canon) : Out.Canon (execContextSave s) := by
  unfold Machine.execContextSave
  dsimp only
  split
  · trivial
  · split
    · trivial
    · split
      · split
        next e => exact OptCanon.of_some e hc.saveMove
        · trivial
      · exact hc.complete

theorem readSections {k area : Nat} {head : List Byte} {l : List Nat} (hc : s.Canon) :
    (s.readSections t k area head l).1.Canon := by
  induction l generalizing s with
  | nil => exact hc
  | cons x l ih =>
    unfold State.readSections
    dsimp only
    split
    · exact ih hc
    · split
      next e => exact .of_fst e hc.readVa
      next e =>
        have hu := of_fst e hc.readVa
        exact ih (hu.modCtx.ite hu)

theorem bringImage {r : LaunchRec} (hc : s.Canon) : (s.bringImage t r).1.Canon := by
  unfold State.bringImage
  extract_lets here
  split
  · exact hc
  · split
    next e =>
      have hu := of_fst e hc.readVa
      split
      · exact hu.modTile
      · exact hu
    next e => exact .of_fst e hc.readVa

theorem resumeFrom {f : Nat} {w : W64} {k : Nat} (hc : s.Canon) : (s.resumeFrom f w t k).Canon := by
  unfold State.resumeFrom
  dsimp only
  split
  next e => exact (of_fst e hc.readVa).complete
  next e =>
    have hu := of_fst e hc.readVa
    refine .ite hu.complete (.ite hu.complete ?_)
    split
    next e => exact (of_fst e hu.bringImage).complete
    next e =>
      have hw := of_fst e hu.bringImage
      split
      next e => exact (of_fst e hw.readSections).setCtx.complete
      next e =>
        have hx := of_fst e hw.readSections
        split
        next e => exact (of_fst e hx.mergeDie.mergeDie.writeVa).setCtx.complete
        next e => exact (of_fst e hx.mergeDie.mergeDie.writeVa).rekey.restart.await

theorem execResume (hc : s.Canon) : Out.Canon (execResume s) := by
  unfold Machine.execResume
  refine hc.withCommand fun f w t x => ?_
  split
  · exact hc.complete
  · exact hc.resumeFrom

theorem endContext {k st : Nat} (hc : s.Canon) : (s.endContext t k st).Canon :=
  hc.flushCounters.modTile.modCtx.finishEnd

theorem execDump (hc : s.Canon) : Out.Canon (execDump s) := by
  unfold Machine.execDump
  refine hc.withCommand fun f w t x => ?_
  split
  · exact hc.complete
  · exact hc.modCtx.modPage

theorem areaSections {k area : Nat} {dir : List (Nat × Nat)} {l : List Nat} (hc : s.Canon) :
    (s.areaSections t k area dir l).1.Canon := by
  induction l generalizing s with
  | nil => exact hc
  | cons x l ih =>
    unfold State.areaSections
    dsimp only
    split
    next e => exact .of_fst e hc.readVa
    next e =>
      have hu := of_fst e hc.readVa
      split
      next e => exact .of_fst e (ih hu)
      next e => exact .of_fst e (ih hu)

theorem dumpSections {k : Nat} {secs : List (List Byte)} (hc : s.Canon) : (s.dumpSections t k secs).1.Canon := by
  unfold State.dumpSections
  split
  · exact hc
  · dsimp only
    split
    next e => exact .of_fst e hc.areaSections
    next e => exact .of_fst e hc.areaSections

theorem quarantine {f : Nat} {w : W64} {k : Nat} (hc : s.Canon) : (s.quarantine f w t k).Canon :=
  hc.modCtx.complete

theorem dumpMove {f : Nat} {w : W64} {k : Nat} (hc : s.Canon) : OptCanon (s.dumpMove f w t k) := by
  unfold State.dumpMove
  split
  · split
    · split
      · trivial
      · exact hc.modCtx
    · split
      · trivial
      · dsimp only
        split
        next e => exact (of_fst e hc.bumpFree.dumpSections).quarantine
        next e =>
          have hx := of_fst e hc.bumpFree.dumpSections
          split
          next e => exact (of_fst e hx.writeSections).await
          next e => exact (of_fst e hx.writeSections).quarantine
  · split
    · trivial
    · split
      · exact hc.quarantine
      · split
        · exact hc.endContext.complete
        · dsimp only
          split
          next e => exact (of_fst e hc.writeSections).quarantine
          next e =>
            have hy := of_fst e hc.writeSections
            split
            next e => exact (of_fst e hy.writeVa).await
            next e => exact (of_fst e hy.writeVa).quarantine

theorem execDumpComplete (hc : s.Canon) : Out.Canon (execDumpComplete s) := by
  unfold Machine.execDumpComplete
  dsimp only
  split
  · trivial
  · split
    · trivial
    · split
      · exact hc.complete
      · split
        next e => exact OptCanon.of_some e hc.dumpMove
        · trivial

theorem execDiscard (hc : s.Canon) : Out.Canon (execDiscard s) := by
  unfold Machine.execDiscard
  refine hc.withCommand fun f w t x => ?_
  split
  · exact hc.complete
  · exact hc.endContext.complete

theorem resumeEnds {f : Nat} (hc : s.Canon) : (s.resumeEnds f).Canon := by
  unfold State.resumeEnds
  split
  · exact hc.complete.ite hc
  · exact hc

theorem execAbort (hc : s.Canon) : Out.Canon (execAbort s) := by
  unfold Machine.execAbort
  refine hc.withCommand fun f w t x => ?_
  split
  · exact hc.complete
  · exact hc.kill.complete

theorem dbgDone {f : Nat} {w : W64} {code : Byte} (hc : s.Canon) : (s.dbgDone f w code).Canon := hc.modPage

theorem badDebug {f : Nat} (hc : s.Canon) : (s.badDebug f).Canon := by
  unfold State.badDebug
  split
  · exact hc.dbgDone.ite hc
  · exact hc

theorem withDebug {i : Instr} {attached halted : Bool}
    {g : Nat → W64 → W64 → Nat → Nat → State × Option Byte}
    (hc : s.Canon) (hf : ∀ f a d t c, (g f a d t c).1.Canon) : Out.Canon (s.withDebug i attached halted g) := by
  unfold State.withDebug
  dsimp only
  split
  · trivial
  · split
    · exact hc.dbgDone
    · split
      · exact hc.dbgDone
      · split
        · exact hc.dbgDone
        · split
          next e => exact (of_fst e (hf _ _ _ _ _)).dbgDone
          next e => exact (of_fst e (hf _ _ _ _ _)).modPage

theorem goOn (hc : s.Canon) : (s.goOn t c).Canon := hc.modDbg.modHart

theorem execHalt (hc : s.Canon) : Out.Canon (execHalt s) := by
  unfold Machine.execHalt
  refine hc.withDebug fun f a d t c => ?_
  extract_lets x
  split
  · exact hc
  · split
    · exact hc
    · exact hc.modDbg

theorem execHaltq (hc : s.Canon) : Out.Canon (execHaltq s) := by
  unfold Machine.execHaltq
  refine hc.withDebug fun x x x t c => ?_
  split
  · exact hc
  · exact hc.modDbg

theorem execHaltTakesEffect (hc : s.Canon) : Out.Canon (execHaltTakesEffect s) := by
  unfold Machine.execHaltTakesEffect
  dsimp only
  split
  · trivial
  · split
    · exact hc.haltNow.dbgDone
    · split
      · exact hc.haltNow.dbgDone
      · exact hc.haltNow

theorem execHaltqStable (hc : s.Canon) : Out.Canon (execHaltqStable s) := by
  unfold Machine.execHaltqStable
  dsimp only
  split
  · exact hc.dbgDone
  · trivial

theorem execStep (hc : s.Canon) : Out.Canon (execStep s) := by
  unfold Machine.execStep
  refine hc.withDebug fun x a x t c => ?_
  split
  · exact hc.modDbg.modHart
  · exact hc.modDbg

theorem execRdst (hc : s.Canon) : Out.Canon (execRdst s) := by
  unfold Machine.execRdst
  refine hc.withDebug fun f a x t c => ?_
  dsimp only
  split
  · exact hc
  · split
    · exact hc
    · exact hc.bumpFree.modPage

theorem execWrst (hc : s.Canon) : Out.Canon (execWrst s) := by
  unfold Machine.execWrst
  refine hc.withDebug fun x a d t c => ?_
  dsimp only
  split
  · exact hc
  · split
    · exact hc
    · exact hc.modCtx

theorem execCancel (hc : s.Canon) : Out.Canon (execCancel s) := by
  unfold Machine.execCancel
  refine hc.withDebug fun x a x t c => ?_
  dsimp only
  split
  · exact hc
  · exact .modCtx hc

theorem execAcct (hc : s.Canon) : Out.Canon (execAcct s) := by
  unfold Machine.execAcct
  refine hc.withDebug fun f a x t x => ?_
  split
  · exact hc
  · exact hc.modPage

end State.Canon

end Sys2Proof.Machine
end

section
/-! PROOFS that a step keeps the memories in canonical form: tile moves, ratings, resets and SPDM; then every
instruction, work item and step (O58). -/

namespace Sys2Proof.Machine

namespace State.Canon
variable {s u : State} {t c : Nat}

theorem fold (hc : s.Canon) : s.fold.Canon := hc
theorem writeCopy {p n : Nat} (hc : s.Canon) : (s.writeCopy p n).Canon := hc.modSite

theorem writeAllSheets (hc : s.Canon) : s.writeAllSheets.Canon :=
  (hc.foldl fun _ _ hu => hu.writeCopy.writeCopy).fold

theorem squash (hc : s.Canon) : (s.squash t).Canon := by
  unfold State.squash
  dsimp only
  generalize State.cycleOwner _ _ = o
  cases o with
  | none => with_reducible exact hc.modEngine.starve
  | some x => with_reducible exact hc.modEngine.chargeAll.modEngine

theorem squashHart (hc : s.Canon) : (s.squashHart t).Canon := by
  unfold State.squashHart
  extract_lets u v
  have hv : v.Canon := hc.foldl fun _ _ hv => hv.noteReady
  generalize u.pickHart t = o
  cases o with
  | none => exact hv.chargeControl.ite hv.chargeControl
  | some c => exact hv.chargeControl.ite hv.charge

theorem drainCtx (hc : s.Canon) : (s.drainCtx t c).Canon := by
  unfold State.drainCtx
  exact (hc.flushFreezeOf.hartBoundary.ite hc.stopContext).flushCounters.modCtx

theorem drainRest (hc : s.Canon) : (s.drainRest t).Canon := hc.foldl fun _ _ hu => hu.drainItems.leaveTurn
theorem drainTile (hc : s.Canon) : (s.drainTile t).Canon := (hc.foldl fun _ _ hu => hu.drainCtx).modTile
theorem failTile {cause : Nat} (hc : s.Canon) : (s.failTile t cause).Canon := hc.drainTile.modTile

theorem tileFail (hc : s.Canon) : (s.tileFail t).Canon := by
  unfold State.tileFail
  with_reducible exact .later (.failTile hc.modSite)

theorem endTile (hc : s.Canon) : (s.endTile t).Canon := hc.foldl fun _ _ hu => hu.fatal.endContext
theorem countError {n : Nat} (hc : s.Canon) : (s.countError t n).Canon := hc.modSite

theorem execLateTransition (hc : s.Canon) : Out.Canon (execLateTransition s) := by
  unfold Machine.execLateTransition
  extract_lets t n cost u v
  have hv : v.Canon := hc.modTile.countError.squash.squashHart.closeCycle
  split
  · trivial
  · split
    · exact hc.endTile
    · exact hv.modTile.tileFail.ite hv

theorem execClockStretch {pct : Nat} (hc : s.Canon) : Out.Canon (execClockStretch t pct s) := by
  unfold Machine.execClockStretch
  split
  · exact hc.modTile
  · trivial

theorem keepCarves (hc : s.Canon) : (s.keepCarves t).Canon := ⟨cellsWf_filter _ hc.1, hc.2⟩

theorem fence {u : Nat} (hc : s.Canon) : (s.fence u).Canon :=
  .ite (.zeroLocal hc ..) (.modTile (.keepCarves hc))

theorem countRetirement {cause : Nat} (hc : s.Canon) : (s.countRetirement cause).Canon := hc

theorem retireSite {p cause : Nat} (hc : s.Canon) : (s.retireSite p cause).Canon :=
  hc.ite hc.modSite.countRetirement.later

theorem resumeMoved {choice waited : Nat} (hc : s.Canon) : (s.resumeMoved t choice waited c).Canon :=
  hc.ite hc.mergeDie.restart.event

theorem moveTo {choice p : Nat} {u : Option Nat} (hc : s.Canon) : (s.moveTo t choice p u).Canon := by
  unfold State.moveTo
  refine .later (.foldl (.modTile (.mergeDie (.keepCarves ?_))) (fun _ _ hu => hu.resumeMoved))
  split
  · exact hc.fence
  · with_reducible exact hc.modSite

theorem execTileMove (hc : s.Canon) : Out.Canon (execTileMove s) := by
  unfold Machine.execTileMove
  dsimp only
  split
  · trivial
  · split
    · exact .moveTo (.retireSite hc.drainRest)
    · exact .later (.modTile (.retireSite hc.drainRest))

theorem execHeldTrafficRelease (hc : s.Canon) : Out.Canon (execHeldTrafficRelease s) := by
  unfold Machine.execHeldTrafficRelease
  dsimp only
  split
  · exact .wantAttempt hc
  · trivial

theorem execRateFloorRetirement (hc : s.Canon) : Out.Canon (execRateFloorRetirement s) := by
  unfold Machine.execRateFloorRetirement
  dsimp only
  split
  · exact hc.failTile
  · trivial

theorem execRatingStep (hc : s.Canon) : Out.Canon (execRatingStep s) := by
  unfold Machine.execRatingStep
  extract_lets t p w now u v
  have hv : v.Canon := hc.modSite.ite hc.modSite.later
  split
  · trivial
  · exact hv.later.ite hv

theorem execThermalThrottle (hc : s.Canon) : Out.Canon (execThermalThrottle s) := by
  unfold Machine.execThermalThrottle
  dsimp only
  split
  · trivial
  · exact hc.modSite.modTile

theorem execThermalRecovery (hc : s.Canon) : Out.Canon (execThermalRecovery s) := by
  unfold Machine.execThermalRecovery
  dsimp only
  split
  · trivial
  · exact hc.modSite.modTile

theorem noteShutdown {cause : Nat} (hc : s.Canon) : (s.noteShutdown cause).Canon := hc
theorem powerDown {b : Boot} (hc : s.Canon) : (s.powerDown b).Canon := ⟨rfl, hc.2⟩

theorem execLaneSwap {link : Nat} (hc : s.Canon) : Out.Canon (execLaneSwap link s) := by
  unfold Machine.execLaneSwap
  split
  · trivial
  · split
    · exact hc
    · refine State.Canon.foldl ?_ fun _ _ hu => hu.failTile
      with_reducible exact hc

theorem noteCorrected {e : Nat × Nat} (hc : s.Canon) : (s.noteCorrected e).Canon := .ite hc hc

theorem execRowRepair {stack row : Nat} (hc : s.Canon) : Out.Canon (execRowRepair stack row s) := by
  unfold Machine.execRowRepair
  split
  · trivial
  · split <;> exact hc

theorem cleared {b : Boot} (hc : s.Canon) : (s.cleared b).Canon := hc

theorem deal (hc : s.Canon) : s.deal.Canon := by
  unfold State.deal
  with_reducible exact hc.foldl fun _ _ hu => hu.modSite

theorem execPackageReset (hc : s.Canon) : Out.Canon (execPackageReset s) := by
  unfold Machine.execPackageReset
  extract_lets n ok u v w x
  have hv : v.Canon := hc.bumpFree
  have hw : w.Canon := by
    unfold w
    split
    · exact .fold (.noteShutdown (by with_reducible exact hv))
    · exact hv
  have hx : x.Canon := hw.cleared
  split
  · exact hw.cleared.deal
  · exact hx

theorem respondSpdm {request response : List Byte} (hc : s.Canon) :
    Out.Canon (s.respondSpdm request response) :=
  hc

theorem spdmError {code : Nat} (hc : s.Canon) : Out.Canon (s.spdmError code) := hc

theorem respondSigned {before : List (List Byte)} {request response : List Byte} (hc : s.Canon) :
    Out.Canon (s.respondSigned before request response) :=
  hc

theorem execGetCapabilities (hc : s.Canon) : Out.Canon (execGetCapabilities s) := by
  unfold Machine.execGetCapabilities
  split
  · exact hc.spdmError
  · exact respondSpdm hc.bumpFree

theorem execNegotiateAlgorithms {asym hash : W32} (hc : s.Canon) :
    Out.Canon (execNegotiateAlgorithms asym hash s) := by
  unfold Machine.execNegotiateAlgorithms
  split
  · exact hc.spdmError
  · exact respondSpdm hc

theorem execGetDigests (hc : s.Canon) : Out.Canon (execGetDigests s) := by
  unfold Machine.execGetDigests
  split
  · exact hc.spdmError
  · exact hc.respondSpdm

theorem execGetCertificate {off len : Nat} (hc : s.Canon) : Out.Canon (execGetCertificate off len s) := by
  unfold Machine.execGetCertificate
  split
  · exact hc.spdmError
  · exact hc.respondSpdm

theorem execChallenge {nonce : BitVec 256} (hc : s.Canon) : Out.Canon (execChallenge nonce s) := by
  unfold Machine.execChallenge
  split
  · exact hc.spdmError
  · exact hc.bumpFree.respondSigned

theorem execGetMeasurements {index : Nat} {nonce : BitVec 256} (hc : s.Canon) :
    Out.Canon (execGetMeasurements index nonce s) := by
  unfold Machine.execGetMeasurements
  split
  · exact hc.spdmError
  · split
    · exact hc.bumpFree.respondSigned
    · split
      · exact hc.bumpFree.respondSigned
      · split
        · exact hc.bumpFree.respondSigned
        · exact hc.spdmError

/-- Every instruction keeps the canonical form, whatever its outcome. -/
theorem exec {i : Instr} (hc : s.Canon) : Out.Canon (exec i s) := by
  cases i <;> simp only [Machine.exec]
  case functionLevelReset =>
    refine .modPage (.foldl (.foldl (hc.foldl fun _ _ hu => hu.withdraw) fun _ _ hu => hu.kill) fun _ _ hu => ?_)
    exact hu.clearKey
  case inboundPostedWrite => exact .ite hc hc.inboundWrite
  case routeApply => exact hc.execRouteApply
  case routeAck => exact hc.execRouteAck
  case hostRead => exact hc.execHostRead
  case registerWrite => exact hc.execRegisterWrite
  case doorbell => exact hc.execDoorbell
  case tlarmWrite => exact hc.execTlarmWrite
  case qownWrite => exact hc.execQownWrite
  case asidEntryWrite => exact hc.execAsidEntryWrite
  case stalledClear => exact hc.execStalledClear
  case regerrClear => exact hc.execRegerrClear
  case invalidatePage | invalidateAsid | invalidateAll | invalidateNone => exact hc.invalidate
  case faultReplyRetry | faultReplyAbort => exact hc.reply
  case keyLoad => exact hc.execKeyLoad
  case keyClear => exact hc.execKeyClear
  case departedSetFlush => exact hc.execDepartedSetFlush
  case cquery => exact hc.modPage
  case negotiateAlgorithms => exact hc.execNegotiateAlgorithms
  case getCertificate => exact hc.execGetCertificate
  case challenge => exact hc.execChallenge
  case getMeasurements => exact hc.execGetMeasurements
  case launchHeadValidation => exact hc.execLaunchHeadValidation
  case clockStretch => exact hc.execClockStretch
  case laneSwap => exact hc.execLaneSwap
  case linkRetrain | distributorWeightUpdate | noOperation => exact hc
  case rowRepair => exact hc.execRowRepair
  case barrierArrival => exact hc.execBarrierArrival
  case retirementMessage => exact hc.execRetirementMessage
  case barrierCompletion => exact hc.execBarrierCompletion
  case semaphoreCredit => exact hc.execSemaphoreCredit
  case writeApply => exact hc.execWriteApply
  case remoteAtomic => exact hc.execRemoteAtomic
  case futurePutApply => exact hc.execFuturePutApply
  case readServe => exact hc.execReadServe
  case readResponse => exact hc.execReadResponse
  case frontierMessage => exact hc.sendQuiet
  case frontierRequest => exact hc.later
  case frontierUpdate => exact hc.execFrontierUpdate
  case copyHeadCheck => exact hc.execCopyHeadCheck
  case copyMove | copyGather | copyConvert | copyAccum | copyAccumk => exact hc.moveSector
  case sectorLanded => exact hc.execSectorLanded
  case stackGather | stackReduce | stackConvert => exact hc.stackSector
  case stackOpen => exact hc.execStackOpen
  case sessionFold => exact hc.execSessionFold
  case stackEntryLeave => exact hc.execStackEntryLeave
  case podSectorTimeout => exact hc.execPodSectorTimeout
  case csrr | csrWrite => exact hc.hartDo fun _ _ _ hu => hu.csrOp
  case controlLoad => exact hc.hartDo (fun _ _ _ hu => hu.hartAccess (fun _ hu => hu.result))
  case controlStore => exact hc.hartDo (fun _ _ _ hu => hu.hartAccess (fun _ hu => hu.hartStore.advance))
  case lr => exact hc.hartDo (fun _ _ _ hu => hu.hartAccess (fun _ hu => hu.modHart.result))
  case sc =>
    refine hc.hartDo fun _ _ _ hu => hu.hartAccess fun _ hv => ?_
    exact hv.modHart.hartStore.result.ite hv.modHart.result
  case controlAmo => exact hc.hartDo (fun _ _ _ hu => hu.hartAccess (fun _ hu => hu.hartStore.result))
  case fence | fenceI => exact hc.hartDo fun _ _ _ hu => hu.advance
  case controlCompute => exact hc.execControlCompute
  case kLda => exact hc.execKLda
  case kStl => exact hc.hartDo (fun _ _ _ hu => hu.xAccess (fun _ hu => hu.advance))
  case kAmoW | kAmoD => exact hc.kAmo
  case kFence => exact hc.hartDo fun _ _ _ hu => hu.unblock.advance.ite hu.block
  case kSarm | kSarmZ => exact hc.kArm
  case kSpost =>
    refine hc.hartDo fun _ _ _ hu => .ite hu.raise (.ite hu.advance ?_)
    exact hu.localCredit.advance.ite hu.hartSend.advance
  case kSwait => exact hc.hartDo fun _ _ _ hu => hu.raise.ite (hu.acquireHart.endWait.ite hu.block)
  case kSread => exact hc.hartDo fun _ _ _ hu => hu.raise.ite hu.acquireHart.result
  case kFput => exact hc.hartDo fun _ _ _ hu => hu.raise.ite (hu.raise.ite hu.hartSend.advance)
  case kFget => exact hc.execKFget
  case kFtry => exact hc.execKFtry
  case kRun | kCopy | kStk =>
    refine hc.hartDo fun _ _ _ hu => ?_
    dsimp only
    split
    · exact hu.raise
    · exact hu.descriptor fun _ => hu.command
  case kRuni => exact hc.hartDo fun _ _ _ hu => hu.command
  case kCopyiIn | kCopyiOut => exact hc.kCopyi
  case kMfence => exact hc.hartDo fun _ _ _ hu => hu.modCtx.advance
  case kTlwait => exact hc.hartDo fun _ _ _ hu => hu.acquireLeft.endWait.ite hu.block
  case kTlread | kQstat | kPinfo => exact hc.hartDo fun _ _ _ hu => hu.result
  case kParcel => exact hc.execKParcel
  case kBar => exact hc.hartDo fun _ _ _ hu => hu.block.ite hu.modCtx.hartSend.endWait
  case kBarw => exact hc.hartDo fun _ _ _ hu => hu.endWait.ite hu.block
  case kClosure =>
    exact hc.hartDo fun _ _ _ hu => hu.raise.ite (hu.raise.ite (hu.result.ite ((hu.writeLocal ..).result)))
  case kLaunch =>
    refine hc.hartDo fun _ _ _ hu => .ite hu.raise (.ite hu.raise (.ite hu.raise (.ite hu.raise ?_)))
    exact hu.dataFault.ite (hu.block.ite hu.enterRecord.endWait)
  case kHyield => exact hc.execKHyield
  case kPause => exact hc.hartDo fun _ _ _ hu => hu.modHart.advance
  case kStamp => exact hc.hartDo fun _ _ _ hu => hu.hartRecord.result
  case kTrace => exact hc.hartDo fun _ _ _ hu => hu.hartRecord.advance
  case kAcct => exact hc.execKAcct
  case kRaise => exact hc.hartDo fun _ _ _ hu => hu.event.advance
  case kRaiseF => exact hc.hartDo fun _ _ _ hu => hu.charge.takeStop
  case add | sub | mul | mulh | mulhn | and | or | xor | andn | shl | shr | sra | rotl | min | max |
      minn | maxn =>
    exact hc.scalarRR
  case clz | popc => exact hc.scalarR
  case sel | movi | movhi | aget => exact hc.slotRun fun _ _ hu => hu.issueS
  case addi | andI | orI | xorI => exact hc.scalarRI
  case shlI | shrI | sraI | rotlI => exact hc.scalarSh
  case ceq | cne | clt | cle | cltn | clen => exact hc.scalarCmp
  case ceqI | cneI | cltI | cleI | cltnI | clenI => exact hc.scalarCmpI
  case kand | kor | kxor => exact hc.scalarFlag
  case smov => exact hc.slotRun fun _ _ hu => (hu.modBun.ite hu).issueS
  case aset | aadd => exact hc.slotRun fun _ _ hu => hu.issueA
  case bbc => exact hc.slotRun fun _ _ hu => hu.ite hu.countBlock
  case mark => exact hc.slotRun fun _ _ hu => hu.ring.modBun.ite hu.ring
  case fadd | fsub | fmul | fma | fms | fnma | fnms => exact hc.fpArith
  case fmin | fmax | fminn | fmaxn => exact hc.fpSel
  case fceq | fclt | fcle | fcun => exact hc.fpCompare
  case fclass => exact hc.slotRun fun _ _ hu => hu.fpLanes
  case vaddI32 | vsubI32 | vmulI32 | vand | vor | vxor | vandn | vshl | vshr | vsra | vminI32 | vmaxI32 |
      vminN32 | vmaxN32 | pack =>
    exact hc.vec2
  case vceqI32 | vcltI32 | vcltN32 => exact hc.vecCmp
  case vmov | unpack | bcl | xcl => exact hc.vecMap
  case vmovi | vbcs | vsel | perm | vredAddF | vredMaxF | vredAddI32 | part | ppop =>
    exact hc.slotRun fun _ _ hu => hu.issueV
  case pand | por | pxor | pandn => exact hc.predLogic
  case cvt => exact hc.slotRun fun _ _ hu => (hu.srAdvance.ite hu).fpLanes
  case rsqa | rcpa | exp2a | log2a | sina | cosa | tanha => exact hc.approx
  case mma | mmaAcc => exact hc.mmaRun
  case mzero => exact hc.slotRun fun _ _ hu => hu.stopSlot.ite hu.issue
  case mdrain => exact hc.execMdrain
  case msetF | msetS | sarm | sarmZ => exact hc.slotRun fun _ _ hu => hu.issue
  case msetC => exact hc.execMsetC
  case rstat =>
    refine hc.slotRun fun _ _ hu => .ite hu.stopSlot (.ite hu.stopSlot (.ite hu.stopSlot (.ite hu.stopSlot ?_)))
    exact hu.issue.modBun.issueV.ite hu.issue.issueV
  case vld | vldB | vldS | vldx => exact hc.slotRun fun _ _ hu => hu.loadLanes
  case vst | vstS | vstx => exact hc.slotRun fun _ _ hu => hu.storeLanes
  case sld | sst =>
    refine hc.slotRun fun _ _ hu => ?_
    dsimp only
    split
    · exact hu.stopSlot
    · exact hu.issue
  case spill => exact hc.execSpill
  case fill => exact hc.execFill
  case swait => exact hc.slotRun fun _ _ hu => hu.acquireSem.ite hu.holdBundle
  case spost => exact hc.slotRun fun _ _ hu => hu.stopSlot.ite (hu.ite hu.issue)
  case podLinkFailure => exact hc.execPodLinkFailure
  case incomingPodAccess => exact hc.execIncomingPodAccess
  case podAcknowledgement => exact hc.execPodAcknowledgement
  case pcieLinkTraining => exact hc.execPcieLinkTraining
  case msiXUnmask => exact hc.execMsiXUnmask
  case powerLimitThrottle => exact hc.foldl fun _ _ hu => hu.modTile
  case illegalInstruction | wfi => exact hc.hartDo fun _ _ _ hu => hu.illegal
  case ienc => exact hc.slotRun fun _ _ hu => hu
  case packageReset => exact hc.execPackageReset
  case invalidationDone => exact hc.execInvalidationDone
  case preempt =>
    exact hc.withCommand fun _ _ _ _ => hc.complete.ite (hc.ite hc.stopContext.flushCounters.modCtx.modPage)
  case contextSave => exact hc.execContextSave
  case resume => exact hc.execResume
  case dump => exact hc.execDump
  case discard => exact hc.execDiscard
  case abort => exact hc.execAbort
  case dumpComplete => exact hc.execDumpComplete
  case attach | setbp | setwp | catchStops => exact hc.withDebug fun _ _ _ _ _ => hc.modDbg
  case detach => exact hc.withDebug fun _ _ _ _ _ => hc.goOn.modDbg
  case halt => exact hc.execHalt
  case haltq => exact hc.execHaltq
  case haltTakesEffect => exact hc.execHaltTakesEffect
  case haltqStable => exact hc.execHaltqStable
  case cont => exact hc.withDebug fun _ _ _ _ _ => hc.goOn
  case step => exact hc.execStep
  case rdst => exact hc.execRdst
  case wrst => exact hc.execWrst
  case cancel => exact hc.execCancel
  case acct => exact hc.execAcct
  case getVersion => exact respondSpdm hc
  case getCapabilities => exact hc.execGetCapabilities
  case getDigests => exact hc.execGetDigests
  case allocationAttempt => exact hc.foldl fun _ _ hu => hu.tryHead
  case blockingHead => exact hc.execBlockingHead
  case taskRetirement => exact hc.execTaskRetirement
  case tileMove => exact hc.execTileMove
  case heldTrafficRelease => exact hc.execHeldTrafficRelease
  case lateTransition => exact hc.execLateTransition
  case ratingStep => exact hc.execRatingStep
  case rateFloorRetirement => exact hc.execRateFloorRetirement
  case rateSheetWrite => exact hc.writeCopy.fold.later.ite hc.writeCopy.fold
  case thermalThrottle => exact hc.execThermalThrottle
  case thermalShutdown | orderlyShutdown => exact hc.noteShutdown.writeAllSheets.powerDown
  case watchdog => exact hc.execWatchdog
  case dealStep => exact hc.execDealStep
  case reclaim => exact hc.execReclaim
  case sectorStart => exact hc.execSectorStart
  case contextSelect => exact hc.execContextSelect
  case segmentBudgetSwitch => exact hc.execSegmentBudgetSwitch
  case runStart => exact hc.execRunStart
  case runComplete => exact hc.execRunComplete
  case drainIssue => exact hc.execDrainIssue
  case landing => exact hc.landDue.landStops.beginBundle
  case accessCycle => exact hc.execAccessCycle
  case bankFreeze => exact hc.execBankFreeze
  case spillAccessDone => exact hc.execSpillAccessDone
  case fetchFreeze => exact hc.execFetchFreeze
  case swaitRelease => exact hc.execSwaitRelease
  case lateStop => exact hc.execLateStop
  case sample => exact hc.execSample
  case pauseEnd => exact hc.execPauseEnd
  case kSwaitTimeout => exact hc.execKSwaitTimeout
  case kTlwaitTimeout => exact hc.execKTlwaitTimeout
  case kBarwTimeout => exact hc.execKBarwTimeout
  case ecall => exact hc.hartDo fun _ _ _ hu => hu.retire.ite hu.raise
  case ebreak => exact hc.hartDo fun _ _ _ hu => hu.raise
  case kFret => exact hc.hartDo fun _ _ _ hu => hu.returnFempty.modHart.ite hu.illegal
  case kJoin => exact hc.hartDo fun _ _ _ hu => hu.acquireLeft.unblock.advance.ite hu.block
  case kExit => exact hc.hartDo fun _ _ _ hu => hu.retire
  case yield => exact hc.slotRun fun _ _ hu => hu.modBun
  case powerLoss => exact hc.powerDown
  case thermalRecovery => exact hc.execThermalRecovery
  case wcol => exact hc.execWcol

theorem absent {o : Out} (hc : s.Canon) (ho : Out.Canon o) : Out.Canon (absent s o) := by
  unfold Machine.absent
  split
  · exact hc
  · exact hc
  · exact ho

theorem runRow {i : Instr} {f : Focus} (hc : s.Canon) : Out.Canon (s.runRow i f) := State.Canon.exec hc

theorem runHart (hc : s.Canon) : Out.Canon (s.runHart t c) := by
  unfold State.runHart
  split
  · exact hc
  · split
    next e => exact .of_fst e hc.hartWork
    next e => exact (of_fst e hc.hartWork).runRow

theorem runSlot {n : Nat} (hc : s.Canon) : Out.Canon (s.runSlot t c n) := by
  unfold State.runSlot
  split
  next e => exact .of_fst e hc.slotWork
  next e => exact (of_fst e hc.slotWork).runRow

theorem runCycle (hc : s.Canon) : (s.runCycle t).Canon := hc.ite hc.modTile.push.later

theorem engineCredits (hc : s.Canon) : (s.engineCredits t).Canon :=
  hc.modEngine.foldl fun _ _ hu => hu.creditSem

theorem copiesTurn (hc : s.Canon) : (s.copiesTurn t).Canon := hc.engineCredits.push
theorem finishCycle (hc : s.Canon) : (s.finishCycle t).Canon := hc.closeCycle.modTile
theorem haltRecord (hc : s.Canon) : (s.haltRecord t c).Canon := hc.ring

theorem runWork {w : Work} (hc : s.Canon) : Out.Canon (s.runWork w) := by
  unfold State.runWork
  split
  · exact hc.absent hc.runRow
  · exact hc.runHart
  · exact hc.runSlot
  · exact hc.endIssue
  · exact hc.runCycle
  · exact hc.push
  · exact hc.engineTurn
  · exact hc.controlTurn
  · exact hc.copiesTurn
  · exact hc.finishCycle
  · exact hc.haltRecord

theorem tidyPage {f : Nat} (hc : s.Canon) : (s.tidyPage f).Canon := by
  unfold State.tidyPage
  extract_lets u v
  have hv : v.Canon := hc.resumeEnds.ite hc.resumeEnds.badDebug
  split
  · exact hv.dbgDone
  · exact hv

theorem tidy (hc : s.Canon) : s.tidy.Canon :=
  hc.leaveTiles.admitHeld.servePods.foldl fun _ _ hu => hu.tidyPage

theorem minute (hc : s.Canon) : s.minute.Canon := by
  unfold State.minute
  refine .foldl ?_ fun _ _ hu => hu.noteCorrected
  with_reducible exact hc

theorem hour (hc : s.Canon) : s.hour.Canon := .ite (.later hc) hc
theorem age (hc : s.Canon) : s.age.Canon := (hc.minute.ite hc).hour.ite (hc.minute.ite hc)

theorem tick (hc : s.Canon) : s.tick.Canon := by
  unfold State.tick
  extract_lets u live v
  have hu : u.Canon := .age hc
  have hv : v.Canon := hu.foldl fun _ _ hw => hw.modTile
  exact hv.later

theorem draw (hc : s.Canon) : s.draw.2.Canon := by
  unfold State.draw
  split <;> exact hc

theorem choice {v : Nat} (hc : s.Canon) : (s.choice v).2.Canon := by
  unfold State.choice
  split
  · exact hc
  · split
    · exact hc
    · split <;> exact hc

theorem turn (hc : s.Canon) : Out.Canon (s.turn) := by
  unfold State.turn
  dsimp only
  split
  next e => exact (of_snd e hc.tidy.draw.choice).runWork
  next e => exact (of_snd e hc.tidy.draw.choice).tick

theorem unpowered (hc : s.Canon) : Out.Canon (s.unpowered) := by
  unfold State.unpowered
  split
  · exact State.Canon.runWork hc
  · trivial

theorem proceed (hc : s.Canon) : Out.Canon (s.proceed) := by
  unfold State.proceed
  split
  · exact hc.unpowered
  · split
    · exact State.Canon.runWork hc
    · exact hc.turn

/-- A step of the machine keeps the canonical form. -/
theorem step (hc : s.Canon) : Out.Canon (step s) := hc.proceed

end State.Canon

end Sys2Proof.Machine

namespace Sys2Proof.Proofs
open Sys2Proof.Machine

/-- Settles O58: the canonical form is an invariant of the step, since every operation on the state that a step
is made of keeps it (`State.Canon.step`). -/
theorem invariantKept : Obligations.InvariantKept := by
  intro s u hc h
  have hs : Out.Canon (step s) := hc.step
  rwa [h] at hs

end Sys2Proof.Proofs
end

section
/-! PROOFS of what a bundle slot does when it issues: the form that every slot instruction has (R180, R181, R184, R208), and the
lanes and flags of a result. -/

namespace Sys2Proof.Proofs

open Sys2Proof.Machine Sys2Proof.Safety

/-! ### The state that a slot's effect begins from (R180) -/

section
variable (s : State) (t c n : Nat)

/-- Passing over free values touches none of the state's tables. -/
theorem reads_cases : Reads s t c n = s ∨ Reads s t c n = s.bumpFree := by
  unfold Reads
  split
  · exact .inr rfl
  · exact .inl rfl

@[simp] theorem tile_reads (x : Nat) : (Reads s t c n).tile x = s.tile x := by
  rcases reads_cases s t c n with h | h
  · rw [h]
  · rw [h]; rfl

@[simp] theorem engine_reads (x : Nat) : (Reads s t c n).engine x = s.engine x := by
  simp only [State.engine, tile_reads]

@[simp] theorem ctx_reads (x d : Nat) : (Reads s t c n).ctx x d = s.ctx x d := by
  simp only [State.ctx, tile_reads]

@[simp] theorem ctx?_reads (x d : Nat) : (Reads s t c n).ctx? x d = s.ctx? x d := by
  simp only [State.ctx?, tile_reads]

@[simp] theorem hart_reads (x d : Nat) : (Reads s t c n).hart x d = s.hart x d := by
  simp only [State.hart, ctx_reads]

@[simp] theorem bun_reads (x d : Nat) : (Reads s t c n).bun x d = s.bun x d := by
  simp only [State.bun, ctx_reads]

theorem quiet_reads : s.Quiet (Reads s t c n) := by
  rcases reads_cases s t c n with h | h <;> rw [h] <;> exact State.quiet_same rfl rfl rfl

theorem bytesKept_reads : BytesKept s (Reads s t c n) := bytesKept_quiet (quiet_reads s t c n)

theorem regsKept_reads : RegsKept s (Reads s t c n) := fun x d q => by simp only [State.getX, hart_reads]

end

/-! ### What leaves the general registers as they are -/

section
variable {s u v : State}

theorem regsKept_trans (h : RegsKept s u) (k : RegsKept u v) : RegsKept s v := fun x d q => (k x d q).trans (h x d q)

theorem regsKept_of_harts (h : ∀ x d, (u.hart x d).x = (s.hart x d).x) : RegsKept s u := fun x d q => by
  simp only [State.getX, h]

theorem regsKept_modEngine (s : State) (t : Nat) (f : Engine → Engine) : RegsKept s (s.modEngine t f) :=
  regsKept_of_harts fun x d => by rw [State.hart_modEngine]

theorem bytesKept_modEngine (s : State) (t : Nat) (f : Engine → Engine) : BytesKept s (s.modEngine t f) :=
  bytesKept_quiet (s.quiet_modEngine t f)

theorem hart_modCtx (s : State) (t c : Nat) (f : Ctx → Ctx) (x d : Nat) :
    (s.modCtx t c f).hart x d = if x = t ∧ d = c then (f (s.ctx t c)).hart else s.hart x d := by
  rw [State.hart, State.ctx_modCtx]
  split <;> rfl

/-- A change of a context that writes no register of its hart. -/
theorem regsKept_modCtx (s : State) (t c : Nat) {f : Ctx → Ctx} (hf : (f (s.ctx t c)).hart.x = (s.ctx t c).hart.x) :
    RegsKept s (s.modCtx t c f) := regsKept_of_harts fun x d => by
  rw [hart_modCtx]
  split
  · next h => rw [hf, h.1, h.2]; rfl
  · rfl

theorem regsKept_modBun (s : State) (t c : Nat) (f : Bun → Bun) : RegsKept s (s.modBun t c f) := regsKept_modCtx s t c rfl

theorem bytesKept_modBun (s : State) (t c : Nat) (f : Bun → Bun) : BytesKept s (s.modBun t c f) := bytesKept_modCtx s t c _

end

/-! ### The form of a slot instruction (R181, R184) -/

/-- A slot that issues does its effect. -/
theorem completes_slotRun {s : State} {t c n : Nat} {i : Instr} {P : State → Prop} (h : Issues s i t c n)
    {f : Env → State → State} (e : exec i s = s.slotRun i f) (p : P (f (s.env t c n) (Reads s t c n))) : Completes i s P := by
  obtain ⟨⟨rfl, rfl, hctx⟩, rfl, hbad, hoff⟩ := h
  refine ⟨_, ?_, p⟩
  rw [e, State.slotRun, State.withCtx_some hctx]
  dsimp only
  rw [hbad, hoff]
  rfl

/-- A slot whose flag or predicate is off counts the draw of a stochastic conversion at most (R181, R228). -/
theorem exec_slotRun_off {s : State} {t c n : Nat} {i : Instr} {f : Env → State → State} (h : At s t c)
    (hslot : s.focus.slot = n) (e : exec i s = s.slotRun i f) (hbad : (s.env t c n).bad i = false)
    (hoff : (s.env t c n).off (useOf i) = true) :
    exec i s = .next (if (useOf i).sr then (Reads s t c n).srAdvance (s.env t c n) else Reads s t c n) := by
  obtain ⟨rfl, rfl, hctx⟩ := h
  subst hslot
  rw [e, State.slotRun, State.withCtx_some hctx]
  dsimp only
  rw [hbad, hoff]
  rfl

/-- A slot that the context does not allow stops its bundle with IENC (R184, R185). -/
theorem exec_slotRun_bad {s : State} {t c n : Nat} {i : Instr} {f : Env → State → State} (h : At s t c)
    (hslot : s.focus.slot = n) (e : exec i s = s.slotRun i f) (hbad : (s.env t c n).bad i = true) :
    exec i s = .next ((Reads s t c n).stopSlot (s.env t c n) 1 0 0) := by
  obtain ⟨rfl, rfl, hctx⟩ := h
  subst hslot
  rw [e, State.slotRun, State.withCtx_some hctx]
  dsimp only
  rw [hbad]
  rfl

/-! ### Items that a slot issues (R180, R208) -/

/-- An item issued from a state that differs in bundle registers at most lands as R180 says. -/
theorem landsFrom_issue {r s : State} {t : Nat} (c n lat : Nat) (k : ItemKind) (he : r.engine t = s.engine t)
    (hb : BytesKept s r) (hr : RegsKept s r) : LandsFrom r s (r.issue (s.env t c n) lat k) t c n lat k := by
  have hissue : r.issue (s.env t c n) lat k
      = r.modEngine t fun e => { e with items := e.items ++ [(s.env t c n).item lat k] } := rfl
  have hitems : ((r.issue (s.env t c n) lat k).engine t).items = (s.engine t).items ++ [(s.env t c n).item lat k] := by
    rw [hissue, State.engine_modEngine, he]
  refine ⟨⟨_, hitems, rfl, rfl, rfl, rfl, rfl⟩, ?_, ?_, ?_⟩
  · rw [hitems, ← he]
    rfl
  · exact bytesKept_trans hb (bytesKept_modEngine r t _)
  · exact regsKept_trans hr (regsKept_modEngine r t _)

theorem lands_issue (s : State) (t c n lat : Nat) (k : ItemKind) :
    Lands s ((Reads s t c n).issue (s.env t c n) lat k) t c n lat k :=
  landsFrom_issue c n lat k (engine_reads s t c n t) (bytesKept_reads s t c n) (regsKept_reads s t c n)

/-- An instruction whose effect is one item gives that item. -/
theorem gives_of_exec {i : Instr} {lat : Nat} {k k' : Env → ItemKind}
    (e : ∀ s, exec i s = s.slotRun i fun v u => u.issue v lat (k v)) (hk : ∀ v, k v = k' v) : Gives i lat k' :=
  fun s t c n h => completes_slotRun h (e s) (hk (s.env t c n) ▸ lands_issue s t c n lat _)

/-! ### Lanes and flags (R181, R230) -/

theorem laneAt_lanesOf (f : Nat → W32) {j : Nat} (h : j < 128) : laneAt (lanesOf f) j = f j := by
  simp [laneAt, lanesOf, h]

/-- The sum of the powers of two of the bits of f below n has those bits. -/
theorem sumBits_spec (f : Nat → Bool) (n : Nat) :
    (List.range n).foldl (fun acc i => acc + (if f i then 2 ^ i else 0)) 0 < 2 ^ n
      ∧ ∀ j, ((List.range n).foldl (fun acc i => acc + (if f i then 2 ^ i else 0)) 0).testBit j = (decide (j < n) && f j) := by
  induction n with
  | zero => simp
  | succ n ih =>
    obtain ⟨hlt, hbit⟩ := ih
    rw [List.range_succ, List.foldl_append, List.foldl_cons, List.foldl_nil]
    generalize (List.range n).foldl (fun acc i => acc + (if f i then 2 ^ i else 0)) 0 = m at hlt hbit
    have hpow : 2 ^ (n + 1) = 2 ^ n + 2 ^ n := by omega
    refine ⟨by split <;> omega, fun j => ?_⟩
    cases hf : f n
    · have hj : (decide (j < n + 1) && f j) = (decide (j < n) && f j) := by
        rcases Nat.lt_trichotomy j n with h | h | h
        · simp [h, Nat.lt_succ_of_lt h]
        · simp [h, hf]
        · simp [show ¬ j < n + 1 by omega, show ¬ j < n by omega]
      rw [hj, ← hbit j]
      rfl
    · rw [if_pos rfl, Nat.add_comm]
      rcases Nat.lt_trichotomy j n with h | h | h
      · rw [Nat.testBit_two_pow_add_gt h, hbit]
        simp [h, Nat.lt_succ_of_lt h]
      · subst h
        rw [Nat.testBit_two_pow_add_eq, hbit]
        simp [hf]
      · rw [Nat.testBit_lt_two_pow (Nat.lt_of_lt_of_le (by omega : 2 ^ n + m < 2 ^ (n + 1)) (Nat.pow_le_pow_right (by omega) h))]
        simp [show ¬ j < n + 1 by omega]

theorem getLsbD_maskOf (f : Nat → Bool) {j : Nat} (h : j < 128) : (maskOf f).getLsbD j = f j := by
  rw [maskOf, BitVec.getLsbD_ofNat, (sumBits_spec f 128).2]
  simp [h]

theorem getLsbD_orBits (a b : FFlags) (k : Nat) : (a.or b).bits.getLsbD k = (a.bits.getLsbD k || b.bits.getLsbD k) := by
  have hbits : (a.or b).bits = a.bits ||| b.bits := by
    obtain ⟨a1, a2, a3, a4, a5⟩ := a
    obtain ⟨b1, b2, b3, b4, b5⟩ := b
    revert a1 a2 a3 a4 a5 b1 b2 b3 b4 b5
    decide
  rw [hbits, BitVec.getLsbD_or]

theorem getLsbD_noFlags (k : Nat) : FFlags.none.bits.getLsbD k = false := by
  rw [show FFlags.none.bits = 0 from rfl]
  exact BitVec.getLsbD_zero

/-- A flag of a list of results is set when one of them sets it (R230). -/
theorem getLsbD_orFlags (l : List FFlags) (k : Nat) :
    (orFlags l).bits.getLsbD k = true ↔ ∃ x, x ∈ l ∧ x.bits.getLsbD k = true := by
  have hfold (a : FFlags) : (l.foldl FFlags.or a).bits.getLsbD k = true
      ↔ a.bits.getLsbD k = true ∨ ∃ x, x ∈ l ∧ x.bits.getLsbD k = true := by
    induction l generalizing a with
    | nil => simp
    | cons x l ih =>
      rw [List.foldl_cons, ih, getLsbD_orBits]
      simp [or_assoc]
  rw [orFlags, hfold]
  simp [getLsbD_noFlags]

/-- What each lane of a mask gives, and nothing elsewhere. -/
def maskedLanes {α : Type} (mask : Mask) (f : Nat → α × FFlags) (off : α) : List (α × FFlags) :=
  (List.range 128).map fun j => if mask.getLsbD j then f j else (off, FFlags.none)

section
variable {α : Type} {mask : Mask} {f : Nat → α × FFlags} {off : α}

theorem getD_maskedLanes {j : Nat} (hj : j < 128) (hmask : mask.getLsbD j = true) (d : α × FFlags) :
    (maskedLanes mask f off).getD j d = f j := by
  simp [maskedLanes, hj, hmask]

theorem flags_maskedLanes (k : Nat) :
    (orFlags ((maskedLanes mask f off).map Prod.snd)).bits.getLsbD k = true
      ↔ ∃ j, j < 128 ∧ mask.getLsbD j = true ∧ (f j).2.bits.getLsbD k = true := by
  rw [getLsbD_orFlags]
  constructor
  · rintro ⟨x, hx, hk⟩
    simp only [maskedLanes, List.map_map, List.mem_map, List.mem_range, Function.comp_apply] at hx
    obtain ⟨j, hj, rfl⟩ := hx
    cases hmask : mask.getLsbD j
    · simp [hmask, getLsbD_noFlags] at hk
    · exact ⟨j, hj, hmask, by simpa [hmask] using hk⟩
  · rintro ⟨j, hj, hmask, hk⟩
    refine ⟨(f j).2, ?_, hk⟩
    simp only [maskedLanes, List.map_map, List.mem_map, List.mem_range, Function.comp_apply]
    exact ⟨j, hj, by rw [hmask]; rfl⟩

end

end Sys2Proof.Proofs
end

section
/-! PROOFS of the statements of the scalar slots: register forms (O34), immediates, compares, flags, special reads and address
registers (O35). -/

namespace Sys2Proof.Proofs

open Sys2Proof.Machine Sys2Proof.Safety

/-! ### One rule for each shape of a scalar instruction (R196, R200, R202) -/

section
variable {i : Instr}

theorem gives_scalarRR {g : SR} {f f' : W64 → W64 → W64} {lat : Nat} (e : ∀ s, exec i s = scalarRR i g f s)
    (hlat : (useOf i).lat = lat) (hf : ∀ a b, f a b = f' a b) :
    Gives i lat fun v => .scalar (.s g.sd.toNat) (f' (v.s g.sa) (v.s g.sb)) true :=
  hlat ▸ gives_of_exec e fun v => by rw [hf]

theorem gives_scalarR {g : SU} {f : W64 → W64} (e : ∀ s, exec i s = scalarR i g f s) :
    Gives i 1 fun v => .scalar (.s g.sd.toNat) (f (v.s g.sa)) true := gives_of_exec e fun _ => rfl

theorem gives_scalarRI {g : SI} {f : W64 → W64 → W64} (e : ∀ s, exec i s = scalarRI i g f s) :
    Gives i 1 fun v => .scalar (.s g.sd.toNat) (f (v.s g.sa) (g.imm.signExtend 64)) true := gives_of_exec e fun _ => rfl

theorem gives_scalarSh {g : SSh} {f : W64 → Nat → W64} (e : ∀ s, exec i s = scalarSh i g f s) :
    Gives i 1 fun v => .scalar (.s g.sd.toNat) (f (v.s g.sa) g.cnt.toNat) true := gives_of_exec e fun _ => rfl

theorem gives_scalarCmp {g : SC} {c : Cmp} {test : W64 → W64 → Bool} (e : ∀ s, exec i s = scalarCmp i g c s)
    (hc : ∀ a b : W64, c.test a b = test a b) : Gives i 1 fun v => .flag g.kd.toNat (test (v.s g.sa) (v.s g.sb)) :=
  gives_of_exec e fun v => by rw [hc]

theorem gives_scalarCmpI {g : SCI} {c : Cmp} {test : W64 → Bool} (e : ∀ s, exec i s = scalarCmpI i g c s)
    (hc : ∀ a : W64, c.test a (g.imm.signExtend 64) = test a) : Gives i 1 fun v => .flag g.kd.toNat (test (v.s g.sa)) :=
  gives_of_exec e fun v => by rw [hc]

theorem gives_scalarFlag {g : SK} {f : Bool → Bool → Bool} (e : ∀ s, exec i s = scalarFlag i g f s) :
    Gives i 1 fun v => .flag g.kd.toNat (f (v.k g.ka) (v.k g.kb)) := gives_of_exec e fun _ => rfl

end

/-! ### What the operations compute (R198 to R200) -/

theorem cnt6_eq_mod (b : W64) : cnt6 b = b.toNat % 64 := by
  simp [cnt6]

/-- Bits 64 to 127 of an integer's word of 128 bits are the low word of its quotient by 2^64. -/
theorem extractHigh_ofInt (x : Int) : (BitVec.ofInt 128 x).extractLsb' 64 64 = BitVec.ofInt 64 (x / 2 ^ 64) := by
  apply BitVec.eq_of_toNat_eq
  rw [BitVec.extractLsb'_toNat, BitVec.toNat_ofInt, BitVec.toNat_ofInt, Nat.shiftRight_eq_div_pow]
  omega

theorem mulHigh_eq_div (a b : W64) : mulHigh a b = BitVec.ofInt 64 (a.toInt * b.toInt / 2 ^ 64) := by
  rw [← extractHigh_ofInt, BitVec.ofInt_mul]
  rfl

theorem mulHighN_eq_div (a b : W64) : mulHighN a b = BitVec.ofNat 64 (a.toNat * b.toNat / 2 ^ 64) := by
  have hlt : a.toNat * b.toNat < 2 ^ 64 * 2 ^ 64 := Nat.mul_lt_mul'' a.isLt b.isLt
  rw [← Nat.pow_add] at hlt
  apply BitVec.eq_of_toNat_eq
  rw [mulHighN, BitVec.extractLsb'_toNat, BitVec.toNat_mul, BitVec.toNat_setWidth_of_le (by decide),
    BitVec.toNat_setWidth_of_le (by decide), BitVec.toNat_ofNat, Nat.shiftRight_eq_div_pow, Nat.mod_eq_of_lt hlt]

theorem movhi_eq_or (a : W64) (imm : BitVec 10) : (a.extractLsb' 0 54 ++ imm : W64) = (a <<< 10) ||| imm.setWidth 64 := by
  ext k hk
  rw [BitVec.getElem_append, BitVec.getElem_or, BitVec.getElem_shiftLeft, BitVec.getElem_setWidth]
  by_cases h : k < 10
  · simp [h]
  · have himm : imm.getLsbD k = false := BitVec.getLsbD_of_ge imm k (by omega)
    simp only [h, himm, dif_neg, not_false_eq_true, decide_false, Bool.not_false, Bool.true_and, Bool.or_false]
    rw [BitVec.getElem_extractLsb', Nat.zero_add]
    exact BitVec.getLsbD_eq_getElem _

theorem toInt_signExtend_imm (imm : BitVec 10) : (imm.signExtend 64).toInt = imm.toInt :=
  BitVec.toInt_signExtend_of_le (by decide)

/-- Settles O34: a form is one item by the rule of its shape; shift counts, the upper half of a product and the orders are as the
statement writes them. -/
theorem scalarRegisterForms : Obligations.ScalarRegisterForms := by
  unfold Obligations.ScalarRegisterForms
  refine ⟨?add, ?sub, ?mul, ?mulh, ?mulhn, ?and, ?or, ?xor, ?andn, ?shl, ?shr, ?sra, ?rotl, ?min, ?max, ?minn, ?maxn, ?clz, ?popc,
    ?sel⟩ <;> intro g
  case add => exact gives_scalarRR (exec_add g) rfl fun _ _ => rfl
  case sub => exact gives_scalarRR (exec_sub g) rfl fun _ _ => rfl
  case mul => exact gives_scalarRR (exec_mul g) rfl fun _ _ => rfl
  case mulh => exact gives_scalarRR (exec_mulh g) rfl mulHigh_eq_div
  case mulhn => exact gives_scalarRR (exec_mulhn g) rfl mulHighN_eq_div
  case and => exact gives_scalarRR (exec_and g) rfl fun _ _ => rfl
  case or => exact gives_scalarRR (exec_or g) rfl fun _ _ => rfl
  case xor => exact gives_scalarRR (exec_xor g) rfl fun _ _ => rfl
  case andn => exact gives_scalarRR (exec_andn g) rfl fun _ _ => rfl
  case shl => exact gives_scalarRR (exec_shl g) rfl fun a b => by rw [cnt6_eq_mod]
  case shr => exact gives_scalarRR (exec_shr g) rfl fun a b => by rw [cnt6_eq_mod]
  case sra => exact gives_scalarRR (exec_sra g) rfl fun a b => by rw [cnt6_eq_mod]
  case rotl => exact gives_scalarRR (exec_rotl g) rfl fun a b => by rw [cnt6_eq_mod]
  case min =>
    exact gives_scalarRR (f' := fun a b => if a.toInt ≤ b.toInt then a else b) (exec_min g) rfl fun a b => by
      simp only [BitVec.sle_iff_toInt_le]
  case max =>
    exact gives_scalarRR (f' := fun a b => if b.toInt ≤ a.toInt then a else b) (exec_max g) rfl fun a b => by
      simp only [BitVec.sle_iff_toInt_le]
  case minn =>
    exact gives_scalarRR (f' := fun a b => if a.toNat ≤ b.toNat then a else b) (exec_minn g) rfl fun a b => by
      simp only [BitVec.ule_iff_toNat_le]
  case maxn =>
    exact gives_scalarRR (f' := fun a b => if b.toNat ≤ a.toNat then a else b) (exec_maxn g) rfl fun a b => by
      simp only [BitVec.ule_iff_toNat_le]
  case clz => exact gives_scalarR (exec_clz g)
  case popc => exact gives_scalarR (exec_popc g)
  case sel => exact gives_of_exec (exec_sel g) fun _ => rfl

/-! ### Special reads (R186, R201) -/

theorem fieldNat_quad (w : W64) : fieldNat w 7 4 = w.toNat / 16 % 16 := by
  rw [fieldNat, BitVec.extractLsb'_toNat, Nat.shiftRight_eq_div_pow]

theorem special_reads (s : State) (t c n : Nat) (v : Env) (name : Nat) :
    (Reads s t c n).special v name = s.special v name := by
  rcases reads_cases s t c n with h | h
  · rw [h]
  · rw [h]; rfl

section
variable {s : State} {t c n : Nat} {g : SM}

theorem completes_smov (h : Issues s (.smov g) t c n) (himm : g.imm.toNat ≠ 8) :
    Completes (.smov g) s fun u =>
      Lands s u t c n 1 (.scalar (.s g.sd.toNat) (s.special (s.env t c n) g.imm.toNat) true) := by
  refine completes_slotRun h (exec_smov g s) ?_
  rw [if_neg himm, special_reads]
  exact lands_issue ..

/-- The read of bstc clears WCOLS behind the value that it takes. -/
theorem completes_smov_bstc (h : Issues s (.smov g) t c n) (himm : g.imm.toNat = 8) :
    Completes (.smov g) s fun u =>
      LandsFrom ((Reads s t c n).modBun t c fun b => { b with wcols := false }) s u t c n 1
        (.scalar (.s g.sd.toNat) (s.special (s.env t c n) g.imm.toNat) true) := by
  refine completes_slotRun h (exec_smov g s) ?_
  rw [if_pos himm, special_reads]
  refine landsFrom_issue c n 1 _ ?_ ?_ ?_
  · rw [State.modBun, State.engine_modCtx, engine_reads]
  · exact bytesKept_trans (bytesKept_reads s t c n) (bytesKept_modBun _ t c _)
  · exact regsKept_trans (regsKept_reads s t c n) (regsKept_modBun _ t c _)

end

/-- Settles O35: immediates, compares and flags are items by the rule of their shape; a special read is the value of its name. -/
theorem scalarOtherForms : Obligations.ScalarOtherForms := by
  unfold Obligations.ScalarOtherForms
  refine ⟨⟨?addi, ?movi, ?movhi, ?shlI, ?shrI, ?sraI, ?rotlI, ?andI, ?orI, ?xorI, ?ceq, ?cne, ?clt, ?cle, ?cltn, ?clen, ?ceqI, ?cneI,
    ?cltI, ?cleI, ?cltnI, ?clenI, ?kand, ?kor, ?kxor⟩, ?smov, ?aset, ?aadd, ?aget⟩
  case addi => exact fun g => gives_scalarRI (exec_addi g)
  case movi => exact fun g => gives_of_exec (exec_movi g) fun _ => rfl
  case movhi => exact fun g => gives_of_exec (exec_movhi g) fun v => by rw [movhi_eq_or]
  case shlI => exact fun g => gives_scalarSh (exec_shlI g)
  case shrI => exact fun g => gives_scalarSh (exec_shrI g)
  case sraI => exact fun g => gives_scalarSh (exec_sraI g)
  case rotlI => exact fun g => gives_scalarSh (exec_rotlI g)
  case andI => exact fun g => gives_scalarRI (exec_andI g)
  case orI => exact fun g => gives_scalarRI (exec_orI g)
  case xorI => exact fun g => gives_scalarRI (exec_xorI g)
  case ceq => exact fun g => gives_scalarCmp (exec_ceq g) fun _ _ => rfl
  case cne => exact fun g => gives_scalarCmp (exec_cne g) fun _ _ => rfl
  case clt => exact fun g => gives_scalarCmp (exec_clt g) fun _ _ => rfl
  case cle => exact fun g => gives_scalarCmp (exec_cle g) fun _ _ => rfl
  case cltn => exact fun g => gives_scalarCmp (exec_cltn g) fun _ _ => rfl
  case clen => exact fun g => gives_scalarCmp (exec_clen g) fun _ _ => rfl
  case ceqI => exact fun g => gives_scalarCmpI (exec_ceqI g) fun _ => rfl
  case cneI => exact fun g => gives_scalarCmpI (exec_cneI g) fun _ => rfl
  case cltI =>
    exact fun g => gives_scalarCmpI (test := fun a => decide (a.toInt < g.imm.toInt)) (exec_cltI g) fun a => by
      rw [← toInt_signExtend_imm]
      rfl
  case cleI =>
    exact fun g => gives_scalarCmpI (test := fun a => decide (a.toInt ≤ g.imm.toInt)) (exec_cleI g) fun a => by
      rw [← toInt_signExtend_imm]
      rfl
  case cltnI => exact fun g => gives_scalarCmpI (exec_cltnI g) fun _ => rfl
  case clenI => exact fun g => gives_scalarCmpI (exec_clenI g) fun _ => rfl
  case kand => exact fun g => gives_scalarFlag (exec_kand g)
  case kor => exact fun g => gives_scalarFlag (exec_kor g)
  case kxor => exact fun g => gives_scalarFlag (exec_kxor g)
  case smov =>
    intro s t c n g w h
    refine ⟨fun hname => ?_, fun hname => ?_⟩
    · have hvalue : g.imm.toNat ≠ 8 ∧ w = s.special (s.env t c n) g.imm.toNat := by
        rcases hname with ⟨hi, rfl⟩ | ⟨hi, rfl⟩ | ⟨hi, rfl⟩ | ⟨hi, rfl⟩ | ⟨hi, rfl⟩ | ⟨hi, rfl⟩ | ⟨hi, rfl⟩ | ⟨hi, rfl⟩ <;>
          rw [hi]
        case inr.inr.inl => exact ⟨by decide, by rw [← fieldNat_quad]; rfl⟩
        all_goals exact ⟨by decide, rfl⟩
      rw [hvalue.2]
      exact completes_smov h hvalue.1
    · obtain ⟨hi, rfl⟩ := hname
      have himm : g.imm.toNat = 8 := by rw [hi]; rfl
      have hbstc := completes_smov_bstc h himm
      rwa [himm] at hbstc
  case aset => exact fun kc ad sa imm => gives_of_exec (exec_aset kc ad sa imm) fun _ => rfl
  case aadd => exact fun kc ad imm => gives_of_exec (exec_aadd kc ad imm) fun _ => rfl
  case aget => exact fun kc sd aa => gives_of_exec (exec_aget kc sd aa) fun _ => rfl

end Sys2Proof.Proofs
end

section
/-! PROOF of the statement of the vector slots' floating-point forms (O36). -/

namespace Sys2Proof.Proofs

open Sys2Proof.Machine Sys2Proof.Safety

/-! ### One rule for each shape of a floating-point instruction (R181, R230, R249) -/

section
variable {i : Instr}

/-- A result of lanes has the lanes and the flags of the mask. -/
theorem givesLanes_fpLanes {lat : Nat} {d : BitVec 7} {pr : BitVec 4} {f : Env → Nat → W32 × FFlags}
    (e : ∀ s, exec i s = s.slotRun i fun v u => fpLanes u v lat d (v.pred pr) (f v)) : GivesLanes i lat d pr f := by
  intro s t c n h
  refine completes_slotRun h (e s) ⟨_, _, ⟨fun j hj hmask => ?_, fun b => ?_⟩, lands_issue s t c n lat _⟩
  · rw [laneAt_lanesOf _ hj]
    exact congrArg Prod.fst (getD_maskedLanes (off := (0 : W32)) hj hmask (0, FFlags.none))
  · exact flags_maskedLanes (off := (0 : W32)) b

theorem givesLanes_fpArith {g : VF} {o : FpOp} {lat : Nat} (e : ∀ s, exec i s = fpArith i g o s) (hlat : (useOf i).lat = lat) :
    GivesLanes i lat g.d g.pr fun v j => onLane3 g.ty (o.elem (fpEnv v.fpcw)) (v.src g.a j) (v.src g.b j) (v.src g.d j) :=
  hlat ▸ givesLanes_fpLanes e

theorem givesLanes_fpSel {g : VF} {big num : Bool} (e : ∀ s, exec i s = fpSel i g big num s) :
    GivesLanes i 4 g.d g.pr fun v j =>
      onLane3 g.ty (fun f x y _ => fpSelect (fpEnv v.fpcw) f big num x y) (v.src g.a j) (v.src g.b j) 0 :=
  givesLanes_fpLanes e

theorem givesBits_fpCompare {g : VFC} {o : FpCmp} (e : ∀ s, exec i s = fpCompare i g o s) :
    GivesBits i g.pd g.pr fun v j => cmpLane g.ty o (fpEnv v.fpcw) (v.src g.a j) (v.src g.b j) := by
  intro s t c n h
  refine completes_slotRun h (e s) ⟨_, _, fun j hj hmask => ?_, fun b => ?_, lands_issue s t c n 4 _⟩
  · rw [getLsbD_maskOf _ hj]
    exact congrArg Prod.fst (getD_maskedLanes (off := false) hj hmask (false, FFlags.none))
  · exact flags_maskedLanes (off := false) b

end

/-- Settles O36: the arithmetic forms, the selections and the class are results of lanes, the compares results of bits. -/
theorem vectorFloatForms : Obligations.VectorFloatForms := by
  unfold Obligations.VectorFloatForms
  refine ⟨?fadd, ?fsub, ?fmul, ?fma, ?fms, ?fnma, ?fnms, ?fmin, ?fmax, ?fminn, ?fmaxn, ?fclass, ?fceq, ?fclt, ?fcle, ?fcun⟩ <;>
    intro g
  case fadd => exact givesLanes_fpArith (exec_fadd g) rfl
  case fsub => exact givesLanes_fpArith (exec_fsub g) rfl
  case fmul => exact givesLanes_fpArith (exec_fmul g) rfl
  case fma => exact givesLanes_fpArith (exec_fma g) rfl
  case fms => exact givesLanes_fpArith (exec_fms g) rfl
  case fnma => exact givesLanes_fpArith (exec_fnma g) rfl
  case fnms => exact givesLanes_fpArith (exec_fnms g) rfl
  case fmin => exact givesLanes_fpSel (exec_fmin g)
  case fmax => exact givesLanes_fpSel (exec_fmax g)
  case fminn => exact givesLanes_fpSel (exec_fminn g)
  case fmaxn => exact givesLanes_fpSel (exec_fmaxn g)
  case fclass => exact givesLanes_fpLanes (exec_fclass g)
  case fceq => exact givesBits_fpCompare (exec_fceq g)
  case fclt => exact givesBits_fpCompare (exec_fclt g)
  case fcle => exact givesBits_fpCompare (exec_fcle g)
  case fcun => exact givesBits_fpCompare (exec_fcun g)

end Sys2Proof.Proofs
end

section
/-! PROOFS of what a stop that ends a context leaves of the engine, the charges and the registers, whether or not the context's hart
is blocked (R99, R341 to R344, R353). -/

namespace Sys2Proof.Proofs

open Sys2Proof.Machine Sys2Proof.Safety

/-! ### What leaves all of a tile but its contexts and its translations -/

/-- A tile without its contexts and the entries of its TLB. -/
def bareTile (x : Tile) : Tile := { x with ctxs := [], tlb := [] }

/-- Every tile is what it was but for its contexts and the entries of its TLB. -/
def CtxsOnly (s u : State) : Prop := ∀ x, bareTile (u.tile x) = bareTile (s.tile x)

section
variable {s u v : State}

theorem CtxsOnly.refl (s : State) : CtxsOnly s s := fun _ => rfl

theorem CtxsOnly.trans (h : CtxsOnly s u) (k : CtxsOnly u v) : CtxsOnly s v := fun x => (k x).trans (h x)

theorem CtxsOnly.engine (h : CtxsOnly s u) (x : Nat) : u.engine x = s.engine x := (congrArg Tile.engine (h x) :)

theorem CtxsOnly.charges (h : CtxsOnly s u) (x : Nat) : (u.tile x).charges = (s.tile x).charges :=
  (congrArg Tile.charges (h x) :)

theorem ctxsOnly_of_tiles (h : u.tiles = s.tiles) : CtxsOnly s u := fun x => by
  simp only [State.tile, h]

theorem ctxsOnly_modTile (s : State) (t : Nat) {f : Tile → Tile} (hf : ∀ y, bareTile (f y) = bareTile y) :
    CtxsOnly s (s.modTile t f) := fun x => by
  rw [State.tile_modTile]
  split
  · next h => rw [h]; exact hf _
  · rfl

end

theorem ctxsOnly_modCtx (s : State) (t c : Nat) (f : Ctx → Ctx) : CtxsOnly s (s.modCtx t c f) := ctxsOnly_modTile s t fun _ => rfl

theorem ctxsOnly_bumpFree (s : State) : CtxsOnly s s.bumpFree := ctxsOnly_of_tiles rfl

theorem ctxsOnly_send (s : State) (d : Nat) (h : Home) (b : Body) (l : List Nat) (o : Option (Nat × Nat)) (va : W64) :
    CtxsOnly s (s.send d h b l o va).1 := ctxsOnly_of_tiles (s.tiles_send d h b l o va)

theorem ctxsOnly_tlbFill (s : State) (t : Nat) (e : TlbEntry) : CtxsOnly s (s.tlbFill t e) := by
  unfold State.tlbFill
  dsimp only
  split
  · exact ctxsOnly_modTile s t fun _ => rfl
  · refine (ctxsOnly_modTile s t ?_).trans (ctxsOnly_bumpFree _)
    exact fun _ => rfl

theorem ctxsOnly_translate (s : State) (t : Nat) (a : W16) (va : W64) (n : Need) : CtxsOnly s (s.translate t a va n).1 := by
  rcases translate_cases s t a va n with h | ⟨l, h⟩ | ⟨e, h⟩ <;> rw [h]
  · exact CtxsOnly.refl s
  · unfold State.noteEcc
    split <;> exact ctxsOnly_of_tiles rfl
  · exact ctxsOnly_tlbFill s t e

/-- A record in a fault queue is a translation, a message and a count of the context (R140). -/
theorem ctxsOnly_record (s : State) (t c : Nat) (r : FaultRec) : CtxsOnly s (s.record t c r).1 := by
  unfold State.record
  dsimp only
  split
  · exact CtxsOnly.refl s
  split
  · exact ctxsOnly_modCtx s t c _
  have htr := ctxsOnly_translate s t (s.asidOf t c)
    (BitVec.ofNat 64 (recFqVa (s.recOf t c) + (s.ctx t c).task * 16384 + (s.ctx t c).seq.toNat % 256 * 64)) ⟨false, true, false⟩
  generalize s.translate t (s.asidOf t c) _ _ = p at htr
  obtain ⟨v, f | d⟩ := p
  · exact htr.trans (ctxsOnly_modCtx v t c _)
  have hkept (l : List Byte) (f : Option Nat) :
      CtxsOnly s ((v.postBytes t c d l f []).1.modCtx t c fun x => { x with seq := x.seq + 1 }) :=
    (htr.trans (ctxsOnly_send v _ _ _ _ _ _)).trans (ctxsOnly_modCtx _ t c _)
  cases d with
  | host a => exact hkept _ _
  | hbm a k =>
    dsimp only
    split
    · exact htr.trans (ctxsOnly_modCtx v t c _)
    · exact hkept _ _

theorem ctxsOnly_event (s : State) (t c code reason : Nat) (arg : W64) : CtxsOnly s (s.event t c code reason arg) := by
  unfold State.event
  split
  · exact CtxsOnly.refl s
  · exact ctxsOnly_record s t c _

/-! ### What a stop leaves of a tile -/

/-- The charges of every tile, its issue cycle and the slot at which its bundle has stopped are what they were. -/
structure Bystands (s u : State) : Prop where
  charges : ∀ x, (u.tile x).charges = (s.tile x).charges
  ic : ∀ x, (u.engine x).ic = (s.engine x).ic
  stopAt : ∀ x, (u.engine x).stopAt = (s.engine x).stopAt

theorem Bystands.trans {s u v : State} (h : Bystands s u) (k : Bystands u v) : Bystands s v :=
  ⟨fun x => (k.charges x).trans (h.charges x), fun x => (k.ic x).trans (h.ic x), fun x => (k.stopAt x).trans (h.stopAt x)⟩

theorem CtxsOnly.bystands {s u : State} (h : CtxsOnly s u) : Bystands s u :=
  ⟨h.charges, fun x => by rw [h.engine], fun x => by rw [h.engine]⟩

theorem bystands_modEngine (s : State) (t : Nat) {f : Engine → Engine} (hic : ∀ e, (f e).ic = e.ic)
    (hstop : ∀ e, (f e).stopAt = e.stopAt) : Bystands s (s.modEngine t f) := by
  constructor <;> intro x <;> simp only [State.engine, State.tile_modEngine] <;> split
  case charges.isTrue h => rw [h]
  case ic.isTrue h => rw [hic, h]
  case stopAt.isTrue h => rw [hstop, h]
  all_goals rfl

theorem bystands_drainItems (s : State) (t c : Nat) : Bystands s (s.drainItems t c) := by
  unfold State.drainItems
  refine Bystands.trans ?_ (ctxsOnly_modCtx _ t c _).bystands
  exact bystands_modEngine s t (fun _ => rfl) fun _ => rfl

theorem bystands_leaveTurn (s : State) (t c : Nat) : Bystands s (s.leaveTurn t c) :=
  bystands_modEngine s t (fun e => by dsimp only; split <;> rfl) fun e => by dsimp only; split <;> rfl

theorem bystands_dropLoop (s : State) (t c : Nat) : Bystands s (s.dropLoop t c) :=
  bystands_modEngine s t (fun _ => rfl) fun _ => rfl

/-! ### A record leaves the harts -/

theorem hart_event (s : State) (t c code reason : Nat) (arg : W64) (x d : Nat) :
    (s.event t c code reason arg).hart x d = s.hart x d := by
  have h := s.event_logged t c code reason arg x d
  rw [Ctx.Logged] at h
  rw [State.hart, h]
  rfl

theorem regsKept_event (s : State) (t c code reason : Nat) (arg : W64) : RegsKept s (s.event t c code reason arg) :=
  regsKept_of_harts fun x d => by rw [hart_event]

/-! ### A hart at its boundary (R99) -/

/-- Every tile is what it was but for hart (t, c), which is h. -/
def HartOnTile (s u : State) (t c : Nat) (h : Hart) : Prop := u.tiles = (s.modHart t c fun _ => h).tiles

section
variable {s u : State} {t c : Nat} {h : Hart}

theorem hartOnTile_modHart (hu : u.tiles = s.tiles) (f : Hart → Hart) : HartOnTile s (u.modHart t c f) t c (f (s.hart t c)) := by
  simp only [HartOnTile, State.modHart, State.modCtx, State.setCtx, State.modTile, State.setTile, State.hart, State.ctx, State.tile, hu]

theorem HartOnTile.modHart (hu : HartOnTile s u t c h) (f : Hart → Hart) : HartOnTile s (u.modHart t c f) t c (f h) := by
  have hv := hartOnTile_modHart (t := t) (c := c) hu f
  rw [HartOnTile, State.hart_modHart, State.modHart_modHart] at hv
  exact hv

theorem HartOnTile.bystands (hu : HartOnTile s u t c h) : Bystands s u :=
  ((ctxsOnly_modCtx s t c _).trans (ctxsOnly_of_tiles hu)).bystands

theorem HartOnTile.ctx (hu : HartOnTile s u t c h) (x d : Nat) :
    u.ctx x d = if x = t ∧ d = c then { s.ctx t c with hart := h } else s.ctx x d := by
  have hctx : u.ctx x d = (s.modHart t c fun _ => h).ctx x d := by
    rw [HartOnTile] at hu
    simp only [State.ctx, State.tile, hu]
  rw [hctx, State.modHart, State.ctx_modCtx]

/-- A hart that stops at its boundary keeps its registers, but those of one that an atomic performed at its home still gives its
value. -/
theorem hartOnTile_hartBoundary (s : State) (t c : Nat) :
    ∃ h, HartOnTile s (s.hartBoundary t c) t c h ∧ ((s.hart t c).wait = none → h.x = (s.hart t c).x) := by
  unfold State.hartBoundary
  split
  · exact ⟨_, hartOnTile_modHart rfl _, fun _ => rfl⟩
  · next w hw =>
    have hblocked (h : Hart) : (s.hart t c).wait = none → h.x = (s.hart t c).x := fun hnone => by simp [hw] at hnone
    have hresponse (k : Clock) (id : Nat) (r : BitVec 5) (val : W64) (f : Hart → Hart) :
        ∃ h, HartOnTile s ((((s.acquire t c k).dropMsg id).setX t c r val).modHart t c f) t c h := by
      have hacquired : HartOnTile s ((s.acquire t c k).dropMsg id) t c _ :=
        hartOnTile_modHart (u := s.mergeDie (s.dieOf t) k) rfl fun h => { h with acq := h.acq.merge k }
      unfold State.setX
      split
      · exact ⟨_, hacquired.modHart f⟩
      · exact ⟨_, (hacquired.modHart _).modHart f⟩
    split
    · dsimp only
      split
      case h_3 => exact ⟨_, hartOnTile_modHart rfl _, hblocked _⟩
      all_goals exact (hresponse _ _ _ _ _).imp fun h hk => ⟨hk, hblocked h⟩
    · dsimp only
      refine ⟨_, hartOnTile_modHart ?_ _, hblocked _⟩
      split <;> rfl

end

/-! ### A stop that ends its context (R343, R353) -/

/-- Context c of tile t is faulted with stop r; registers, charges and the engine's cycle are what they were. -/
def Faults (s u : State) (t c : Nat) (r : Stop) : Prop :=
  (u.ctx t c).st = .faulted ∧ (u.ctx t c).stop = some r ∧ RegsHeld s u ∧ Bystands s u

section
variable {s : State} {t c : Nat} {r : Stop}

theorem faults_fatal (h : (s.ctx? t c).isSome = true) (hst : (s.ctx t c).st = .resident) : Faults s (s.fatal t c r) t c r := by
  have hsome : (s.ctx? t c).isNone = false := by simpa using h
  rw [State.fatal]
  dsimp only
  rw [if_neg (by simp [hsome]), if_neg (by simp [hst]), if_neg (by simp [hst])]
  have hharts (x d : Nat) : (((s.drainItems t c).leaveTurn t c).dropLoop t c).hart x d = s.hart x d := by
    simp only [State.dropLoop, State.leaveTurn, State.hart_modEngine, State.drainItems, hart_modCtx, State.ctx_modEngine]
    split
    · next hx => rw [hx.1, hx.2]; rfl
    · rfl
  have hdrained : Bystands s (((s.drainItems t c).leaveTurn t c).dropLoop t c) :=
    ((bystands_drainItems s t c).trans (bystands_leaveTurn _ t c)).trans (bystands_dropLoop _ t c)
  generalize ((s.drainItems t c).leaveTurn t c).dropLoop t c = v at hharts hdrained
  obtain ⟨k, hk, hx⟩ := hartOnTile_hartBoundary v t c
  generalize v.hartBoundary t c = w at hk
  generalize hy : State.modCtx _ t c _ = y
  have hctx (x d : Nat) : y.ctx x d = if x = t ∧ d = c then
      { w.ctx t c with st := .faulted, lastCode := r.code, stop := some r, departed := false,
                       dbg := { (w.ctx t c).dbg with eh := false, hh := false, haltReq := false, pend := none } }
      else w.ctx x d := by
    rw [← hy, State.ctx_modCtx]
    rfl
  have hby : Bystands s y := by
    rw [← hy]
    have hsessions : CtxsOnly w { w with sessions := w.sessions.filter fun n => decide (n.owner ≠ (t, c)) } := ctxsOnly_of_tiles rfl
    exact (hdrained.trans hk.bystands).trans (hsessions.trans (ctxsOnly_modCtx _ t c _)).bystands
  have hlogged := y.event_logged t c r.code 0 0 t c
  rw [Ctx.Logged, hctx t c, if_pos ⟨rfl, rfl⟩] at hlogged
  refine ⟨by rw [hlogged], by rw [hlogged], fun x d q hwait => ?_, hby.trans (ctxsOnly_event y t c _ _ _).bystands⟩
  have hregs : (y.hart x d).x = (s.hart x d).x := by
    rw [← hharts, State.hart, hctx]
    split
    · next hxd =>
      rw [hxd.1, hxd.2, hk.ctx, if_pos ⟨rfl, rfl⟩]
      rw [hxd.1, hxd.2, ← hharts] at hwait
      exact hx hwait
    · next hxd => rw [hk.ctx, if_neg hxd]; rfl
  simp only [State.getX, hart_event, hregs]

/-- A stop that no debugger catches ends its context. -/
theorem faults_takeStop (h : (s.ctx? t c).isSome = true) (hst : (s.ctx t c).st = .resident) (hd : (s.ctx t c).dbg.attached = false)
    (h1 : r.code ≠ 0x0B) (h2 : r.code ≠ 0x0C) : Faults s (s.takeStop t c r) t c r := by
  rw [State.takeStop_fatal hd h1 h2]
  exact faults_fatal h hst

/-- What is done to the state before a stop, but to a hart, the stop does not undo. -/
theorem regsHeld_of_harts {u v : State} (h : ∀ x d, v.hart x d = s.hart x d) (k : RegsHeld v u) : RegsHeld s u := by
  intro x d q hwait
  rw [k x d q (by rw [h]; exact hwait), State.getX, State.getX, h]

end

/-! ### A slot that stops its bundle (R184, R342 to R344) -/

/-- A slot stops its bundle: its context is faulted, and the stop names the slot, its word and the slots done. -/
theorem slotStops_stopSlot {s : State} {t c n code : Nat} (h : At s t c) (hr : Running s t c) (hc1 : code ≠ 0x0B)
    (hc2 : code ≠ 0x0C) (reason : Nat) (addr : W64) :
    SlotStops s ((Reads s t c n).stopSlot (s.env t c n) code reason addr) t c n code reason addr := by
  obtain ⟨-, -, hsome⟩ := h
  obtain ⟨hst, hd, -⟩ := hr
  rw [State.stopSlot]
  dsimp only
  generalize hv : State.modEngine _ _ _ = v
  have hctx (x d : Nat) : v.ctx x d = s.ctx x d := by rw [← hv, State.ctx_modEngine, ctx_reads]
  have hctx? : v.ctx? t c = s.ctx? t c := by
    rw [← hv]
    exact (State.ctx?_modEngine ..).trans (ctx?_reads ..)
  have hstop : (v.engine t).stopAt = some n := by
    rw [← hv]
    exact congrArg Engine.stopAt (State.engine_modEngine _ t _)
  obtain ⟨kst, kstop, kregs, kby⟩ := faults_takeStop (s := v) (t := t) (c := c)
    (r := { (Reads s t c n).stopRec (s.env t c n).t (s.env t c n).c code with
      addr := addr, word := (s.env t c n).word, baddr := (s.env t c n).baddr, slot := (s.env t c n).n,
      done := BitVec.ofNat 8 (2 ^ (s.env t c n).n - 1), reason := reason })
    (by rw [hctx?]; exact hsome) (by rw [hctx]; exact hst) (by rw [hctx]; exact hd) hc1 hc2
  refine ⟨kst, (kby.stopAt t).trans hstop, ?_, _, kstop, rfl, rfl, rfl, rfl, rfl, rfl, rfl, rfl⟩
  exact regsHeld_of_harts (fun x d => by rw [State.hart, hctx]; rfl) kregs

end Sys2Proof.Proofs
end

section
/-! PROOF of the statement of the counters, the markers and the slots that do nothing (O44). -/

namespace Sys2Proof.Proofs

open Sys2Proof.Machine Sys2Proof.Safety

/-! ### A message on its way (R117) -/

/-- A message that is sent is the last in flight; but for it and its die's clock nothing changes. -/
theorem send_spec (s : State) (d : Nat) (home : Home) (body : Body) (after : List Nat) (own : Option (Nat × Nat)) :
    ∃ m : Msg, (s.send d home body after own).1.net = s.net ++ [m] ∧ m.home = home ∧ m.body = body
      ∧ (s.send d home body after own).1 = { s with
          net := (s.send d home body after own).1.net, nextId := s.nextId + 1, dies := (s.send d home body after own).1.dies } := by
  unfold State.send
  split <;> exact ⟨_, rfl, rfl, rfl, rfl⟩

/-! ### The counter cache (R203, R370) -/

theorem ctxs_translate (s : State) (t : Nat) (a : W16) (va : W64) (n : Need) (x : Nat) :
    ((s.translate t a va n).1.tile x).ctxs = (s.tile x).ctxs := by
  rcases translate_cases s t a va n with h | ⟨l, h⟩ | ⟨e, h⟩ <;> rw [h]
  · unfold State.noteEcc
    split <;> rfl
  · have hmod (f : Tile → Tile) (hf : ∀ y, (f y).ctxs = y.ctxs) : ((s.modTile t f).tile x).ctxs = (s.tile x).ctxs := by
      rw [State.tile_modTile]
      split
      · next hx => rw [hf, hx]
      · rfl
    unfold State.tlbFill
    dsimp only
    split
    · exact hmod _ fun _ => rfl
    · refine Eq.trans ?_ (hmod (fun y => { y with tlb := (s.tile t).tlb.eraseIdx (Config.tlbVictim s.free % 256) ++ [e] }) ?_)
      · rfl
      · exact fun _ => rfl

theorem holderOf_translate (s : State) (t u c l : Nat) (a : W16) (va : W64) (n : Need) :
    (s.translate t a va n).1.holderOf u c l = s.holderOf u c l := by
  simp only [State.holderOf, ctxs_translate]

/-- A count that is not zero is written back as an atomic addition, or an event says that it cannot be (R370). -/
theorem writtenBack_writeBack (r : State) (t c : Nat) {x : Delta} (hx : x.delta ≠ 0) : WrittenBack r (r.writeBack t c x) t c x := by
  unfold State.writeBack
  rw [if_neg hx]
  refine ⟨fun q d hd => ?_, fun q f hf => ?_⟩
  · simp only [hd]
    obtain ⟨m, hnet, hhome, hbody, hframe⟩ := send_spec q (q.dieOf t) (q.destHome d).1
      (.count (q.destHome d).2.1 (BitVec.ofNat 64 x.delta) (q.destHome d).2.2 x.n (decide ((q.destHome d).1 = .host)) t x.launch) []
      (some (t, r.holderOf t c x.launch))
    exact ⟨⟨m, hnet, hhome, hbody⟩, hframe⟩
  · have hholder := holderOf_translate r t t c x.launch (recAsid (r.launch x.launch).record)
      (BitVec.ofNat 64 (recBbcVa (r.launch x.launch).record + 8 * x.n)) ⟨true, true, false⟩
    rw [hf] at hholder
    simp only [hf, hholder]

/-- Whether an entry of the cache counts block n of launch l. -/
def countsBlock (l n : Nat) (x : Delta) : Bool := decide (x.launch = l) && decide (x.n = n)

/-- The cache without the entry of block n of launch l. -/
def otherCounts (s : State) (t l n : Nat) : List Delta := (s.tile t).cache.filter fun x => !countsBlock l n x

section
variable {s : State} {t c l n : Nat} {x : Delta}

theorem length_otherCounts (h : (s.tile t).cache.find? (countsBlock l n) = some x) :
    (otherCounts s t l n).length < (s.tile t).cache.length :=
  List.length_filter_lt_length_iff_exists.2 ⟨x, List.mem_of_find?_eq_some h, by simp [List.find?_some h]⟩

theorem otherCounts_eq_cache (h : (s.tile t).cache.find? (countsBlock l n) = none) : otherCounts s t l n = (s.tile t).cache :=
  List.filter_eq_self.2 fun x hx => by simpa using List.find?_eq_none.1 h x hx

theorem countBlock_raises (h : (s.tile t).cache.find? (countsBlock l n) = some x) (hmax : x.delta + 1 ≠ 0xFFFFFFFF)
    (hlen : (otherCounts s t l n).length < 64) :
    s.countBlock t c l n = s.modTile t fun y => { y with cache := { x with delta := x.delta + 1 } :: otherCounts s t l n } := by
  unfold State.countBlock
  dsimp only
  rw [show (s.tile t).cache.find? (fun x => decide (x.launch = l) && decide (x.n = n)) = some x from h]
  dsimp only
  rw [if_neg hmax]
  exact if_neg (Nat.not_le.2 hlen)

theorem countBlock_wraps (h : (s.tile t).cache.find? (countsBlock l n) = some x) (hmax : x.delta + 1 = 0xFFFFFFFF) :
    s.countBlock t c l n
      = (s.modTile t fun y => { y with cache := otherCounts s t l n }).writeBack t c { x with delta := x.delta + 1 } := by
  unfold State.countBlock
  dsimp only
  rw [show (s.tile t).cache.find? (fun x => decide (x.launch = l) && decide (x.n = n)) = some x from h]
  exact if_pos hmax

theorem countBlock_enters (h : (s.tile t).cache.find? (countsBlock l n) = none) (hlen : (s.tile t).cache.length < 64) :
    s.countBlock t c l n = s.modTile t fun y => { y with cache := { launch := l, n := n, delta := 1 } :: y.cache } := by
  have hrest := otherCounts_eq_cache h
  unfold State.countBlock
  dsimp only
  rw [show (s.tile t).cache.find? (fun x => decide (x.launch = l) && decide (x.n = n)) = none from h,
    show (s.tile t).cache.filter (fun x => !(decide (x.launch = l) && decide (x.n = n))) = (s.tile t).cache from hrest]
  dsimp only
  rw [if_neg (by decide), if_neg (Nat.not_le.2 hlen)]
  rfl

/-- A full cache gives up its oldest entry, the last. -/
theorem countBlock_evicts {k : List Delta} (h : (s.tile t).cache.find? (countsBlock l n) = none) (hcache : (s.tile t).cache = k ++ [x])
    (hlen : k.length = 63) :
    s.countBlock t c l n
      = (s.modTile t fun y => { y with cache := { launch := l, n := n, delta := 1 } :: k }).writeBack t c x := by
  have hrest := otherCounts_eq_cache h
  unfold State.countBlock
  dsimp only
  rw [show (s.tile t).cache.find? (fun x => decide (x.launch = l) && decide (x.n = n)) = none from h,
    show (s.tile t).cache.filter (fun x => !(decide (x.launch = l) && decide (x.n = n))) = (s.tile t).cache from hrest]
  dsimp only
  rw [if_neg (by decide), hcache, if_pos (by simp [hlen]), List.take_left' hlen, List.drop_left' hlen]
  rfl

end

/-! ### A record in the trace ring (R364, R365) -/

theorem ctx_ring (s : State) (f t : Nat) (r : RingRec) (x d : Nat) : (s.ring f t r).ctx x d = s.ctx x d := by
  unfold State.ring
  dsimp only
  split
  · rfl
  split
  · rfl
  · simp only [State.ctx, State.tile_modTile]
    split
    · next h => rw [h, State.tile, State.modPage_tiles, State.tiles_send]; rfl
    · rw [State.tile, State.modPage_tiles, State.tiles_send]; rfl

theorem bun_ring (s : State) (f t : Nat) (r : RingRec) (x d : Nat) : (s.ring f t r).bun x d = s.bun x d := by
  simp only [State.bun, ctx_ring]

theorem regsKept_ring (s : State) (f t : Nat) (r : RingRec) : RegsKept s (s.ring f t r) :=
  regsKept_of_harts fun x d => by simp only [State.hart, ctx_ring]

/-! ### A marker (R204, R368, R369) -/

/-- Bit 32 of a traverse record says whether the marker arms its window. -/
theorem traverse_arms (id pc ctx actual expect drift lc : Nat) :
    (traverse id pc ctx actual expect drift lc).data0.getLsbD 32 = true
      ↔ drift ≠ 0 ∧ drift < (Int.ofNat actual - Int.ofNat expect).natAbs := by
  have hbit (b : Bool) (w : W32) : ((0 : BitVec 31) ++ bit b ++ w).getLsbD 32 = b := by
    rw [BitVec.getLsbD_append, BitVec.getLsbD_append]
    cases b <;> rfl
  rw [Machine.traverse, hbit]
  simp

/-- The words of a tile's markers; without an image there are none. -/
def markersOf (x : Tile) : List W64 := (x.image.map Image.markers).getD []

/-- The record that a marker writes for the slot that sees v on tile x. -/
def markRecord (id : BitVec 12) (v : Env) (x : Tile) : RingRec :=
  Machine.traverse id.toNat v.baddr v.x.num (x.clk - (v.x.bun.loop.firstClk).getD x.clk)
    (fieldNat ((markersOf x).getD id.toNat 0) 31 0) (recDrift v.r) (v.lc 0)

/-- A marker writes its record, and arms its window if the record says so. -/
def markEffect (id : BitVec 12) (v : Env) (u : State) : State :=
  let r := markRecord id v (u.tile v.t)
  let w := u.ring (u.asidFn (u.asidOf v.t v.c)) v.t r
  if r.data0.getLsbD 32 then w.modBun v.t v.c fun b => { b with armed := armedFull } else w

theorem exec_mark_eq (id : BitVec 12) (s : State) : exec (.mark id) s = s.slotRun (.mark id) (markEffect id) := by
  refine (exec_mark id s).trans (congrArg (s.slotRun (.mark id)) (funext fun v => funext fun u => ?_))
  unfold markEffect markRecord markersOf
  dsimp only
  cases (u.tile v.t).image with
  | none =>
    simp only [Option.map_none, Option.getD_none, List.getD_nil]
    rfl
  | some i => simp only [Option.map_some, Option.getD_some]

/-- By how many clock cycles a marker is met off its expected offset in the run (R368). -/
def markAway (s : State) (t c : Nat) (id : BitVec 12) : Nat :=
  (Int.ofNat ((s.tile t).clk - (s.bun t c).loop.firstClk.getD (s.tile t).clk)
    - Int.ofNat (fieldNat ((markersOf (s.tile t)).getD id.toNat 0) 31 0)).natAbs

theorem markRecord_arms (s : State) (t c n : Nat) (id : BitVec 12) :
    (markRecord id (s.env t c n) (s.tile t)).data0.getLsbD 32 = true
      ↔ recDrift (s.recOf t c) ≠ 0 ∧ recDrift (s.recOf t c) < markAway s t c id := traverse_arms ..

theorem completes_mark {s : State} {t c n : Nat} {id : BitVec 12} (h : Issues s (.mark id) t c n) :
    Completes (.mark id) s fun u => RegsKept s u
      ∧ u.bun t c = { s.bun t c with
          armed := if recDrift (s.recOf t c) ≠ 0 ∧ recDrift (s.recOf t c) < markAway s t c id
            then armedFull else (s.bun t c).armed } := by
  refine completes_slotRun h (exec_mark_eq id s) ?_
  have harms := markRecord_arms s t c n id
  unfold markEffect
  dsimp only
  rw [tile_reads]
  generalize hw : (Reads s t c n).ring _ _ _ = w
  have hregs : RegsKept s w := hw ▸ regsKept_trans (regsKept_reads s t c n) (regsKept_ring _ _ _ _)
  have hbun : w.bun t c = s.bun t c := by rw [← hw, bun_ring, bun_reads]
  split
  · next hset =>
    refine ⟨regsKept_trans hregs (regsKept_modBun w t c _), ?_⟩
    rw [if_pos (harms.1 hset), ← hbun]
    exact State.bun_modBun w t c _
  · next hclear =>
    refine ⟨hregs, ?_⟩
    rw [if_neg fun hset => hclear (harms.2 hset)]
    exact hbun

/-! ### bbc (R203, R370) -/

theorem completes_bbc {s : State} {t c n : Nat} {kc : BitVec 3} {b : BitVec 14} {P : State → Prop} (h : Issues s (.bbc kc b) t c n)
    (hva : recBbcVa (s.recOf t c) ≠ 0) (p : P ((Reads s t c n).countBlock t c (s.ctx t c).launch b.toNat)) :
    Completes (.bbc kc b) s P := by
  refine completes_slotRun h (exec_bbc kc b s) ?_
  rw [if_neg (show ¬recBbcVa (s.env t c n).r = 0 from hva)]
  exact p

/-- Settles O44: bbc by what the cache holds for its block, mark by its record, and the slots that do nothing or stop their bundle by
the form that all slot instructions have. -/
theorem countersMarksAndEmptySlots : Obligations.CountersMarksAndEmptySlots := by
  unfold Obligations.CountersMarksAndEmptySlots
  refine ⟨?bbc, ?mark, ?yield, ?empty, ?ienc, ?all⟩
  case bbc =>
    intro s t c n kc b h
    refine ⟨fun hva => ?_, fun hva => ⟨fun x hfind hmax hlen => ?_, fun x hfind hmax => ?_, fun hfind => ⟨fun hlen => ?_, fun k x hcache hlen hx => ?_⟩⟩⟩
    · exact completes_slotRun h (exec_bbc kc b s) (if_pos hva)
    all_goals
      refine completes_bbc h hva ?_
      rw [← tile_reads s t c n] at hfind
    · have hother := length_otherCounts hfind
      rw [tile_reads] at hother
      rw [countBlock_raises hfind (Nat.ne_of_lt hmax) (Nat.lt_of_lt_of_le hother hlen), otherCounts, tile_reads]
      rfl
    · rw [countBlock_wraps hfind hmax, otherCounts, tile_reads]
      exact writtenBack_writeBack _ t c (Nat.succ_ne_zero _)
    · rw [countBlock_enters hfind (by rwa [tile_reads])]
    · rw [countBlock_evicts hfind (by rwa [tile_reads]) hlen]
      exact writtenBack_writeBack _ t c hx
  case mark => exact fun s t c n id h => completes_mark h
  case yield =>
    intro s t c n h
    refine completes_slotRun h (exec_yield s) ⟨?_, rfl⟩
    exact congrArg (fun b : Bun => b.loop.yielded) (State.bun_modBun _ t c _)
  case empty => exact fun s => ⟨s, exec_noOperation s, rfl⟩
  case ienc =>
    intro s t c n w h hslot hr
    have hbad : (s.env t c n).bad (.ienc w) = true := by simp [Env.bad]
    exact ⟨_, exec_slotRun_bad h hslot (exec_ienc w s) hbad, slotStops_stopSlot h hr (by decide) (by decide) 0 0⟩
  case all =>
    intro i s t c n hplace hnop h hslot
    obtain ⟨f, e⟩ := exec_slotRun i hplace hnop
    refine ⟨fun hbad hoff => ⟨_, exec_slotRun_off h hslot (e s) hbad hoff, rfl⟩, fun hbad hr => ?_⟩
    exact ⟨_, exec_slotRun_bad h hslot (e s) hbad, slotStops_stopSlot h hr (by decide) (by decide) 0 0⟩

end Sys2Proof.Proofs
end

section
/-! PROOFS of the parts of the bundle engine's statement (O54) about turns and runs: selection, the forced switch, the start of a run and
its end (R279, R280, R284, R334 to R336, R363). -/

namespace Sys2Proof.Proofs

open Sys2Proof.Machine Sys2Proof.Safety

/-! ### Selection (R334, R336) -/

theorem mem_of_leastBy {α : Type} {key : α → Nat} {l : List α} {x : α} (h : leastBy key l = some x) : x ∈ l := by
  induction l generalizing x with
  | nil => cases h
  | cons y l ih =>
    rw [leastBy] at h
    split at h
    · cases h
      exact List.mem_cons_self
    · next z hz =>
      split at h
      · cases h
        exact List.mem_cons_self
      · cases h
        exact List.mem_cons_of_mem _ (ih hz)

theorem le_foldl_max {α : Type} (f : α → Nat) (l : List α) (m : Nat) :
    m ≤ l.foldl (fun a x => max a (f x)) m ∧ ∀ x, x ∈ l → f x ≤ l.foldl (fun a x => max a (f x)) m := by
  induction l generalizing m with
  | nil => exact ⟨Nat.le_refl m, fun x hx => absurd hx List.not_mem_nil⟩
  | cons y l ih =>
    obtain ⟨hm, hl⟩ := ih (max m (f y))
    refine ⟨Nat.le_trans (Nat.le_max_left ..) hm, fun x hx => ?_⟩
    rcases List.mem_cons.1 hx with rfl | hx
    · exact Nat.le_trans (Nat.le_max_right ..) hm
    · exact hl x hx

/-- The selected context is eligible, and no eligible context has a higher effective priority. -/
theorem selected_highest {s : State} {t c : Nat} (h : s.selected t = some c) :
    c ∈ s.eligibles t ∧ ∀ d, d ∈ s.eligibles t → s.effOf t d ≤ s.effOf t c := by
  unfold State.selected at h
  obtain ⟨hmem, htop⟩ := List.mem_filter.1 (mem_of_leastBy h)
  refine ⟨hmem, fun d hd => ?_⟩
  rw [of_decide_eq_true htop]
  exact (le_foldl_max (s.effOf t) (s.eligibles t) 0).2 d hd

section
variable {s : State}

theorem exec_contextSelect_turns {t c : Nat} (ht : s.focus.tile = t) (h : s.selected t = some c) :
    ∃ step : Engine → TurnStep, exec .contextSelect s = .next ((s.modCtx t c fun x => { x with waitClk := 0 }).modEngine t fun e =>
      { e with turn := some c, turnClk := 0, turnStep := step e }) := by
  subst ht
  rw [exec_contextSelect, execContextSelect]
  simp only [h]
  exact ⟨_, rfl⟩

theorem exec_segmentBudgetSwitch_turns {t c : Nat} (ht : s.focus.tile = t) (h : (s.engine t).turn = some c) :
    exec .segmentBudgetSwitch s = .next (s.forceSwitch t c) := by
  subst ht
  rw [exec_segmentBudgetSwitch, execSegmentBudgetSwitch]
  simp only [h]

end

/-! ### A forced switch (R335, R345) -/

section
variable (s : State) (t c : Nat)

theorem items_drainItems : ((s.drainItems t c).engine t).items = (s.engine t).items.filter fun i => decide (i.ctx ≠ c) := by
  unfold State.drainItems
  rw [State.engine_modCtx, State.engine_modEngine]

theorem replay_drainItems :
    ((s.drainItems t c).ctx t c).replay
      = (s.ctx t c).replay ++ ((s.engine t).items.filter fun i => decide (i.ctx = c)).map fun i =>
          { i with due := i.due - (s.engine t).prevented } := by
  unfold State.drainItems
  rw [State.ctx_modCtx_same, State.ctx_modEngine]

theorem regsKept_drainItems : RegsKept s (s.drainItems t c) := by
  unfold State.drainItems
  refine regsKept_trans (regsKept_modEngine s t _) (regsKept_modCtx _ t c ?_)
  rfl

theorem quiet_drainItems : s.Quiet (s.drainItems t c) := by
  unfold State.drainItems
  exact (s.quiet_modEngine t _).trans (State.quiet_modCtx _ t c _)

end

/-! ### Charges (R359) -/

theorem tabGet?_foldl_put {α : Type} (k : α) (slots : List Nat) (l : Tab α) (m : Nat) :
    tabGet? (slots.foldl (fun l n => tabPut l n k) l) m = if m ∈ slots then some k else tabGet? l m := by
  induction slots generalizing l with
  | nil => simp
  | cons n slots ih =>
    rw [List.foldl_cons, ih, tabGet?_put]
    by_cases hm : m ∈ slots <;> by_cases hn : m = n <;> simp [hm, hn]

section
variable (s : State) (t : Nat) (cause : Cause) (owner pc : Nat)

theorem charges_chargeAll {n : Nat} (hn : n < 8) :
    tabGet? ((s.chargeAll t cause owner pc).tile t).charges n = some { owner := owner, cause := cause, pc := pc } := by
  rw [State.chargeAll, State.charge, State.tile_modTile_same, tabGet?_foldl_put, if_pos]
  exact (by decide : ∀ k, k < 8 → k ∈ bundleSlots) n hn

theorem quiet_chargeAll : s.Quiet (s.chargeAll t cause owner pc) := s.quiet_modTile t _ fun _ => rfl

theorem ctx_chargeAll (x d : Nat) : (s.chargeAll t cause owner pc).ctx x d = s.ctx x d := s.ctx_charge ..

theorem ctx?_chargeAll (x d : Nat) : (s.chargeAll t cause owner pc).ctx? x d = s.ctx? x d := s.ctx?_charge ..

theorem hart_chargeAll (x d : Nat) : (s.chargeAll t cause owner pc).hart x d = s.hart x d := by
  rw [State.hart, ctx_chargeAll]
  rfl

theorem engine_chargeAll (x : Nat) : (s.chargeAll t cause owner pc).engine x = s.engine x := by
  rw [State.engine, State.chargeAll, State.charge, State.tile_modTile]
  split
  · next h => rw [h]; rfl
  · rfl

end

theorem charges_modEngine (s : State) (t x : Nat) (f : Engine → Engine) :
    ((s.modEngine t f).tile x).charges = (s.tile x).charges := by
  rw [State.tile_modEngine]
  split
  · next h => rw [h]
  · rfl

/-- A stop for which every slot has been charged ends its context, and the charges stand (R363). -/
theorem faults_charged {s : State} {t c owner pc : Nat} {cause : Cause} {r : Stop} (h : (s.ctx? t c).isSome = true)
    (hst : (s.ctx t c).st = .resident) (hd : (s.ctx t c).dbg.attached = false) (h1 : r.code ≠ 0x0B) (h2 : r.code ≠ 0x0C) :
    let u := (s.chargeAll t cause owner pc).takeStop t c r
    (u.ctx t c).st = .faulted ∧ (u.ctx t c).stop = some r ∧ RegsHeld s u ∧ (u.engine t).ic = (s.engine t).ic
      ∧ ∀ n, n < 8 → tabGet? (u.tile t).charges n = some { owner := owner, cause := cause, pc := pc } := by
  obtain ⟨kst, kstop, kregs, kby⟩ := faults_takeStop (s := s.chargeAll t cause owner pc) (t := t) (c := c) (r := r)
    (by rwa [ctx?_chargeAll]) (by rwa [ctx_chargeAll]) (by rwa [ctx_chargeAll]) h1 h2
  refine ⟨kst, kstop, regsHeld_of_harts (hart_chargeAll s t cause owner pc) kregs, ?_, fun n hn => ?_⟩
  · rw [kby.ic, engine_chargeAll]
  · rw [kby.charges, charges_chargeAll _ _ _ _ _ hn]

/-! ### The start of a run (R279, R280) -/

/-- A run that fails its check is RUNBAD or RUNSHORT. -/
theorem runCheck_code {s : State} {t c : Nat} {e : RunEntry} {f : Nat × Nat} (h : s.runCheck t c e = some f) :
    f.1 = 9 ∨ f.1 = 8 := by
  unfold State.runCheck at h
  dsimp only at h
  iterate 5
    split at h
    · cases h
      exact .inl rfl
  split at h
  · cases h
    exact .inr rfl
  · cases h

section
variable {s : State} {t c : Nat} {e : RunEntry}

theorem exec_runStart_starts (ht : s.focus.tile = t) (hturn : (s.engine t).turn = some c) (hrun : (s.ctx t c).nextRun? = some e)
    (hcheck : s.runCheck t c e = none) :
    ∃ f, exec .runStart s
      = .next (((s.chargeAll t .loopset (s.ctx t c).num (rdStart e.desc)).modCtx t c fun x => x.setup e).modEngine t f) := by
  subst ht
  rw [exec_runStart, execRunStart]
  simp only [hturn, hrun, hcheck]
  exact ⟨_, rfl⟩

theorem exec_runStart_fails (ht : s.focus.tile = t) (hturn : (s.engine t).turn = some c) (hrun : (s.ctx t c).nextRun? = some e)
    {f : Nat × Nat} (hcheck : s.runCheck t c e = some f) :
    exec .runStart s = .next ((s.chargeAll t .fault (s.ctx t c).num (rdStart e.desc)).takeStop t c
      { (s.chargeAll t .fault (s.ctx t c).num (rdStart e.desc)).stopRec t c f.1 with baddr := rdStart e.desc, reason := f.2 }) := by
  subst ht
  rw [exec_runStart, execRunStart]
  simp only [hturn, hrun, hcheck]

/-- The setup of a run loads the loop state and counts the segment; it is charged LOOPSET (R280, R359). -/
theorem completes_runStart (ht : s.focus.tile = t) (hturn : (s.engine t).turn = some c) (hrun : (s.ctx t c).nextRun? = some e)
    (hcheck : s.runCheck t c e = none) :
    Completes .runStart s fun u =>
      (u.bun t c).loop = Loop.start e.desc ∧ (u.bun t c).seg = (s.bun t c).seg + 1
        ∧ (u.bun t c).p = (if rdRot e.desc then clearPreds (s.bun t c).p else (s.bun t c).p)
        ∧ (∀ n, n < 8 → tabGet? (u.tile t).charges n = some { owner := (s.ctx t c).num, cause := .loopset, pc := rdStart e.desc })
        ∧ BytesKept s u ∧ RegsKept s u := by
  obtain ⟨f, hexec⟩ := exec_runStart_starts ht hturn hrun hcheck
  refine ⟨_, hexec, ?_⟩
  have hquiet := quiet_chargeAll s t .loopset (s.ctx t c).num (rdStart e.desc)
  have hcharges (n : Nat) (hn : n < 8) := charges_chargeAll s t .loopset (s.ctx t c).num (rdStart e.desc) hn
  have hctx := ctx_chargeAll s t .loopset (s.ctx t c).num (rdStart e.desc)
  have hhart := hart_chargeAll s t .loopset (s.ctx t c).num (rdStart e.desc)
  generalize s.chargeAll t .loopset (s.ctx t c).num (rdStart e.desc) = v at hquiet hcharges hctx hhart
  have hbun : ((v.modCtx t c fun x => x.setup e).modEngine t f).bun t c = ((s.ctx t c).setup e).bun := by
    rw [State.bun_modEngine, State.bun, State.ctx_modCtx_same, hctx]
  have hregs : RegsKept s v := regsKept_of_harts fun x d => by rw [hhart]
  refine ⟨by rw [hbun]; rfl, by rw [hbun]; rfl, by rw [hbun]; rfl, fun n hn => ?_, ?_, ?_⟩
  · rw [charges_modEngine, (ctxsOnly_modCtx v t c _).charges, hcharges n hn]
  · exact bytesKept_quiet ((hquiet.trans (v.quiet_modCtx t c _)).trans (State.quiet_modEngine _ t f))
  · exact regsKept_trans hregs (regsKept_trans (regsKept_modCtx v t c rfl) (regsKept_modEngine _ t f))

end

/-! ### The end of a run (R284) -/

section
variable {s : State} {t c : Nat} {e : RunEntry} {l : List RunEntry}

/-- The state once the front run has left: l is what follows it, and its timeline counts it. -/
def runLeft (s : State) (t c : Nat) (l : List RunEntry) : State :=
  s.modCtx t c fun x => { x.setCount 4 ((x.count 4).leave 1) with runs := l }

theorem ctx_runLeft : ((runLeft s t c l).ctx t c).runs = l
    ∧ ((runLeft s t c l).ctx t c).count 4 = ((s.ctx t c).count 4).leave 1 := by
  rw [runLeft, State.ctx_modCtx_same]
  exact ⟨rfl, tabGet_put_same _ _ _ _⟩

theorem bytesKept_runLeft : BytesKept s (runLeft s t c l) := bytesKept_modCtx s t c _

theorem regsKept_runLeft : RegsKept s (runLeft s t c l) := regsKept_modCtx s t c rfl

theorem leaveRun_silent (h : (s.ctx t c).runs = e :: l) (hp : rdPen e.desc = false) : s.leaveRun t c = runLeft s t c l := by
  unfold State.leaveRun
  simp only [h, hp]
  rfl

theorem leaveRun_own (h : (s.ctx t c).runs = e :: l) (hp : rdPen e.desc = true) (ht : rdPtile e.desc = t) :
    s.leaveRun t c
      = (runLeft s t c l).modEngine t fun g => { g with credits := g.credits ++ [(rdPg e.desc, rdPcnt e.desc)] } := by
  unfold State.leaveRun
  simp only [h, hp, ht]
  rfl

theorem leaveRun_other (h : (s.ctx t c).runs = e :: l) (hp : rdPen e.desc = true) (ht : rdPtile e.desc ≠ t) :
    s.leaveRun t c = ((runLeft s t c l).send ((runLeft s t c l).dieOf t) (.tile (rdPtile e.desc))
      (.credit (rdPtile e.desc) (rdPg e.desc) (rdPcnt e.desc)) [] none).1 := by
  unfold State.leaveRun
  simp only [h, hp, ht]
  rfl

theorem ctx_send (s : State) (d : Nat) (home : Home) (body : Body) (after : List Nat) (own : Option (Nat × Nat)) (x k : Nat) :
    (s.send d home body after own).1.ctx x k = s.ctx x k := by
  simp only [State.ctx, State.tile, State.tiles_send]

theorem hart_send (s : State) (d : Nat) (home : Home) (body : Body) (after : List Nat) (own : Option (Nat × Nat)) (x k : Nat) :
    (s.send d home body after own).1.hart x k = s.hart x k := by
  simp only [State.hart, ctx_send]

theorem regsKept_send (s : State) (d : Nat) (home : Home) (body : Body) (after : List Nat) (own : Option (Nat × Nat)) :
    RegsKept s (s.send d home body after own).1 := regsKept_of_harts fun x k => by rw [hart_send]

/-- A run that leaves counts on its timeline and gives its credit, if it has one. -/
theorem leaveRun_spec (h : (s.ctx t c).runs = e :: l) :
    ((s.leaveRun t c).ctx t c).runs = l ∧ ((s.leaveRun t c).ctx t c).count 4 = ((s.ctx t c).count 4).leave 1
      ∧ BytesKept s (s.leaveRun t c) ∧ RegsKept s (s.leaveRun t c)
      ∧ (rdPen e.desc = false →
        ((s.leaveRun t c).engine t).credits = (s.engine t).credits ∧ (s.leaveRun t c).net = s.net)
      ∧ (rdPen e.desc = true → rdPtile e.desc = t →
        ((s.leaveRun t c).engine t).credits = (s.engine t).credits ++ [(rdPg e.desc, rdPcnt e.desc)] ∧ (s.leaveRun t c).net = s.net)
      ∧ (rdPen e.desc = true → rdPtile e.desc ≠ t → ∃ m, (s.leaveRun t c).net = s.net ++ [m] ∧ m.home = .tile (rdPtile e.desc)
        ∧ m.body = .credit (rdPtile e.desc) (rdPg e.desc) (rdPcnt e.desc)) := by
  obtain ⟨hruns, hcount⟩ := ctx_runLeft (s := s) (t := t) (c := c) (l := l)
  have hengine : (runLeft s t c l).engine t = s.engine t := State.engine_modCtx ..
  cases hp : rdPen e.desc with
  | false =>
    rw [leaveRun_silent h hp]
    exact ⟨hruns, hcount, bytesKept_runLeft, regsKept_runLeft, fun _ => ⟨by rw [hengine], rfl⟩, fun k => absurd k (by decide),
      fun k => absurd k (by decide)⟩
  | true =>
    by_cases ht : rdPtile e.desc = t
    · rw [leaveRun_own h hp ht, State.ctx_modEngine, State.engine_modEngine, hengine]
      exact ⟨hruns, hcount, bytesKept_trans bytesKept_runLeft (bytesKept_modEngine _ t _),
        regsKept_trans regsKept_runLeft (regsKept_modEngine _ t _), fun k => absurd k (by decide), fun _ _ => ⟨rfl, rfl⟩,
        fun _ k => absurd ht k⟩
    · rw [leaveRun_other h hp ht, ctx_send]
      obtain ⟨m, hnet, hhome, hbody, -⟩ := send_spec (runLeft s t c l) ((runLeft s t c l).dieOf t) (.tile (rdPtile e.desc))
        (.credit (rdPtile e.desc) (rdPg e.desc) (rdPcnt e.desc)) [] none
      exact ⟨hruns, hcount, bytesKept_trans bytesKept_runLeft (bytesKept_quiet (State.quiet_send ..)),
        regsKept_trans regsKept_runLeft (regsKept_send _ _ _ _ _ _), fun k => absurd k (by decide), fun _ k => absurd k ht,
        fun _ _ => ⟨m, hnet, hhome, hbody⟩⟩

/-- What a completed run leaves, a further complete run that is put to work does not change. -/
theorem exec_runComplete_leaves (h : At s t c) (hd : s.runDone t c = true) :
    ∃ w, exec .runComplete s = .next { s.leaveRun t c with micro := w } := by
  obtain ⟨rfl, rfl, -⟩ := h
  rw [exec_runComplete, execRunComplete]
  dsimp only
  rw [hd]
  split
  · next hbad => exact absurd hbad (by decide)
  split
  · exact ⟨_, rfl⟩
  · exact ⟨_, rfl⟩

end

end Sys2Proof.Proofs
end

section
/-! PROOFS of the parts of the bundle engine's statement (O54) about landings: what one landing does, what is due, and the late stops that
landings call for (R180, R183, R230, R231, R305, R343). -/

namespace Sys2Proof.Proofs

open Sys2Proof.Machine Sys2Proof.Safety

/-! ### A write of the scratchpad and the engine (R305) -/

theorem engine_breakReservations (s : State) (t a n : Nat) (w : Option Nat) (x : Nat) :
    (s.breakReservations t a n w).engine x = s.engine x := by
  unfold State.breakReservations
  rw [State.engine, State.tile_modTile]
  split
  · next h => rw [h]; rfl
  · rfl

theorem engine_pokeLocals (s : State) (t a : Nat) (l : List Byte) (x : Nat) : (s.pokeLocals t a l).engine x = s.engine x := by
  rw [State.pokeLocals_eq]
  rfl

/-- A write of the scratchpad marks open windows and leaves the rest of the tile's engine. -/
theorem engine_writeLocal (s : State) (t a : Nat) (l : List Byte) (w : Option Nat) :
    (s.writeLocal t a l w).engine t
      = { s.engine t with items := (s.engine t).items.map fun i => { i with kind := i.kind.taint a l.length } } := by
  rw [State.writeLocal, State.taintWindows, State.engine, State.tile_modTile_same]
  have h : ((s.pokeLocals t a l).breakReservations t a l.length w).engine t = s.engine t := by
    rw [engine_breakReservations, engine_pokeLocals]
  rw [← h]
  rfl

theorem ecc_writeLocal (s : State) (t a : Nat) (l : List Byte) (w : Option Nat) : (s.writeLocal t a l w).ecc = s.ecc :=
  (congrArg State.ecc (s.writeLocal_frame t a l w) :)

theorem regsKept_writeLocal (s : State) (t a : Nat) (l : List Byte) (w : Option Nat) : RegsKept s (s.writeLocal t a l w) :=
  regsKept_of_harts fun x d => by
    obtain ⟨r, hr⟩ := hart_writeLocal s t a l w x d
    rw [hr]

theorem localBad_congr {s u : State} (h : u.ecc = s.ecc) (t a n : Nat) : u.localBad t a n = s.localBad t a n := by
  simp only [State.localBad, State.eccBad, h]

/-! ### One landing (R180, R230) -/

/-- What a landing does to its context: the write of item i, if it stands, and its flags. -/
def landCtx (s : State) (t : Nat) (i : Item) : State :=
  s.modCtx t i.ctx fun x =>
    { x with bun := if s.landsNow t i then x.bun.land i else x.bun, hart := { x.hart with fflags := x.hart.fflags ||| i.kind.flags } }

section
variable {s : State} {t : Nat} {i : Item}

/-- A window whose reads meet an uncorrectable error drops its result and calls for a late stop (R3). -/
theorem land_badWindow {gs : List Nat} {a : Nat} {l : List (Nat × Nat)} {w : Bool} {r : Nat × Nat} (hk : i.kind = .window gs a l w)
    (hr : l.find? (fun r => s.localBad t r.1 r.2) = some r) :
    s.land t i = landCtx ((s.dropResult t i).stopLate t i 0x13 0 (BitVec.ofNat 64 r.1)) t i := by
  unfold State.land
  simp only [hk, hr, landCtx]

theorem land_window {gs : List Nat} {a : Nat} {l : List (Nat × Nat)} {w : Bool} (hk : i.kind = .window gs a l w)
    (hr : l.find? (fun r => s.localBad t r.1 r.2) = none) :
    s.land t i = landCtx (if w && !l.isEmpty then s.openResult t i else s) t i := by
  unfold State.land
  simp only [hk, hr, landCtx]

theorem land_drain {a : Nat} {l : List Byte} {f : BitVec 5} (hk : i.kind = .drain a l f) :
    s.land t i = (landCtx s t i).writeLocal t a l none := by
  unfold State.land
  simp only [hk, landCtx]

theorem land_plain (hw : ∀ gs a l w, i.kind ≠ .window gs a l w) (hd : ∀ a l f, i.kind ≠ .drain a l f) :
    s.land t i = landCtx s t i := by
  unfold State.land
  cases hk : i.kind
  case window gs a l w => exact absurd hk (hw gs a l w)
  case drain a l f => exact absurd hk (hd a l f)
  all_goals simp only [landCtx, hk]

/-- Every landing is that of a window with an error, that of its context with or without a result made free, or that of a drain. -/
theorem land_cases (s : State) (t : Nat) (i : Item) :
    (∃ gs a l w r, i.kind = .window gs a l w ∧ r ∈ l ∧ s.localBad t r.1 r.2 = true
      ∧ s.land t i = landCtx ((s.dropResult t i).stopLate t i 0x13 0 (BitVec.ofNat 64 r.1)) t i)
    ∨ (∃ v, (v = s ∨ v = s.openResult t i) ∧ s.land t i = landCtx v t i)
    ∨ ∃ a l, s.land t i = (landCtx s t i).writeLocal t a l none := by
  cases hk : i.kind
  case window gs a l w =>
    cases hr : l.find? fun r => s.localBad t r.1 r.2 with
    | some r => exact .inl ⟨gs, a, l, w, r, rfl, List.mem_of_find?_eq_some hr, List.find?_some (p := fun r : Nat × Nat => s.localBad t r.1 r.2) hr, land_badWindow hk hr⟩
    | none =>
      refine .inr (.inl ⟨_, ?_, land_window hk hr⟩)
      split
      · exact .inr rfl
      · exact .inl rfl
  case drain a l f => exact .inr (.inr ⟨a, l, land_drain hk⟩)
  all_goals exact .inr (.inl ⟨s, .inl rfl, land_plain (by simp [hk]) (by simp [hk])⟩)

end

/-! ### What a landing leaves -/

section
variable (s : State) (t : Nat) (i : Item)

theorem regsKept_landCtx : RegsKept s (landCtx s t i) := regsKept_modCtx s t i.ctx rfl

theorem engine_landCtx (x : Nat) : (landCtx s t i).engine x = s.engine x := State.engine_modCtx ..

theorem quiet_landCtx : s.Quiet (landCtx s t i) := s.quiet_modCtx t i.ctx _

theorem regsKept_stopLate (code reason : Nat) (addr : W64) : RegsKept s (s.stopLate t i code reason addr) :=
  regsKept_modCtx s t i.ctx rfl

theorem engine_stopLate (code reason : Nat) (addr : W64) (x : Nat) : (s.stopLate t i code reason addr).engine x = s.engine x :=
  State.engine_modCtx ..

theorem quiet_stopLate (code reason : Nat) (addr : W64) : s.Quiet (s.stopLate t i code reason addr) := s.quiet_modCtx t i.ctx _

theorem regsKept_dropResult : RegsKept s (s.dropResult t i) := regsKept_modEngine s t _

theorem quiet_dropResult : s.Quiet (s.dropResult t i) := s.quiet_modEngine t _

theorem regsKept_openResult : RegsKept s (s.openResult t i) := fun _ _ _ =>
  regsKept_modEngine s.bumpFree t _ _ _ _

/-- No landing writes a general register. -/
theorem regsKept_land : RegsKept s (s.land t i) := by
  rcases land_cases s t i with ⟨_, _, _, _, r, -, -, -, h⟩ | ⟨v, rfl | rfl, h⟩ | ⟨a, l, h⟩ <;> rw [h]
  · exact regsKept_trans (regsKept_dropResult s t i) (regsKept_trans (regsKept_stopLate _ t i _ _ _) (regsKept_landCtx _ t i))
  · exact regsKept_landCtx _ t i
  · exact regsKept_trans (regsKept_openResult s t i) (regsKept_landCtx _ t i)
  · exact regsKept_trans (regsKept_landCtx s t i) (regsKept_writeLocal _ t a l none)

theorem ecc_land : (s.land t i).ecc = s.ecc := by
  rcases land_cases s t i with ⟨_, _, _, _, r, -, -, -, h⟩ | ⟨v, rfl | rfl, h⟩ | ⟨a, l, h⟩ <;> rw [h]
  · rfl
  · rfl
  · rfl
  · rw [ecc_writeLocal]
    rfl

/-- What of an item the tile's engine orders its work by. -/
def itemPlace (i : Item) : Nat × Nat × Nat := (i.ctx, i.slot, i.due)

/-- The items of tile t stand in their places. -/
def placesOn (s : State) (t : Nat) : List (Nat × Nat × Nat) := (s.engine t).items.map itemPlace

theorem placesOn_openResult : placesOn (s.openResult t i) t = placesOn s t := by
  unfold placesOn State.openResult
  dsimp only
  rw [State.engine_modEngine, List.map_map]
  refine List.map_congr_left fun j _ => ?_
  rw [Function.comp_apply]
  split
  · split <;> rfl
  · rfl

theorem placesOn_writeLocal (a : Nat) (l : List Byte) (w : Option Nat) : placesOn (s.writeLocal t a l w) t = placesOn s t := by
  unfold placesOn
  rw [engine_writeLocal, List.map_map]
  rfl

/-- A landing whose window meets no uncorrectable error leaves every other item in its place. -/
theorem placesOn_land (h : ∀ gs a l w r, i.kind = .window gs a l w → r ∈ l → s.localBad t r.1 r.2 = false) :
    placesOn (s.land t i) t = placesOn s t := by
  have hctx (v : State) : placesOn (landCtx v t i) t = placesOn v t := by rw [placesOn, engine_landCtx]; rfl
  rcases land_cases s t i with ⟨gs, a, l, w, r, hk, hr, hbad, -⟩ | ⟨v, rfl | rfl, hv⟩ | ⟨a, l, hv⟩
  · rw [h gs a l w r hk hr] at hbad
    cases hbad
  · rw [hv, hctx]
  · rw [hv, hctx, placesOn_openResult]
  · rw [hv, placesOn_writeLocal, hctx]

/-! ### Everything that is due lands -/

/-- Whether item i leaves the engine at its landing in issue cycle ic. -/
def landsAt (ic : Nat) (i : Item) : Bool := decide (i.due ≤ ic) && !i.kind.isAccess && !i.kind.isOut

/-- The state whose landings due have left the engine. -/
def landingsLeft : State := s.modEngine t fun e => { e with items := e.items.filter fun i => !landsAt e.ic i }

theorem landDue_eq : s.landDue t = (s.engine t).dueLandings.foldl (fun u i => u.land t i) (landingsLeft s t) := rfl

theorem engine_landingsLeft :
    (landingsLeft s t).engine t = { s.engine t with items := (s.engine t).items.filter fun i => !landsAt (s.engine t).ic i } :=
  State.engine_modEngine ..

theorem regsKept_landingsLeft : RegsKept s (landingsLeft s t) := regsKept_modEngine s t _

theorem quiet_landingsLeft : s.Quiet (landingsLeft s t) := s.quiet_modEngine t _

theorem regsKept_landDue : RegsKept s (s.landDue t) := by
  rw [landDue_eq]
  exact List.foldlRecOn _ _ (regsKept_landingsLeft s t) fun u hu i _ => regsKept_trans hu (regsKept_land u t i)

theorem placesOn_landDue
    (h : ∀ i gs a l w r, i ∈ (s.engine t).dueLandings → i.kind = .window gs a l w → r ∈ l → s.localBad t r.1 r.2 = false) :
    placesOn (s.landDue t) t = placesOn (landingsLeft s t) t := by
  have hfold : (s.landDue t).ecc = s.ecc ∧ placesOn (s.landDue t) t = placesOn (landingsLeft s t) t := by
    rw [landDue_eq]
    refine List.foldlRecOn (motive := fun u : State => u.ecc = s.ecc ∧ placesOn u t = placesOn (landingsLeft s t) t)
      _ _ ⟨rfl, rfl⟩ fun u hu i hi => ?_
    obtain ⟨hecc, hplaces⟩ := hu
    refine ⟨(ecc_land u t i).trans hecc, (placesOn_land u t i fun gs a l w r hk hr => ?_).trans hplaces⟩
    rw [localBad_congr hecc]
    exact h i gs a l w r hi hk hr
  exact hfold.2

end

/-! ### The late stops of landings (R183, R231, R343) -/

/-- Every hart and every engine is what it was. -/
def HartsEngines (s u : State) : Prop := (∀ x d, u.hart x d = s.hart x d) ∧ ∀ x, u.engine x = s.engine x

theorem HartsEngines.refl (s : State) : HartsEngines s s := ⟨fun _ _ => rfl, fun _ => rfl⟩

theorem HartsEngines.trans {s u v : State} (h : HartsEngines s u) (k : HartsEngines u v) : HartsEngines s v :=
  ⟨fun x d => (k.1 x d).trans (h.1 x d), fun x => (k.2 x).trans (h.2 x)⟩

theorem HartsEngines.regsKept {s u : State} (h : HartsEngines s u) : RegsKept s u := regsKept_of_harts fun x d => by rw [h.1]

theorem hartsEngines_modCtx (s : State) (t c : Nat) {f : Ctx → Ctx} (hf : (f (s.ctx t c)).hart = (s.ctx t c).hart) :
    HartsEngines s (s.modCtx t c f) := by
  refine ⟨fun x d => ?_, fun x => State.engine_modCtx ..⟩
  rw [hart_modCtx]
  split
  · next h => rw [hf, h.1, h.2]; rfl
  · rfl

theorem hartsEngines_landStops (s : State) (t : Nat) (due : List Item) : HartsEngines s (s.landStops t due) := by
  unfold State.landStops
  refine List.foldlRecOn _ _ (List.foldlRecOn _ _ (HartsEngines.refl s) fun u hu e _ => ?_) fun u hu i _ => ?_
  · split
    · exact hu.trans (hartsEngines_modCtx u t _ rfl)
    · exact hu
  · dsimp only
    have hbun : HartsEngines s (u.modBun t i.ctx fun b => { b with wcols := true }) := hu.trans (hartsEngines_modCtx u t _ rfl)
    split
    · exact hbun.trans (hartsEngines_modCtx _ t _ rfl)
    · exact hbun

theorem hartsEngines_beginBundle (s : State) (t : Nat) : HartsEngines s (s.beginBundle t) := by
  unfold State.beginBundle
  split
  · exact HartsEngines.refl s
  · exact hartsEngines_modCtx s t _ rfl

/-- Bundle registers, harts and engines are what they were, memory too; late stops have been added. -/
structure StopsAdded (s u : State) : Prop where
  bun : ∀ x d, u.bun x d = s.bun x d
  harts : HartsEngines s u
  quiet : s.Quiet u
  late : ∀ x d r, r ∈ (s.ctx x d).lateStop → r ∈ (u.ctx x d).lateStop

theorem StopsAdded.refl (s : State) : StopsAdded s s := ⟨fun _ _ => rfl, HartsEngines.refl s, State.Quiet.refl s, fun _ _ _ h => h⟩

theorem StopsAdded.trans {s u v : State} (h : StopsAdded s u) (k : StopsAdded u v) : StopsAdded s v :=
  ⟨fun x d => (k.bun x d).trans (h.bun x d), h.harts.trans k.harts, h.quiet.trans k.quiet, fun x d r hr => k.late x d r (h.late x d r hr)⟩

theorem stopsAdded_stopLate (s : State) (t : Nat) (i : Item) (code reason : Nat) (addr : W64) :
    StopsAdded s (s.stopLate t i code reason addr) := by
  refine ⟨fun x d => ?_, hartsEngines_modCtx s t i.ctx rfl, quiet_stopLate s t i code reason addr, fun x d r hr => ?_⟩
  · rw [State.stopLate, State.bun, State.ctx_modCtx]
    split
    · next h => rw [h.1, h.2]; rfl
    · rfl
  · rw [State.stopLate, State.ctx_modCtx]
    split
    · next h =>
      rw [h.1, h.2] at hr
      exact List.mem_append_left _ hr
    · exact hr

end Sys2Proof.Proofs
end

section
/-! PROOFS of the clauses of the bundle engine's statement (O54) about landings (R180, R183, R213, R230, R343). -/

namespace Sys2Proof.Proofs

open Sys2Proof.Machine Sys2Proof.Safety

/-! ### What a result does to the registers of its context (R175, R177, R180) -/

section
variable (b : Bun) (seg slot : Nat) (mask : Mask) (data : Lanes) (wide : W64)

/-- A write of a latch is a write of the latches alone. -/
theorem latchLanes_eq : ∃ l, b.latchLanes seg slot mask data wide = { b with latch := l } := by
  unfold Bun.latchLanes
  split
  · exact ⟨b.latch, rfl⟩
  · exact ⟨_, rfl⟩

@[simp] theorem vreg_latchLanes (m : Nat) : (b.latchLanes seg slot mask data wide).vreg m = b.vreg m := by
  obtain ⟨l, h⟩ := latchLanes_eq b seg slot mask data wide
  rw [h]
  rfl

@[simp] theorem sreg_latchLanes (m : Nat) : (b.latchLanes seg slot mask data wide).sreg m = b.sreg m := by
  obtain ⟨l, h⟩ := latchLanes_eq b seg slot mask data wide
  rw [h]
  rfl

variable {b mask data} {i : Item} {n : Nat} {lat : Bool} {fl : BitVec 5}

theorem vreg_land (hk : i.kind = .vec (.v n) mask data lat fl) (m : Nat) :
    (b.land i).vreg m = if m = n then laneMerge mask data (b.vreg n) else b.vreg m := by
  have hput : (b.putVec (.v n) mask data).vreg m = if m = n then laneMerge mask data (b.vreg n) else b.vreg m := tabGet_put _ _ _ _ _
  simp only [Bun.land, hk]
  cases lat
  · exact hput
  · rw [if_pos rfl, vreg_latchLanes, hput]

theorem sreg_land {v : W64} (hk : i.kind = .scalar (.s n) v lat) (hn : n ≠ 0) (m : Nat) :
    (b.land i).sreg m = if m = n then v else b.sreg m := by
  have hput : (b.putS n v).sreg m = if m = n then v else b.sreg m := by
    simp only [Bun.putS, if_neg hn, Bun.sreg, tabGet_put]
    split
    · next h0 => rw [if_neg (by omega)]
    · rfl
  simp only [Bun.land, hk]
  cases lat
  · exact hput
  · rw [if_pos rfl, sreg_latchLanes, hput]

theorem pred_land {bits : Mask} (hk : i.kind = .pred n mask bits fl) (hn : n ≠ 0) (m : Nat) :
    (b.land i).pred m = if m = n then (b.pred n &&& ~~~mask) ||| (bits &&& mask) else b.pred m := by
  have hp (k : Bun) : k.pred m = if m = 0 then Mask.full else tabGet 0 k.p m := rfl
  simp only [Bun.land, hk, Bun.putPred, if_neg hn]
  rw [hp, hp, tabGet_put]
  split
  · next h0 => rw [if_neg (by omega)]
  · rfl

end

/-! ### The landings of an engine (R180) -/

section
variable {s : State} {t : Nat}

theorem exec_landing (ht : s.focus.tile = t) :
    exec .landing s = .next (((s.landDue t).landStops t (s.engine t).dueLandings).beginBundle t) := by
  subst ht
  rfl

theorem regsKept_landing (ht : s.focus.tile = t) : ∃ u, exec .landing s = .next u ∧ RegsKept s u ∧ placesOn u t = placesOn (s.landDue t) t := by
  have hstops := hartsEngines_landStops (s.landDue t) t (s.engine t).dueLandings
  have hall := hstops.trans (hartsEngines_beginBundle _ t)
  refine ⟨_, exec_landing ht, regsKept_trans (regsKept_landDue s t) hall.regsKept, ?_⟩
  rw [placesOn, hall.2]
  rfl

theorem stopsAdded_landStops (s : State) (t : Nat) (i : Item) : StopsAdded s (s.landStops t [i]) := by
  show StopsAdded s (List.foldl _ s _)
  refine List.foldlRecOn _ _ (StopsAdded.refl s) fun u hu e _ => ?_
  split
  · exact hu.trans (stopsAdded_stopLate u t _ _ _ _)
  · exact hu

theorem cur_land (s : State) (t : Nat) (i : Item) : ((s.land t i).engine t).cur = (s.engine t).cur := by
  rcases land_cases s t i with ⟨_, _, _, _, r, -, -, -, h⟩ | ⟨v, rfl | rfl, h⟩ | ⟨a, l, h⟩ <;> rw [h]
  · rw [engine_landCtx, engine_stopLate, State.dropResult, State.engine_modEngine]
  · rw [engine_landCtx]
  · rw [engine_landCtx, State.openResult, State.engine_modEngine]
    rfl
  · rw [engine_writeLocal]
    exact (congrArg Engine.cur (engine_landCtx s t i t) :)

/-- With one landing due and no bundle that issues, a landing does what that one does, and calls for late stops. -/
theorem exec_landing_single {i : Item} (ht : s.focus.tile = t) (hdue : (s.engine t).dueLandings = [i]) (hcur : (s.engine t).cur = none) :
    ∃ u, exec .landing s = .next u ∧ StopsAdded ((landingsLeft s t).land t i) u := by
  have hstops := stopsAdded_landStops ((landingsLeft s t).land t i) t i
  have hland : s.landDue t = (landingsLeft s t).land t i := by
    rw [landDue_eq, hdue]
    rfl
  have hnone : (((landingsLeft s t).land t i).landStops t [i]).beginBundle t = ((landingsLeft s t).land t i).landStops t [i] := by
    have hc : ((((landingsLeft s t).land t i).landStops t [i]).engine t).cur = none := by
      rw [hstops.harts.2, cur_land, engine_landingsLeft]
      exact hcur
    simp only [State.beginBundle, hc]
  refine ⟨_, exec_landing ht, ?_⟩
  rw [hland, hdue, hnone]
  exact hstops

/-! ### One landing (R175, R177, R230) -/

/-- The result of an item that is neither a window nor a drain nor a pending product lands in its context, with its flags. -/
theorem exec_landing_result {i : Item} {P : State → Prop} (ht : s.focus.tile = t) (hdue : (s.engine t).dueLandings = [i])
    (hcur : (s.engine t).cur = none) (hw : ∀ gs a l w, i.kind ≠ .window gs a l w) (hd : ∀ a l f, i.kind ≠ .drain a l f)
    (hnow : (landingsLeft s t).landsNow t i = true)
    (hP : ∀ u, u.bun t i.ctx = (s.bun t i.ctx).land i → (u.hart t i.ctx).fflags = (s.hart t i.ctx).fflags ||| i.kind.flags →
      BytesKept s u → P u) :
    Completes .landing s P := by
  obtain ⟨u, hu, hadded⟩ := exec_landing_single ht hdue hcur
  rw [land_plain hw hd] at hadded
  refine ⟨u, hu, hP u ?_ ?_ ?_⟩
  · rw [hadded.bun, State.bun, landCtx, State.ctx_modCtx_same, if_pos hnow, landingsLeft, State.ctx_modEngine]
    rfl
  · rw [hadded.harts.1, State.hart, landCtx, State.ctx_modCtx_same, landingsLeft, State.ctx_modEngine]
    rfl
  · exact bytesKept_trans (bytesKept_quiet (quiet_landingsLeft s t))
      (bytesKept_trans (bytesKept_quiet (quiet_landCtx _ t i)) (bytesKept_quiet hadded.quiet))

/-- A window with an uncorrectable error leaves the registers of its context and calls for a late stop. -/
theorem exec_landing_badWindow {i : Item} {gs : List Nat} {a : Nat} {l : List (Nat × Nat)} {w : Bool} {r : Nat × Nat}
    (ht : s.focus.tile = t) (hdue : (s.engine t).dueLandings = [i]) (hcur : (s.engine t).cur = none) (hk : i.kind = .window gs a l w)
    (hr : l.find? (fun r => s.localBad t r.1 r.2) = some r) :
    Completes .landing s fun u =>
      (∃ x, x ∈ (u.ctx t i.ctx).lateStop ∧ x.code = 0x13 ∧ x.late = true ∧ x.addr = BitVec.ofNat 64 r.1)
        ∧ u.bun t i.ctx = s.bun t i.ctx ∧ BytesKept s u ∧ RegsKept s u := by
  obtain ⟨u, hu, hadded⟩ := exec_landing_single ht hdue hcur
  have hbad : (landingsLeft s t).land t i
      = landCtx (((landingsLeft s t).dropResult t i).stopLate t i 0x13 0 (BitVec.ofNat 64 r.1)) t i := land_badWindow hk hr
  have hctx : ((landingsLeft s t).dropResult t i).ctx t i.ctx = s.ctx t i.ctx := by
    rw [State.dropResult, State.ctx_modEngine, landingsLeft, State.ctx_modEngine]
  have hregs : RegsKept s ((landingsLeft s t).land t i) := regsKept_trans (regsKept_landingsLeft s t) (regsKept_land _ t i)
  have hquiet : BytesKept s ((landingsLeft s t).land t i) := by
    rw [hbad]
    exact bytesKept_trans (bytesKept_quiet (quiet_landingsLeft s t)) (bytesKept_trans (bytesKept_quiet (quiet_dropResult _ t i))
      (bytesKept_trans (bytesKept_quiet (quiet_stopLate _ t i _ _ _)) (bytesKept_quiet (quiet_landCtx _ t i))))
  refine ⟨u, hu, ?_, ?_, bytesKept_trans hquiet (bytesKept_quiet hadded.quiet), regsKept_trans hregs hadded.harts.regsKept⟩
  · refine ⟨((landingsLeft s t).dropResult t i).lateRec t i 0x13 0 (BitVec.ofNat 64 r.1), hadded.late _ _ _ ?_, rfl, rfl, rfl⟩
    rw [hbad, landCtx, State.ctx_modCtx_same, State.stopLate, State.ctx_modCtx_same]
    exact List.mem_append_right _ (List.mem_singleton_self _)
  · rw [hadded.bun, hbad, State.bun, landCtx, State.ctx_modCtx_same, State.stopLate, State.ctx_modCtx_same, hctx]
    simp only [Bun.land, hk, ite_self]
    rfl

end

end Sys2Proof.Proofs
end

section
/-! PROOFS of the clauses of the bundle engine's statement (O54) about access cycles (R208, R213, R214, R217, R218, R302). -/

namespace Sys2Proof.Proofs

open Sys2Proof.Machine Sys2Proof.Safety

/-! ### Items in the order of their issue (R114) -/

theorem mem_insertItem {a j : Item} {l : List Item} : j ∈ insertItem a l ↔ j = a ∨ j ∈ l := by
  induction l with
  | nil => exact List.mem_cons
  | cons b l ih =>
    unfold insertItem
    split
    · exact List.mem_cons
    · rw [List.mem_cons, List.mem_cons, ih]
      exact or_left_comm

theorem mem_sortItems {j : Item} {l : List Item} : j ∈ sortItems l ↔ j ∈ l := by
  induction l with
  | nil => exact Iff.rfl
  | cons a l ih => exact mem_insertItem.trans ((or_congr_right ih).trans List.mem_cons.symm)

/-! ### No access is left behind its cycle (R208, R213) -/

/-- No access is due at the engine's issue cycle or before it. -/
def AccessesDone (e : Engine) : Prop := ∀ j, j ∈ e.items → j.due ≤ e.ic → j.kind.isAccess = false

/-- An item is an overflow access that has not begun. -/
def waitsToSpill (i : Item) : Bool :=
  match i.kind with
  | .spill _ _ _ _ _ => true
  | _ => false

theorem spillDue_none_iff {e : Engine} {ic : Nat} : e.spillDue ic = none ↔ ∀ j, j ∈ e.items → j.due < ic → waitsToSpill j = false := by
  have h : e.spillDue ic = (sortItems (e.items.filter fun i => decide (i.due < ic))).find? waitsToSpill := rfl
  simp only [h, List.find?_eq_none, mem_sortItems, List.mem_filter, decide_eq_true_eq, and_imp, Bool.not_eq_true]

theorem waitsToSpill_of_not_access {j : Item} (h : j.kind.isAccess = false) : waitsToSpill j = false := by
  unfold waitsToSpill
  split
  · next hk =>
    rw [hk] at h
    cases h
  · rfl

theorem spillDue_of_accessesDone {e : Engine} (h : AccessesDone e) : e.spillDue (e.ic + 1) = none :=
  spillDue_none_iff.mpr fun j hj hdue => waitsToSpill_of_not_access (h j hj (Nat.le_of_lt_succ hdue))

theorem AccessesDone.put {e : Engine} (h : AccessesDone e) {j : Item} (hj : j.kind.isAccess = false) :
    AccessesDone { e with items := e.items ++ [j] } := by
  intro k hk hdue
  rcases List.mem_append.mp hk with hk | hk
  · exact h k hk hdue
  · rw [List.mem_singleton.mp hk]
    exact hj

theorem isAccess_taint (k : ItemKind) (a n : Nat) : (k.taint a n).isAccess = k.isAccess := by cases k <;> rfl

theorem accessesDone_writeLocal {s : State} {t : Nat} (h : AccessesDone (s.engine t)) (a : Nat) (l : List Byte) (w : Option Nat) :
    AccessesDone ((s.writeLocal t a l w).engine t) := by
  rw [engine_writeLocal]
  intro j hj hdue
  obtain ⟨k, hk, rfl⟩ := List.mem_map.mp hj
  rw [isAccess_taint]
  exact h k hk hdue

/-! ### One access (R208, R217, R218) -/

theorem engine_armSem (s : State) (t g : Nat) (target : W32) (zero : Bool) (x : Nat) : (s.armSem t g target zero).engine x = s.engine x := by
  rw [State.armSem, State.modSem, engine_breakReservations, State.setSem, State.engine, State.tile_modTile]
  split
  · next h => rw [h]; rfl
  · rfl

theorem regsKept_armSem (s : State) (t g : Nat) (target : W32) (zero : Bool) : RegsKept s (s.armSem t g target zero) :=
  regsKept_of_harts fun x d => by
    obtain ⟨r, hr⟩ := hart_breakReservations (s.setSem t g _) t (semBase + 64 * g) 64 none x d
    rw [State.armSem, State.modSem, hr, hart_setSem]

/-- An item enters tile t's engine. -/
def putItem (s : State) (t : Nat) (j : Item) : State := s.modEngine t fun e => { e with items := e.items ++ [j] }

/-- The bytes of a store enter the scratchpad, lane by lane (R217). -/
def storeCells (s : State) (t : Nat) (cells : List (Nat × W64)) (size : Nat) : State :=
  cells.foldl (fun (v : State) e => v.writeLocal t e.1 (bytesOf e.2 size) none) s

section
variable {s : State} {t : Nat} {i : Item}

theorem engine_putItem (j : Item) : (putItem s t j).engine t = { s.engine t with items := (s.engine t).items ++ [j] } :=
  State.engine_modEngine ..

theorem access_bad {r : Nat × Nat} (hr : i.kind.readsOf.find? (fun r => s.localBad t r.1 r.2) = some r) :
    s.access t i = s.stopLate t i 0x13 0 (BitVec.ofNat 64 r.1) := by
  unfold State.access
  simp only [hr]

theorem access_load {tgt : Target} {mask : Mask} {l : List (Nat × Nat)} {lat : Nat} (hk : i.kind = .load tgt mask l false lat)
    (hr : i.kind.readsOf.find? (fun r => s.localBad t r.1 r.2) = none) :
    s.access t i = putItem s t { i with due := (s.engine t).ic + lat, kind := .vec tgt mask (s.readLanes t l) true 0 } := by
  rw [hk] at hr
  unfold State.access
  simp only [hr, hk, Bool.false_eq_true, if_false]
  rfl

theorem access_loadWide {tgt : Target} {mask : Mask} {x : Nat × Nat} {l : List (Nat × Nat)} {lat : Nat}
    (hk : i.kind = .load tgt mask (x :: l) true lat) (hr : i.kind.readsOf.find? (fun r => s.localBad t r.1 r.2) = none) :
    s.access t i
      = putItem s t { i with due := (s.engine t).ic + lat, kind := .scalar tgt (wordOf 64 (s.localBytes t x.2 8)) true } := by
  rw [hk] at hr
  unfold State.access
  simp only [hr, hk, if_true]
  rfl

theorem access_store {mask : Mask} {cells : List (Nat × W64)} {size : Nat} (hk : i.kind = .store mask cells size) :
    s.access t i = storeCells s t cells size := by
  unfold State.access
  simp only [hk, ItemKind.readsOf, List.find?_nil]
  rfl

theorem access_fmtC {ent a : Nat} (hk : i.kind = .fmtC ent a) (hr : i.kind.readsOf.find? (fun r => s.localBad t r.1 r.2) = none) :
    s.access t i
      = putItem s t { i with due := (s.engine t).ic + 1, kind := .fmtBits ent 74 512 (wordOf 512 (s.localBytes t a 64)) } := by
  rw [hk] at hr
  unfold State.access
  simp only [hr, hk]
  rfl

theorem access_credit_own {g n sc : Nat} (hk : i.kind = .credit t g n sc) :
    s.access t i = s.modEngine t fun e => { e with credits := e.credits ++ [(g, n)] } := by
  unfold State.access
  simp only [hk, ItemKind.readsOf, List.find?_nil, if_true]

theorem access_credit_other {v g n sc : Nat} (hk : i.kind = .credit v g n sc) (hv : v ≠ t) :
    s.access t i = (s.send (s.dieOf t) (.tile v) (.credit v g n) [] none).1 := by
  unfold State.access
  simp only [hk, ItemKind.readsOf, List.find?_nil, if_neg hv]

theorem access_arm {g : Nat} {target : W32} {zero : Bool} (hk : i.kind = .arm g target zero) :
    s.access t i = s.armSem t g target zero := by
  unfold State.access
  simp only [hk, ItemKind.readsOf, List.find?_nil]

/-- An item whose kind has no access cycle does nothing in one. -/
theorem access_none (hk : i.kind.isAccess = false) : s.access t i = s := by
  unfold State.access
  cases h : i.kind
  case load | store | spill | credit | arm | fmtC => rw [h] at hk; cases hk
  all_goals rfl

/-- An access leaves the general registers and no access behind its cycle. -/
structure AccessFrame (s u : State) (t : Nat) : Prop where
  regs : RegsKept s u
  done : AccessesDone (s.engine t) → AccessesDone (u.engine t)

theorem accessFrame_putItem {j : Item} (hj : j.kind.isAccess = false) : AccessFrame s (putItem s t j) t :=
  ⟨regsKept_modEngine s t _, fun h => by rw [engine_putItem]; exact h.put hj⟩

theorem accessFrame_storeCells (cells : List (Nat × W64)) (size : Nat) : AccessFrame s (storeCells s t cells size) t :=
  List.foldlRecOn (motive := fun u : State => AccessFrame s u t) _ _ ⟨fun _ _ _ => rfl, id⟩ fun u hu _ _ =>
    ⟨regsKept_trans hu.regs (regsKept_writeLocal u t _ _ _), fun h => accessesDone_writeLocal (hu.done h) _ _ _⟩

/-- What a read of an access lands as is no access. -/
theorem accessFrame_access (hs : ∀ va mask data tgt fill, i.kind ≠ .spill va mask data tgt fill) : AccessFrame s (s.access t i) t := by
  have same {u : State} (hu : RegsKept s u) (he : u.engine t = s.engine t) : AccessFrame s u t := ⟨hu, fun h => by rw [he]; exact h⟩
  cases hr : i.kind.readsOf.find? fun r => s.localBad t r.1 r.2 with
  | some r =>
    rw [access_bad hr]
    exact same (regsKept_stopLate s t i _ _ _) (engine_stopLate ..)
  | none =>
    cases hk : i.kind
    case load tgt mask l wide lat =>
      cases wide with
      | false => rw [access_load hk hr]; exact accessFrame_putItem rfl
      | true =>
        cases l with
        | nil =>
          have h : s.access t i = s := by
            unfold State.access
            simp only [hk, ItemKind.readsOf, List.map_nil, List.find?_nil, if_true]
          rw [h]
          exact same (fun _ _ _ => rfl) rfl
        | cons x l => rw [access_loadWide hk hr]; exact accessFrame_putItem rfl
    case store mask cells size => rw [access_store hk]; exact accessFrame_storeCells cells size
    case spill => exact absurd hk (hs _ _ _ _ _)
    case credit v g n sc =>
      by_cases hv : v = t
      · subst hv
        rw [access_credit_own hk]
        exact ⟨regsKept_modEngine s v _, fun h => by rw [State.engine_modEngine]; exact h⟩
      · rw [access_credit_other hk hv]
        exact same (regsKept_send s _ _ _ _ _) ((ctxsOnly_send s _ _ _ _ _ _).engine t)
    case arm g target zero => rw [access_arm hk]; exact same (regsKept_armSem s t g _ _) (engine_armSem ..)
    case fmtC ent a => rw [access_fmtC hk hr]; exact accessFrame_putItem rfl
    all_goals
      rw [access_none (by rw [hk]; rfl)]
      exact same (fun _ _ _ => rfl) rfl

end

/-! ### The access cycle with one access due (R208, R213, R214) -/

section
variable {s : State} {t : Nat} {i : Item}

/-- The state whose accesses due have left the engine. -/
def accessesLeft (s : State) (t : Nat) : State :=
  s.modEngine t fun e => { e with
    items := e.items.filter fun j => !(decide (j.due ≤ e.ic) && j.kind.isAccess)
    touched := (e.ic, (s.engine t).dueAccesses.flatMap fun i => i.accessGroups.map fun g => (i.ctx, g)) }

theorem engine_accessesLeft : (accessesLeft s t).engine t = { s.engine t with
    items := (s.engine t).items.filter fun j => !(decide (j.due ≤ (s.engine t).ic) && j.kind.isAccess)
    touched := ((s.engine t).ic, (s.engine t).dueAccesses.flatMap fun i => i.accessGroups.map fun g => (i.ctx, g)) } :=
  State.engine_modEngine ..

theorem quiet_accessesLeft (s : State) (t : Nat) : s.Quiet (accessesLeft s t) := s.quiet_modEngine t _

theorem regsKept_accessesLeft (s : State) (t : Nat) : RegsKept s (accessesLeft s t) := regsKept_modEngine s t _

theorem accessesDone_accessesLeft : AccessesDone ((accessesLeft s t).engine t) := by
  rw [engine_accessesLeft]
  intro j hj hdue
  have hkeep := (List.mem_filter.mp hj).2
  simp only [decide_eq_true hdue, Bool.true_and, Bool.not_eq_true'] at hkeep
  exact hkeep

/-- The freeze that n lines of one bank call for, on behalf of item w (R214). -/
def bankNoted (s : State) (t n : Nat) (w : Item) : State :=
  (s.modEngine t fun e => { e with bankDue := some (n - 1, w.ctx, w.baddr) }).push [rowAt .bankFreeze t w.ctx]

/-- The bank rule after the accesses of a cycle (R214). -/
def bankRule (s : State) (t : Nat) (l : Nat × Option Item) : State :=
  match l.2 with
  | some w => if 1 < l.1 then bankNoted s t l.1 w else s
  | none => s

theorem engine_bankNoted (s : State) (t n : Nat) (w : Item) :
    (bankNoted s t n w).engine t = { s.engine t with bankDue := some (n - 1, w.ctx, w.baddr) } :=
  s.engine_modEngine t fun e => { e with bankDue := some (n - 1, w.ctx, w.baddr) }

theorem ctx_bankNoted (s : State) (t n : Nat) (w : Item) (x d : Nat) : (bankNoted s t n w).ctx x d = s.ctx x d :=
  s.ctx_modEngine t x d fun e => { e with bankDue := some (n - 1, w.ctx, w.baddr) }

theorem quiet_bankNoted (s : State) (t n : Nat) (w : Item) : s.Quiet (bankNoted s t n w) :=
  (s.quiet_modEngine t fun e => { e with bankDue := some (n - 1, w.ctx, w.baddr) }).trans (State.quiet_same rfl rfl rfl)

theorem exec_accessCycle (ht : s.focus.tile = t) (hdue : (s.engine t).dueAccesses = [i])
    (hs : ∀ va mask data tgt fill, i.kind ≠ .spill va mask data tgt fill) :
    exec .accessCycle s = .next (bankRule ((accessesLeft s t).access t i) t (bankLoad [i])) := by
  have hnone := spillDue_of_accessesDone ((accessFrame_access (s := accessesLeft s t) (t := t) hs).done accessesDone_accessesLeft)
  subst ht
  rw [exec, execAccessCycle, bankRule]
  unfold accessesLeft at hnone ⊢
  simp only [hdue, List.foldl] at hnone ⊢
  simp only [hnone]
  obtain ⟨n, _ | w⟩ := bankLoad [i]
  · rfl
  · dsimp only
    split <;> rfl

/-- The bank rule notes a freeze, and leaves the rest. -/
structure BankNotes (s u : State) (t : Nat) : Prop where
  items : (u.engine t).items = (s.engine t).items
  credits : (u.engine t).credits = (s.engine t).credits
  net : u.net = s.net
  ctx : ∀ x d, u.ctx x d = s.ctx x d
  quiet : s.Quiet u

theorem bankNotes_bankRule (s : State) (t : Nat) (l : Nat × Option Item) : BankNotes s (bankRule s t l) t := by
  have refl : BankNotes s s t := ⟨rfl, rfl, rfl, fun _ _ => rfl, State.Quiet.refl s⟩
  have noted (w : Item) : BankNotes s (bankNoted s t l.1 w) t :=
    ⟨by rw [engine_bankNoted], by rw [engine_bankNoted], rfl, ctx_bankNoted s t l.1 w, quiet_bankNoted s t l.1 w⟩
  unfold bankRule
  split
  · split
    · exact noted _
    · exact refl
  · exact refl

theorem BankNotes.regsKept {r u : State} (h : BankNotes r u t) : RegsKept r u := regsKept_of_harts fun x d => by
  rw [State.hart, h.ctx]
  rfl

/-- With one access due that is no overflow access, an access cycle does that access and notes a bank freeze. -/
theorem exec_accessCycle_single {r : State} (ht : s.focus.tile = t) (hdue : (s.engine t).dueAccesses = [i])
    (hs : ∀ va mask data tgt fill, i.kind ≠ .spill va mask data tgt fill) (hr : (accessesLeft s t).access t i = r) :
    ∃ u, exec .accessCycle s = .next u ∧ BankNotes r u t :=
  ⟨_, (exec_accessCycle ht hdue hs).trans (by rw [hr]), bankNotes_bankRule r t _⟩

/-- An access that becomes a landing. -/
theorem completes_accessPut {j : Item} (ht : s.focus.tile = t) (hdue : (s.engine t).dueAccesses = [i])
    (hs : ∀ va mask data tgt fill, i.kind ≠ .spill va mask data tgt fill) (hr : (accessesLeft s t).access t i = putItem (accessesLeft s t) t j) :
    Completes .accessCycle s fun u =>
      (u.engine t).items = ((s.engine t).items.filter fun j => !(decide (j.due ≤ (s.engine t).ic) && j.kind.isAccess)) ++ [j]
        ∧ BytesKept s u ∧ RegsKept s u := by
  obtain ⟨u, hu, hnotes⟩ := exec_accessCycle_single ht hdue hs hr
  refine ⟨u, hu, ?_, ?_, ?_⟩
  · rw [hnotes.items, engine_putItem, engine_accessesLeft]
  · exact bytesKept_trans (bytesKept_quiet (quiet_accessesLeft s t))
      (bytesKept_trans (bytesKept_modEngine _ t _) (bytesKept_quiet hnotes.quiet))
  · exact regsKept_trans (regsKept_accessesLeft s t) (regsKept_trans (regsKept_modEngine _ t _) hnotes.regsKept)

/-- An access whose read meets an uncorrectable error calls for a late stop (R3). -/
theorem completes_accessBad {r : Nat × Nat} (ht : s.focus.tile = t) (hdue : (s.engine t).dueAccesses = [i])
    (hr : i.kind.readsOf.find? (fun r => s.localBad t r.1 r.2) = some r) :
    Completes .accessCycle s fun u =>
      (u.engine t).items = ((s.engine t).items.filter fun j => !(decide (j.due ≤ (s.engine t).ic) && j.kind.isAccess))
        ∧ BytesKept s u ∧ RegsKept s u
        ∧ ∃ x, x ∈ (u.ctx t i.ctx).lateStop ∧ x.code = 0x13 ∧ x.late = true ∧ x.addr = BitVec.ofNat 64 r.1 := by
  have hs : ∀ va mask data tgt fill, i.kind ≠ .spill va mask data tgt fill := fun _ _ _ _ _ hk => by
    rw [hk] at hr
    cases hr
  have hbad : (accessesLeft s t).access t i = (accessesLeft s t).stopLate t i 0x13 0 (BitVec.ofNat 64 r.1) := access_bad hr
  obtain ⟨u, hu, hnotes⟩ := exec_accessCycle_single ht hdue hs hbad
  refine ⟨u, hu, ?_, ?_, ?_, (accessesLeft s t).lateRec t i 0x13 0 (BitVec.ofNat 64 r.1), ?_, rfl, rfl, rfl⟩
  · rw [hnotes.items, engine_stopLate, engine_accessesLeft]
  · exact bytesKept_trans (bytesKept_quiet (quiet_accessesLeft s t))
      (bytesKept_trans (bytesKept_quiet (quiet_stopLate _ t i _ _ _)) (bytesKept_quiet hnotes.quiet))
  · exact regsKept_trans (regsKept_accessesLeft s t) (regsKept_trans (regsKept_stopLate _ t i _ _ _) hnotes.regsKept)
  · rw [hnotes.ctx, State.stopLate, State.ctx_modCtx_same]
    exact List.mem_append_right _ (List.mem_singleton_self _)

/-! ### A read (R208, R302) -/

/-- The reads of item i meet no uncorrectable error. -/
theorem readsOf_good (h : ∀ r, r ∈ i.kind.readsOf → s.localBad t r.1 r.2 = false) :
    i.kind.readsOf.find? (fun r => (accessesLeft s t).localBad t r.1 r.2) = none :=
  List.find?_eq_none.mpr fun r hr => by
    rw [localBad_congr (s := s) (u := accessesLeft s t) rfl, h r hr]
    exact Bool.false_ne_true

theorem localBytes_accessesLeft (x a n : Nat) : (accessesLeft s t).localBytes x a n = s.localBytes x a n :=
  List.map_congr_left fun _ _ => State.localByte_modEngine ..

theorem readLanes_accessesLeft (l : List (Nat × Nat)) : (accessesLeft s t).readLanes t l = s.readLanes t l := by
  simp only [State.readLanes, localBytes_accessesLeft]

theorem ic_accessesLeft : ((accessesLeft s t).engine t).ic = (s.engine t).ic := by rw [engine_accessesLeft]

theorem completes_accessLoad {tgt : Target} {mask : Mask} {l : List (Nat × Nat)} {lat : Nat} (ht : s.focus.tile = t)
    (hdue : (s.engine t).dueAccesses = [i]) (hk : i.kind = .load tgt mask l false lat) (hgood : ∀ e, e ∈ l → s.localBad t e.2 4 = false) :
    Completes .accessCycle s fun u =>
      (u.engine t).items = ((s.engine t).items.filter fun j => !(decide (j.due ≤ (s.engine t).ic) && j.kind.isAccess))
          ++ [{ i with due := (s.engine t).ic + lat, kind := .vec tgt mask (s.readLanes t l) true 0 }]
        ∧ BytesKept s u ∧ RegsKept s u := by
  have hreads : ∀ r, r ∈ i.kind.readsOf → s.localBad t r.1 r.2 = false := by
    rw [hk]
    intro r hr
    obtain ⟨e, he, rfl⟩ := List.mem_map.mp hr
    exact hgood e he
  have hput := access_load hk (readsOf_good hreads)
  rw [ic_accessesLeft, readLanes_accessesLeft] at hput
  exact completes_accessPut ht hdue (by simp [hk]) hput

theorem completes_accessLoadWide {tgt : Target} {mask : Mask} {x : Nat × Nat} {l : List (Nat × Nat)} {lat : Nat} (ht : s.focus.tile = t)
    (hdue : (s.engine t).dueAccesses = [i]) (hk : i.kind = .load tgt mask (x :: l) true lat)
    (hgood : ∀ e, e ∈ x :: l → s.localBad t e.2 8 = false) :
    Completes .accessCycle s fun u =>
      (u.engine t).items = ((s.engine t).items.filter fun j => !(decide (j.due ≤ (s.engine t).ic) && j.kind.isAccess))
          ++ [{ i with due := (s.engine t).ic + lat, kind := .scalar tgt (wordOf 64 (s.localBytes t x.2 8)) true }]
        ∧ BytesKept s u ∧ RegsKept s u := by
  have hreads : ∀ r, r ∈ i.kind.readsOf → s.localBad t r.1 r.2 = false := by
    rw [hk]
    intro r hr
    obtain ⟨e, he, rfl⟩ := List.mem_map.mp hr
    exact hgood e he
  have hput := access_loadWide hk (readsOf_good hreads)
  rw [ic_accessesLeft, localBytes_accessesLeft] at hput
  exact completes_accessPut ht hdue (by simp [hk]) hput

theorem completes_accessFormat {ent a : Nat} (ht : s.focus.tile = t) (hdue : (s.engine t).dueAccesses = [i]) (hk : i.kind = .fmtC ent a)
    (hgood : s.localBad t a 64 = false) :
    Completes .accessCycle s fun u =>
      (u.engine t).items = ((s.engine t).items.filter fun j => !(decide (j.due ≤ (s.engine t).ic) && j.kind.isAccess))
          ++ [{ i with due := (s.engine t).ic + 1, kind := .fmtBits ent 74 512 (wordOf 512 (s.localBytes t a 64)) }]
        ∧ BytesKept s u ∧ RegsKept s u := by
  have hreads : ∀ r, r ∈ i.kind.readsOf → s.localBad t r.1 r.2 = false := by
    rw [hk]
    intro r hr
    rw [List.mem_singleton.mp hr]
    exact hgood
  have hput := access_fmtC hk (readsOf_good hreads)
  rw [ic_accessesLeft, localBytes_accessesLeft] at hput
  exact completes_accessPut ht hdue (by simp [hk]) hput

/-! ### A store (R217) -/

/-- Two states have one memory and one state of each semaphore. -/
def SameLocal (s u : State) : Prop := u.mem = s.mem ∧ ∀ x g, u.sem x g = s.sem x g

theorem SameLocal.localByte {u : State} (h : SameLocal s u) (x b : Nat) : u.localByte x b = s.localByte x b := by
  rw [State.localByte, State.localByte, h.1, h.2]

theorem mem_pokeLocals_congr {u : State} (h : u.mem = s.mem) (t : Nat) (l : List Byte) (a : Nat) :
    (u.pokeLocals t a l).mem = (s.pokeLocals t a l).mem := by
  induction l generalizing s u a with
  | nil => exact h
  | cons b l ih =>
    refine ih ?_ (a + 1)
    unfold State.pokeLocal
    split
    · exact h
    · show cellWrite u.mem _ _ = cellWrite s.mem _ _
      rw [h]

theorem sameLocal_storeCells {u : State} (h : SameLocal s u) (cells : List (Nat × W64)) (size : Nat) :
    SameLocal (storeCells s t cells size) (storeCells u t cells size) := by
  induction cells generalizing s u with
  | nil => exact h
  | cons e cells ih =>
    refine ih ⟨?_, fun x g => ?_⟩
    · rw [State.mem_writeLocal, State.mem_writeLocal]
      exact mem_pokeLocals_congr h.1 t _ _
    · rw [State.sem_writeLocal, State.sem_writeLocal, h.2]

theorem completes_accessStore {mask : Mask} {cells : List (Nat × W64)} {size : Nat} (ht : s.focus.tile = t)
    (hdue : (s.engine t).dueAccesses = [i]) (hk : i.kind = .store mask cells size) :
    Completes .accessCycle s fun u => (∀ x b, u.localByte x b = (storeCells s t cells size).localByte x b) ∧ RegsKept s u := by
  obtain ⟨u, hu, hnotes⟩ := exec_accessCycle_single ht hdue (by simp [hk]) (access_store hk)
  obtain ⟨hmem, -, hsem⟩ := quiet_accessesLeft s t
  obtain ⟨hmem', -, hsem'⟩ := hnotes.quiet
  refine ⟨u, hu, fun x b => ?_, ?_⟩
  · have hcells : SameLocal (storeCells s t cells size) (storeCells (accessesLeft s t) t cells size) :=
      sameLocal_storeCells ⟨hmem, hsem⟩ cells size
    rw [SameLocal.localByte ⟨hmem', hsem'⟩, hcells.localByte]
  · exact regsKept_trans (regsKept_accessesLeft s t) (regsKept_trans (accessFrame_storeCells cells size).regs hnotes.regsKept)

/-! ### Semaphore operations (R218) -/

theorem completes_accessCredit {v g n sc : Nat} (ht : s.focus.tile = t) (hdue : (s.engine t).dueAccesses = [i])
    (hk : i.kind = .credit v g n sc) :
    Completes .accessCycle s fun u =>
      (v = t → (u.engine t).credits = (s.engine t).credits ++ [(g, n)] ∧ u.net = s.net)
        ∧ (v ≠ t → ∃ m, u.net = s.net ++ [m] ∧ m.home = .tile v ∧ m.body = .credit v g n)
        ∧ BytesKept s u ∧ RegsKept s u := by
  have hleft := bytesKept_quiet (quiet_accessesLeft s t)
  by_cases hv : v = t
  · subst hv
    obtain ⟨u, hu, hnotes⟩ := exec_accessCycle_single ht hdue (by simp [hk]) (access_credit_own hk)
    refine ⟨u, hu, fun _ => ⟨?_, hnotes.net⟩, fun h => absurd rfl h, ?_, ?_⟩
    · rw [hnotes.credits, State.engine_modEngine, engine_accessesLeft]
    · exact bytesKept_trans hleft (bytesKept_trans (bytesKept_modEngine _ v _) (bytesKept_quiet hnotes.quiet))
    · exact regsKept_trans (regsKept_accessesLeft s v) (regsKept_trans (regsKept_modEngine _ v _) hnotes.regsKept)
  · obtain ⟨u, hu, hnotes⟩ := exec_accessCycle_single ht hdue (by simp [hk]) (access_credit_other hk hv)
    obtain ⟨m, hnet, hhome, hbody, -⟩ := send_spec (accessesLeft s t) ((accessesLeft s t).dieOf t) (.tile v) (.credit v g n) [] none
    refine ⟨u, hu, fun h => absurd h hv, fun _ => ⟨m, hnotes.net.trans hnet, hhome, hbody⟩, ?_, ?_⟩
    · exact bytesKept_trans hleft (bytesKept_trans (bytesKept_quiet (State.quiet_send ..)) (bytesKept_quiet hnotes.quiet))
    · exact regsKept_trans (regsKept_accessesLeft s t) (regsKept_trans (regsKept_send _ _ _ _ _ _) hnotes.regsKept)

theorem completes_accessArm {g : Nat} {target : W32} {zero : Bool} (ht : s.focus.tile = t) (hdue : (s.engine t).dueAccesses = [i])
    (hk : i.kind = .arm g target zero) :
    Completes .accessCycle s fun u =>
      u.sem t g = (if zero then (s.sem t g).rearm target else (s.sem t g).store target)
        ∧ (∀ x h, ¬(x = t ∧ h = g) → u.sem x h = s.sem x h) ∧ RegsKept s u := by
  obtain ⟨u, hu, hnotes⟩ := exec_accessCycle_single ht hdue (by simp [hk]) (access_arm hk)
  obtain ⟨hsame, hother, -⟩ := semPuts_modSem (accessesLeft s t) t g fun x => if zero then x.rearm target else x.store target
  obtain ⟨-, -, hleft⟩ := quiet_accessesLeft s t
  obtain ⟨-, -, hsem⟩ := hnotes.quiet
  refine ⟨u, hu, ?_, fun x h hne => ?_, ?_⟩
  · rw [hsem, State.armSem, hsame, hleft]
  · rw [hsem, State.armSem, hother x h hne, hleft]
  · exact regsKept_trans (regsKept_accessesLeft s t) (regsKept_trans (regsKept_armSem _ t g target zero) hnotes.regsKept)

/-! ### The bank rule (R214) -/

/-- Only an access to lines of the scratchpad has a bank. -/
theorem lines_of_bankLoad {n : Nat} {w : Item} (h : bankLoad [i] = (n, some w)) : i.kind.lines ≠ [] := by
  intro hl
  have hnone : (bankLoad [i]).2 = none := by simp [bankLoad, hl]
  rw [h] at hnone
  cases hnone

theorem completes_bankNoted {n : Nat} {w : Item} (ht : s.focus.tile = t) (hdue : (s.engine t).dueAccesses = [i])
    (h : bankLoad [i] = (n, some w)) (hn : 1 < n) :
    Completes .accessCycle s fun u =>
      (u.engine t).bankDue = some (n - 1, w.ctx, w.baddr) ∧ u.micro.head? = some (rowAt .bankFreeze t w.ctx) := by
  have hs : ∀ va mask data tgt fill, i.kind ≠ .spill va mask data tgt fill := fun _ _ _ _ _ hk =>
    lines_of_bankLoad h (by rw [hk]; rfl)
  refine ⟨_, exec_accessCycle ht hdue hs, ?_⟩
  rw [bankRule, h]
  simp only [if_pos hn]
  exact ⟨by rw [engine_bankNoted], rfl⟩

end

end Sys2Proof.Proofs
end

section
/-! PROOFS of the clauses of the bundle engine's statement (O54) about the end of an overflow access (R136, R213). -/

namespace Sys2Proof.Proofs

open Sys2Proof.Machine Sys2Proof.Safety

/-! ### The overflow accesses that follow (R213) -/

/-- The next overflow accesses leave memory and registers, add late stops and keep every item that is none. -/
structure SpillFrame (s u : State) (t : Nat) : Prop where
  quiet : s.Quiet u
  regs : RegsKept s u
  late : ∀ x d r, r ∈ (s.ctx x d).lateStop → r ∈ (u.ctx x d).lateStop
  items : ∀ j, j ∈ (s.engine t).items → waitsToSpill j = false → j ∈ (u.engine t).items

section
variable {s u v : State} {t : Nat}

theorem SpillFrame.refl (s : State) (t : Nat) : SpillFrame s s t := ⟨State.Quiet.refl s, fun _ _ _ => rfl, fun _ _ _ h => h, fun _ h _ => h⟩

theorem SpillFrame.trans (h : SpillFrame s u t) (k : SpillFrame u v t) : SpillFrame s v t :=
  ⟨h.quiet.trans k.quiet, regsKept_trans h.regs k.regs, fun x d r hr => k.late x d r (h.late x d r hr),
    fun j hj hw => k.items j (h.items j hj hw) hw⟩

/-- Contexts and engines as they were. -/
theorem SpillFrame.of_ctxs (hq : s.Quiet u) (hc : ∀ x d, u.ctx x d = s.ctx x d) (he : u.engine t = s.engine t) : SpillFrame s u t :=
  ⟨hq, regsKept_of_harts fun x d => by rw [State.hart, hc]; rfl, fun x d r hr => by rw [hc]; exact hr, fun j hj _ => by rw [he]; exact hj⟩

theorem spillFrame_modEngine {f : Engine → Engine} (hf : ∀ j, j ∈ (s.engine t).items → waitsToSpill j = false → j ∈ (f (s.engine t)).items) :
    SpillFrame s (s.modEngine t f) t :=
  ⟨s.quiet_modEngine t f, regsKept_modEngine s t f, fun x d r hr => by rw [State.ctx_modEngine]; exact hr,
    fun j hj hw => by rw [State.engine_modEngine]; exact hf j hj hw⟩

theorem spillFrame_spillStop (i : Item) (code reason j : Nat) : SpillFrame s (s.spillStop t i code reason j) t := by
  have h := stopsAdded_stopLate s t i code reason (BitVec.ofNat 64 (s.spillVa t i + j))
  exact ⟨h.quiet, h.harts.regsKept, h.late, fun k hk _ => by rw [State.spillStop, h.harts.2]; exact hk⟩

theorem spillFrame_translate (a : W16) (va : W64) (n : Need) : SpillFrame s (s.translate t a va n).1 t :=
  .of_ctxs (s.quiet_translate t a va n) (fun _ _ => State.ctx_translate ..) ((ctxsOnly_translate s t a va n).engine t)

theorem spillFrame_sendQuiet (d : Nat) (home : Home) (body : Body) (after : List Nat) (own : Option (Nat × Nat)) :
    SpillFrame s (s.sendQuiet d home body after own).1 t :=
  .of_ctxs (State.quiet_same rfl rfl rfl) (fun _ _ => rfl) rfl

theorem spillFrame_send (d : Nat) (home : Home) (body : Body) (after : List Nat) (own : Option (Nat × Nat)) :
    SpillFrame s (s.send d home body after own).1 t :=
  .of_ctxs (State.quiet_send ..) (fun x k => ctx_send s d home body after own x k) ((ctxsOnly_send s _ _ _ _ _ _).engine t)

/-- An overflow access that begins leaves all but itself. -/
theorem spillFrame_startSpill (i : Item) : SpillFrame s (s.startSpill t i) t := by
  unfold State.startSpill
  split
  · next va mask data tgt isFill hk =>
    have hwithout : SpillFrame s (s.modEngine t fun e => e.without i) t := spillFrame_modEngine fun j hj hw =>
      List.mem_filter.mpr ⟨hj, decide_eq_true fun h => by rw [h, waitsToSpill, hk] at hw; cases hw⟩
    dsimp only
    split
    · next v f htr =>
      have htrans : SpillFrame (s.modEngine t fun e => e.without i) v t := (show _ = v from congrArg Prod.fst htr) ▸ spillFrame_translate _ _ _
      exact hwithout.trans (htrans.trans (spillFrame_spillStop ..))
    · next v d htr =>
      have htrans : SpillFrame (s.modEngine t fun e => e.without i) v t := (show _ = v from congrArg Prod.fst htr) ▸ spillFrame_translate _ _ _
      refine hwithout.trans (htrans.trans (.trans ?_ (spillFrame_modEngine fun _ hj _ => List.mem_append_left _ hj)))
      split
      · exact spillFrame_sendQuiet ..
      · exact spillFrame_send ..
  · exact .refl s t

/-- The freeze for overflow accesses ends. -/
def spillFreezeEnds (s : State) (t : Nat) : State :=
  s.modEngine t fun e => { e with freezes := e.freezes.filter fun f => decide (f.cause ≠ .spillfrz) }

theorem spillFrame_nextSpill (n ic : Nat) : SpillFrame s (State.nextSpill n s t ic) t := by
  induction n generalizing s with
  | zero => exact .refl s t
  | succ n ih =>
    unfold State.nextSpill
    split
    · exact .refl s t
    · split
      · exact (spillFrame_startSpill _).trans ih
      · exact spillFrame_modEngine fun _ hj _ => hj

/-- With no overflow access under way or to come the freeze ends. -/
theorem nextSpill_alone {n ic : Nat} (hout : ∀ j, j ∈ (s.engine t).items → j.kind.isOut = false) (hdue : (s.engine t).spillDue ic = none) :
    State.nextSpill (n + 1) s t ic = spillFreezeEnds s t := by
  have hany : ((s.engine t).items.any fun i => i.kind.isOut) = false := List.any_eq_false.mpr fun j hj => by simp [hout j hj]
  rw [State.nextSpill, hany, hdue]
  rfl

end

/-! ### The access under way ends (R136, R213) -/

section
variable {s : State} {t : Nat} {i : Item}

/-- Nothing else waits for the overflow access i of tile t. -/
def AloneOut (s : State) (t : Nat) (i : Item) : Prop :=
  (∀ j, j ∈ (s.engine t).items → j ≠ i → j.kind.isOut = false) ∧ (s.engine t).spillDue (s.engine t).prevented = none

/-- The state that access i has left. -/
def outLeft (s : State) (t : Nat) (i : Item) : State := s.modEngine t fun e => e.without i

/-- The state that has merged the clock of the answer (R120). -/
def outAnswered (s : State) (t : Nat) (i : Item) (k : Clock) : State :=
  ((outLeft s t i).mergeDie (s.dieOf t) k).keepLeft t i.ctx k

/-- What a fill lands as (R212). -/
def fillItem (i : Item) (tgt : Target) (mask : Mask) (x : FillData) : Item :=
  { i with due := i.due + 4, kind := .vec tgt mask (lanesOf fun j => wordOf 32 ((x.bytes.drop (4 * j)).take 4)) true 0 }

theorem engine_outLeft : (outLeft s t i).engine t = (s.engine t).without i := s.engine_modEngine t fun e => e.without i

theorem engine_outAnswered (k : Clock) : (outAnswered s t i k).engine t = (s.engine t).without i := by
  rw [← engine_outLeft]
  unfold outAnswered State.keepLeft
  split
  · rfl
  · exact State.engine_modCtx ..

theorem outAnswered_frame (k : Clock) : s.Quiet (outAnswered s t i k) ∧ RegsKept s (outAnswered s t i k) := by
  have hq : s.Quiet (outLeft s t i) := s.quiet_modEngine t _
  have hr : RegsKept s (outLeft s t i) := regsKept_modEngine s t _
  have hmq : s.Quiet ((outLeft s t i).mergeDie (s.dieOf t) k) := hq.trans (State.quiet_same rfl rfl rfl)
  unfold outAnswered State.keepLeft
  split
  · exact ⟨hmq, hr⟩
  · exact ⟨hmq.trans (State.quiet_modCtx ..), regsKept_trans hr (regsKept_modCtx ((outLeft s t i).mergeDie (s.dieOf t) k) t i.ctx rfl)⟩

theorem dieClock_outAnswered (k : Clock) : (outAnswered s t i k).dieClock (s.dieOf t) = (s.dieClock (s.dieOf t)).merge k := by
  have h : ((outLeft s t i).mergeDie (s.dieOf t) k).dieClock (s.dieOf t) = (s.dieClock (s.dieOf t)).merge k := tabGet_put_same _ _ _ _
  unfold outAnswered State.keepLeft
  split
  · exact h
  · exact h

variable {id a k : Nat} {host : Bool} {mask : Mask} {tgt : Target}

theorem endSpill_spill (hfind : (s.engine t).items.find? (fun i => i.kind.isOut) = some i)
    (hk : i.kind = .spillOut id a k host mask tgt false none) :
    s.endSpill t = some (State.nextSpill 17 (outLeft s t i) t ((outLeft s t i).engine t).prevented) := by
  unfold State.endSpill
  simp only [hfind, hk]
  rfl

theorem endSpill_fault {isFill : Bool} {x : FillData} {code reason off : Nat}
    (hfind : (s.engine t).items.find? (fun i => i.kind.isOut) = some i)
    (hk : i.kind = .spillOut id a k host mask tgt isFill (some x)) (hf : x.fault = some (code, reason, off)) :
    ∃ ic, s.endSpill t = some (State.nextSpill 17 ((outAnswered s t i x.clock).spillStop t i code reason off) t ic) := by
  unfold State.endSpill
  simp only [hfind, hk, hf]
  exact ⟨_, rfl⟩

theorem endSpill_fill {x : FillData} (hfind : (s.engine t).items.find? (fun i => i.kind.isOut) = some i)
    (hk : i.kind = .spillOut id a k host mask tgt true (some x)) (hf : x.fault = none) :
    s.endSpill t = some (State.nextSpill 17 (putItem (outAnswered s t i x.clock) t (fillItem i tgt mask x)) t
      ((putItem (outAnswered s t i x.clock) t (fillItem i tgt mask x)).engine t).prevented) := by
  unfold State.endSpill
  simp only [hfind, hk, hf]
  rfl

theorem exec_spillAccessDone {u : State} (ht : s.focus.tile = t) (h : s.endSpill t = some u) : exec .spillAccessDone s = .next u := by
  subst ht
  rw [exec, execSpillAccessDone, h]

theorem prevented_without (e : Engine) (i : Item) : (e.without i).prevented = e.prevented := rfl

/-- The engine that is alone with an access has none when it has left. -/
theorem AloneOut.without (h : AloneOut s t i) :
    (∀ j, j ∈ ((s.engine t).without i).items → j.kind.isOut = false)
      ∧ ((s.engine t).without i).spillDue (s.engine t).prevented = none := by
  obtain ⟨hout, hdue⟩ := h
  have mem {j : Item} (hj : j ∈ ((s.engine t).without i).items) : j ∈ (s.engine t).items ∧ j ≠ i := by
    obtain ⟨hmem, hne⟩ := List.mem_filter.mp hj
    exact ⟨hmem, of_decide_eq_true hne⟩
  exact ⟨fun j hj => hout j (mem hj).1 (mem hj).2, spillDue_none_iff.mpr fun j hj => spillDue_none_iff.mp hdue j (mem hj).1⟩

theorem completes_spillDone (ht : s.focus.tile = t) (hfind : (s.engine t).items.find? (fun i => i.kind.isOut) = some i)
    (hk : i.kind = .spillOut id a k host mask tgt false none) (halone : AloneOut s t i) :
    Completes .spillAccessDone s fun u => (∀ f, f ∈ (u.engine t).freezes → f.cause ≠ .spillfrz)
      ∧ (u.engine t).items = (s.engine t).items.filter (fun j => decide (j ≠ i)) ∧ BytesKept s u ∧ RegsKept s u := by
  obtain ⟨hout, hdue⟩ := halone.without
  have hend : s.endSpill t = some (spillFreezeEnds (outLeft s t i) t) := by
    rw [endSpill_spill hfind hk, nextSpill_alone] <;> rw [engine_outLeft]
    · exact hout
    · exact hdue
  have he : (spillFreezeEnds (outLeft s t i) t).engine t
      = { (outLeft s t i).engine t with freezes := ((outLeft s t i).engine t).freezes.filter fun f => decide (f.cause ≠ .spillfrz) } :=
    State.engine_modEngine ..
  refine ⟨_, exec_spillAccessDone ht hend, fun f hf => ?_, ?_, ?_, ?_⟩
  · rw [he] at hf
    exact of_decide_eq_true (List.mem_filter.mp hf).2
  · rw [he, engine_outLeft]
    rfl
  · exact bytesKept_trans (bytesKept_modEngine s t _) (bytesKept_modEngine _ t _)
  · exact regsKept_trans (regsKept_modEngine s t _) (regsKept_modEngine _ t _)

theorem completes_spillFault {isFill : Bool} {x : FillData} {code reason off : Nat} (ht : s.focus.tile = t)
    (hfind : (s.engine t).items.find? (fun i => i.kind.isOut) = some i)
    (hk : i.kind = .spillOut id a k host mask tgt isFill (some x)) (hf : x.fault = some (code, reason, off)) :
    Completes .spillAccessDone s fun u =>
      (∃ r, r ∈ (u.ctx t i.ctx).lateStop ∧ r.code = code ∧ r.reason = reason ∧ r.late = true) ∧ RegsKept s u := by
  obtain ⟨ic, hend⟩ := endSpill_fault hfind hk hf
  have hnext := spillFrame_nextSpill (s := (outAnswered s t i x.clock).spillStop t i code reason off) (t := t) 17 ic
  obtain ⟨-, hregs⟩ := outAnswered_frame (s := s) (t := t) (i := i) x.clock
  refine ⟨_, exec_spillAccessDone ht hend, ⟨(outAnswered s t i x.clock).lateRec t i code reason
    (BitVec.ofNat 64 ((outAnswered s t i x.clock).spillVa t i + off)), hnext.late _ _ _ ?_, rfl, rfl, rfl⟩, ?_⟩
  · rw [State.spillStop, State.stopLate, State.ctx_modCtx_same]
    exact List.mem_append_right _ (List.mem_singleton_self _)
  · exact regsKept_trans hregs (regsKept_trans (spillFrame_spillStop i code reason off).regs hnext.regs)

theorem completes_fillDone {x : FillData} (ht : s.focus.tile = t) (hfind : (s.engine t).items.find? (fun i => i.kind.isOut) = some i)
    (hk : i.kind = .spillOut id a k host mask tgt true (some x)) (hf : x.fault = none) :
    Completes .spillAccessDone s fun u => fillItem i tgt mask x ∈ (u.engine t).items
      ∧ (AloneOut s t i → u.dieClock (s.dieOf t) = (s.dieClock (s.dieOf t)).merge x.clock) ∧ BytesKept s u ∧ RegsKept s u := by
  have hend := endSpill_fill hfind hk hf
  have hput := engine_putItem (s := outAnswered s t i x.clock) (t := t) (fillItem i tgt mask x)
  rw [engine_outAnswered] at hput
  have hnext := spillFrame_nextSpill (s := putItem (outAnswered s t i x.clock) t (fillItem i tgt mask x)) (t := t) 17
    ((putItem (outAnswered s t i x.clock) t (fillItem i tgt mask x)).engine t).prevented
  obtain ⟨hquiet, hregs⟩ := outAnswered_frame (s := s) (t := t) (i := i) x.clock
  refine ⟨_, exec_spillAccessDone ht hend, hnext.items _ ?_ rfl, fun halone => ?_, ?_, ?_⟩
  · rw [hput]
    exact List.mem_append_right _ (List.mem_singleton_self _)
  · obtain ⟨hout, hdue⟩ := halone.without
    rw [nextSpill_alone]
    · exact dieClock_outAnswered x.clock
    · rw [hput]
      intro j hj
      rcases List.mem_append.mp hj with hj | hj
      · exact hout j hj
      · rw [List.mem_singleton.mp hj]
        rfl
    · rw [hput, spillDue_none_iff]
      intro j hj hlt
      rcases List.mem_append.mp hj with hj | hj
      · exact spillDue_none_iff.mp hdue j hj hlt
      · rw [List.mem_singleton.mp hj]
        rfl
  · exact bytesKept_quiet ((hquiet.trans (State.quiet_modEngine ..)).trans hnext.quiet)
  · exact regsKept_trans hregs (regsKept_trans (regsKept_modEngine _ t _) hnext.regs)

end

end Sys2Proof.Proofs
end

section
/-! PROOF of the bundle engine's statement (O54): stops, freezes, samples, watchdogs (R182, R214, R216, R283, R343, R355, R363,
R367), and the statement itself. -/

namespace Sys2Proof.Proofs

open Sys2Proof.Machine Sys2Proof.Safety

/-! ### Late stops and collisions (R182, R343, R363) -/

section
variable {s : State} {t c : Nat}

theorem exec_lateStop_takes {r : Stop} {l : List Stop} (h : At s t c) (hl : (s.ctx t c).lateStop = r :: l) :
    exec .lateStop s = .next ((s.modCtx t c fun x => { x with lateStop := l }).takeStop t c { r with tick := s.now }) := by
  obtain ⟨rfl, rfl, -⟩ := h
  rw [exec_lateStop, execLateStop]
  simp only [hl]
  rfl

theorem isSome_ctx?_modCtx (s : State) (t c : Nat) (f : Ctx → Ctx) : ((s.modCtx t c f).ctx? t c).isSome = true := by
  rw [State.modCtx, State.ctx?_setCtx, if_pos ⟨rfl, rfl⟩]
  rfl

theorem completes_lateStop {r : Stop} {l : List Stop} (h : At s t c) (hl : (s.ctx t c).lateStop = r :: l)
    (hst : (s.ctx t c).st = .resident) (hd : (s.ctx t c).dbg.attached = false) (h1 : r.code ≠ 0x0B) (h2 : r.code ≠ 0x0C) :
    Completes .lateStop s fun u =>
      (u.ctx t c).st = .faulted ∧ (u.ctx t c).stop = some { r with tick := s.now } ∧ RegsHeld s u := by
  obtain ⟨kst, kstop, kregs, -⟩ := faults_takeStop (s := s.modCtx t c fun x => { x with lateStop := l }) (t := t) (c := c)
    (r := { r with tick := s.now }) (isSome_ctx?_modCtx ..) (by rw [State.ctx_modCtx_same]; exact hst)
    (by rw [State.ctx_modCtx_same]; exact hd) h1 h2
  have hharts := (hartsEngines_modCtx s t c (f := fun x => { x with lateStop := l }) rfl).1
  exact ⟨_, exec_lateStop_takes h hl, kst, kstop, regsHeld_of_harts hharts kregs⟩

theorem exec_wcol_stops {e : RunEntry} (h : At s t c) (he : (s.ctx t c).curRun? = some e) :
    ∃ r, r.code = 2 ∧ r.slot = s.focus.slot ∧ r.done = 0 ∧ r.baddr = (s.bun t c).loop.addr e.desc
      ∧ exec .wcol s
        = .next ((s.chargeAll t .fault (s.ctx t c).num ((s.bun t c).loop.addr e.desc)).takeStop t c r) := by
  obtain ⟨rfl, rfl, hsome⟩ := h
  rw [exec_wcol, execWcol]
  dsimp only
  rw [State.withCtx_some hsome, he]
  exact ⟨_, rfl, rfl, rfl, rfl, rfl⟩

theorem completes_wcol {e : RunEntry} (h : At s t c) (he : (s.ctx t c).curRun? = some e) (hst : (s.ctx t c).st = .resident)
    (hd : (s.ctx t c).dbg.attached = false) :
    Completes .wcol s fun u => (u.ctx t c).st = .faulted ∧ RegsHeld s u ∧ (u.engine t).ic = (s.engine t).ic
      ∧ (∀ n, n < 8 → tabGet? (u.tile t).charges n
        = some { owner := (s.ctx t c).num, cause := .fault, pc := (s.bun t c).loop.addr e.desc })
      ∧ ∃ r, (u.ctx t c).stop = some r ∧ r.code = 2 ∧ r.slot = s.focus.slot ∧ r.done = 0
        ∧ r.baddr = (s.bun t c).loop.addr e.desc := by
  obtain ⟨r, hcode, hslot, hdone, hbaddr, hexec⟩ := exec_wcol_stops h he
  obtain ⟨kst, kstop, kregs, kic, kcharges⟩ := faults_charged (cause := .fault) (owner := (s.ctx t c).num)
    (pc := (s.bun t c).loop.addr e.desc) (r := r) h.2.2 hst hd (by simp [hcode]) (by simp [hcode])
  exact ⟨_, hexec, kst, kregs, kic, kcharges, r, kstop, hcode, hslot, hdone, hbaddr⟩

/-- A run that fails its check ends its context, and the cycle is charged to it (R279, R363). -/
theorem completes_runFails {e : RunEntry} {f : Nat × Nat} (ht : s.focus.tile = t) (hturn : (s.engine t).turn = some c)
    (hsome : (s.ctx? t c).isSome = true) (hrun : (s.ctx t c).nextRun? = some e) (hcheck : s.runCheck t c e = some f)
    (hst : (s.ctx t c).st = .resident) (hd : (s.ctx t c).dbg.attached = false) :
    Completes .runStart s fun u => (u.ctx t c).st = .faulted ∧ RegsHeld s u ∧ (u.engine t).ic = (s.engine t).ic
      ∧ ∃ r, (u.ctx t c).stop = some r ∧ r.code = f.1 ∧ r.reason = f.2 ∧ r.baddr = rdStart e.desc := by
  have hcode : ∀ n, n ≠ 8 → n ≠ 9 → f.1 ≠ n := fun n h8 h9 h => by
    rcases runCheck_code hcheck with hf | hf <;> omega
  obtain ⟨kst, kstop, kregs, kic, -⟩ := faults_charged (cause := .fault) (owner := (s.ctx t c).num) (pc := rdStart e.desc)
    (r := { (s.chargeAll t .fault (s.ctx t c).num (rdStart e.desc)).stopRec t c f.1 with baddr := rdStart e.desc, reason := f.2 })
    hsome hst hd (hcode 0x0B (by decide) (by decide)) (hcode 0x0C (by decide) (by decide))
  exact ⟨_, exec_runStart_fails ht hturn hrun hcheck, kst, kregs, kic, _, kstop, rfl, rfl, rfl⟩

end

/-! ### Issues without a bundle, freezes (R214, R216, R272, R283) -/

section
variable {s : State} {t c : Nat}

theorem exec_drainIssue_charges {i : Item} (h : (s.engine s.focus.tile).earliest = some i) :
    exec .drainIssue s = .next (s.chargeAll s.focus.tile .drain i.ctx i.baddr) := by
  rw [exec_drainIssue, execDrainIssue]
  simp only [h]

theorem exec_bankFreeze_begins {n b : Nat} (h : (s.engine s.focus.tile).bankDue = some (n, c, b)) :
    exec .bankFreeze s = .next (s.modEngine s.focus.tile fun e =>
      { e with bankDue := none, freezes := e.freezes ++ [{ cause := .bankfrz, left := some n, owner := c, pc := b }] }) := by
  rw [exec_bankFreeze, execBankFreeze]
  simp only [h]

theorem exec_fetchFreeze_begins {e : RunEntry} (h : At s t c) (he : (s.ctx t c).curRun? = some e) :
    exec .fetchFreeze s = .next (s.modEngine t fun g =>
      { g with fetched := some (c, (s.bun t c).loop.addr e.desc),
               freezes := g.freezes ++ [{ cause := .fetch, left := some 2, owner := c, pc := (s.bun t c).loop.addr e.desc }] }) := by
  obtain ⟨rfl, rfl, hsome⟩ := h
  rw [exec_fetchFreeze, execFetchFreeze]
  dsimp only
  rw [State.withCtx_some hsome, he]
  rfl

theorem exec_swaitRelease_ends {f : Freeze} (hf : f ∈ (s.engine s.focus.tile).freezes) (hc : f.cause = .semwait) :
    exec .swaitRelease s
      = .next (s.modEngine s.focus.tile fun e => { e with freezes := e.freezes.filter fun f => decide (f.cause ≠ .semwait) }) := by
  rw [exec_swaitRelease, execSwaitRelease]
  exact if_pos (List.any_eq_true.mpr ⟨f, hf, decide_eq_true hc⟩)

end

/-! ### Samples (R364, R367) -/

section
variable (s : State) (f t : Nat) (r : RingRec)

theorem quiet_ring : s.Quiet (s.ring f t r) := by
  unfold State.ring
  dsimp only
  have hpage (v : State) (g : FnPage → FnPage) : v.Quiet (v.modPage f g) :=
    State.quiet_same (State.modPage_tiles ..) rfl rfl
  split
  · exact State.Quiet.refl s
  split
  · exact hpage s _
  · exact (State.quiet_send ..).trans ((hpage _ _).trans (State.quiet_modTile _ t _ fun _ => rfl))

theorem samples_ring (x : Nat) : ((s.ring f t r).tile x).samples = (s.tile x).samples := by
  unfold State.ring
  dsimp only
  split
  · rfl
  split
  · rfl
  · rw [State.tile_modTile]
    split
    · next h => rw [h, State.tile, State.modPage_tiles, State.tiles_send]; rfl
    · rw [State.tile, State.modPage_tiles, State.tiles_send]; rfl

/-- The state whose tile has counted a sample. -/
def sampled (s : State) (t : Nat) : State := s.modTile t fun x => { x with samples := x.samples + 1 }

theorem samples_sampled : ((sampled s t).tile t).samples = (s.tile t).samples + 1 := by
  rw [sampled, State.tile_modTile_same]

theorem charges_sampled : ((sampled s t).tile t).charges = (s.tile t).charges := by
  rw [sampled, State.tile_modTile_same]

theorem ctx_sampled (x d : Nat) : (sampled s t).ctx x d = s.ctx x d := by
  simp only [sampled, State.ctx, State.tile_modTile]
  split
  · next h => rw [h]
  · rfl

theorem asidOf_sampled (x d : Nat) : (sampled s t).asidOf x d = s.asidOf x d := by
  rw [State.asidOf, State.recOf, ctx_sampled]
  rfl

/-- The record of a charge k (R364). -/
def sampleRec (n : Nat) (k : Charge) : RingRec :=
  { kind := 1, id := 0, slot := n, pc := k.pc, cause := k.cause.code, ctx := if k.owner = 8 then 0 else k.owner,
    data0 := BitVec.ofNat 64 k.owner, data1 := 0 }

/-- Whether function f samples the charge k of tile t. -/
def samplesCharge (s : State) (f t : Nat) (k : Charge) : Bool :=
  if k.owner = 8 then decide (f = 0) else decide (s.asidFn (s.asidOf t k.owner) = f)

theorem samplesCharge_iff {k : Charge} :
    samplesCharge s f t k = true ↔ k.owner = 8 ∧ f = 0 ∨ k.owner ≠ 8 ∧ s.asidFn (s.asidOf t k.owner) = f := by
  unfold samplesCharge
  split
  · next h => simp [h]
  · next h => simp [h]

variable {s f t}

theorem exec_sample_uncharged (ht : s.focus.tile = t) (hk : tabGet? (s.tile t).charges ((s.tile t).samples % 9) = none) :
    exec .sample s = .next (sampled s t) := by
  subst ht
  rw [← charges_sampled, sampled] at hk
  rw [exec_sample, execSample]
  dsimp only
  rw [hk]
  rfl

theorem exec_sample_charged {k : Charge} (ht : s.focus.tile = t) (hf : s.focus.fn = f)
    (hk : tabGet? (s.tile t).charges ((s.tile t).samples % 9) = some k) :
    exec .sample s = .next (if samplesCharge s f t k then (sampled s t).ring f t (sampleRec ((s.tile t).samples % 9) k)
      else sampled s t) := by
  subst ht hf
  rw [← charges_sampled, sampled] at hk
  rw [exec_sample, execSample]
  dsimp only
  rw [hk, samplesCharge, ← asidOf_sampled s s.focus.tile]
  exact (apply_ite (fun u : State => (.next u : Out)) _ _ _).symm

/-- A sample counts, and may write a record in the ring. -/
theorem exec_sample_counts (ht : s.focus.tile = t) :
    ∃ u, exec .sample s = .next u ∧ (u = sampled s t ∨ ∃ f r, u = (sampled s t).ring f t r) := by
  cases hk : tabGet? (s.tile t).charges ((s.tile t).samples % 9) with
  | none => exact ⟨_, exec_sample_uncharged ht hk, .inl rfl⟩
  | some k =>
    refine ⟨_, exec_sample_charged ht rfl hk, ?_⟩
    split
    · exact .inr ⟨_, _, rfl⟩
    · exact .inl rfl

theorem sample_frame {u : State} (h : u = sampled s t ∨ ∃ f r, u = (sampled s t).ring f t r) :
    (u.tile t).samples = (s.tile t).samples + 1 ∧ BytesKept s u ∧ RegsKept s u := by
  have hregs : RegsKept s (sampled s t) := regsKept_of_harts fun x d => by rw [State.hart, ctx_sampled]; rfl
  have hquiet : s.Quiet (sampled s t) := s.quiet_modTile t _ fun _ => rfl
  rcases h with rfl | ⟨f, r, rfl⟩
  · exact ⟨samples_sampled s t, bytesKept_quiet hquiet, hregs⟩
  · exact ⟨(samples_ring ..).trans (samples_sampled s t), bytesKept_quiet (hquiet.trans (quiet_ring ..)),
      regsKept_trans hregs (regsKept_ring _ f t r)⟩

end

/-! ### The watchdogs (R355) -/

section
variable {s : State} {t c n : Nat}

theorem completes_bundleWatchdog (h : At s t c) (hn : s.bundleOverdue t c = some n) :
    Completes .watchdog s fun u => (u.ctx t c).heldReported = n ∧ RegsKept s u := by
  obtain ⟨rfl, rfl, -⟩ := h
  rw [Completes, exec_watchdog, execWatchdog]
  simp only [hn]
  refine ⟨_, rfl, ?_, regsKept_trans (regsKept_modCtx s _ _ (f := fun x => { x with heldReported := n }) rfl)
    (regsKept_event _ _ _ _ _ _)⟩
  have hlogged := State.event_logged (s.modCtx s.focus.tile s.focus.ctx fun x => { x with heldReported := n }) s.focus.tile s.focus.ctx
    0 1 (watchArg (s.heldOn s.focus.tile s.focus.ctx).2 (s.heldOn s.focus.tile s.focus.ctx).1 n) s.focus.tile s.focus.ctx
  rw [Ctx.Logged, State.ctx_modCtx_same] at hlogged
  rw [hlogged]

theorem wait_of_hartOverdue {w : Wait} (hw : s.hartOverdue t c = some (w, n)) : (s.hart t c).wait = some w := by
  unfold State.hartOverdue at hw
  split at hw
  · next v hv =>
    rw [hv]
    dsimp only at hw
    split at hw
    · cases hw
      rfl
    · cases hw
  · cases hw

theorem completes_hartWatchdog {w : Wait} (h : At s t c) (hb : s.bundleOverdue t c = none) (hw : s.hartOverdue t c = some (w, n)) :
    Completes .watchdog s fun u =>
      (u.hart t c).wait = some { w with reported := n } ∧ (u.hart t c).pc = (s.hart t c).pc ∧ RegsKept s u := by
  have hwait := wait_of_hartOverdue hw
  obtain ⟨rfl, rfl, -⟩ := h
  rw [Completes, exec_watchdog, execWatchdog]
  simp only [hb, hw]
  refine ⟨_, rfl, ?_, ?_, ?_⟩
  · rw [hart_event, State.hart_modHart, hwait]
    rfl
  · rw [hart_event, State.hart_modHart]
  · exact regsKept_trans (regsKept_modCtx s _ _ rfl) (regsKept_event _ _ _ _ _ _)

end

/-! ### The turn (R334, R335, R345) -/

section
variable {s : State} {c : Nat}

theorem completes_contextSelect (h : s.selected s.focus.tile = some c) :
    Completes .contextSelect s fun u =>
      (u.engine s.focus.tile).turn = some c ∧ (u.engine s.focus.tile).turnClk = 0 ∧ (u.ctx s.focus.tile c).waitClk = 0
        ∧ c ∈ s.eligibles s.focus.tile ∧ (∀ d, d ∈ s.eligibles s.focus.tile → s.effOf s.focus.tile d ≤ s.effOf s.focus.tile c)
        ∧ BytesKept s u ∧ RegsKept s u := by
  obtain ⟨step, hexec⟩ := exec_contextSelect_turns rfl h
  obtain ⟨hmem, htop⟩ := selected_highest h
  refine ⟨_, hexec, ?_, ?_, ?_, hmem, htop, ?_, ?_⟩
  · rw [State.engine_modEngine]
  · rw [State.engine_modEngine]
  · rw [State.ctx_modEngine, State.ctx_modCtx_same]
  · exact bytesKept_trans (bytesKept_modCtx s _ c _) (bytesKept_modEngine _ _ _)
  · exact regsKept_trans (regsKept_modCtx s _ c rfl) (regsKept_modEngine _ _ _)

theorem completes_segmentBudgetSwitch (h : (s.engine s.focus.tile).turn = some c) :
    Completes .segmentBudgetSwitch s fun u =>
      (u.engine s.focus.tile).turn = none ∧ (∀ i, i ∈ (u.engine s.focus.tile).items → i.ctx ≠ c)
        ∧ (u.ctx s.focus.tile c).replay.length
            = (s.ctx s.focus.tile c).replay.length + ((s.engine s.focus.tile).items.filter fun i => decide (i.ctx = c)).length
        ∧ BytesKept s u ∧ RegsKept s u := by
  refine ⟨_, exec_segmentBudgetSwitch_turns rfl h, ?_, fun i hi => ?_, ?_, ?_, ?_⟩
  · rw [State.forceSwitch, State.engine_modEngine]
  · rw [State.forceSwitch, State.engine_modEngine] at hi
    dsimp only at hi
    rw [items_drainItems] at hi
    exact of_decide_eq_true (List.mem_filter.mp hi).2
  · rw [State.forceSwitch, State.ctx_modEngine, replay_drainItems, List.length_append, List.length_map]
  · exact bytesKept_trans (bytesKept_quiet (quiet_drainItems s _ c)) (bytesKept_modEngine _ _ _)
  · exact regsKept_trans (regsKept_drainItems s _ c) (regsKept_modEngine _ _ _)

end

/-! ### The statement -/

/-- One landing of a vector, a scalar or a predicate register (R175, R177, R180). -/
theorem completes_landing {s : State} {t : Nat} {i : Item} (ht : s.focus.tile = t) (hdue : (s.engine t).dueLandings = [i])
    (hcur : (s.engine t).cur = none) :
    (∀ n mask data lat fl, i.kind = .vec (.v n) mask data lat fl → Completes .landing s fun u =>
        (∀ j, j < 128 → laneAt ((u.bun t i.ctx).vreg n) j
          = if mask.getLsbD j then laneAt data j else laneAt ((s.bun t i.ctx).vreg n) j)
        ∧ (∀ m, m ≠ n → (u.bun t i.ctx).vreg m = (s.bun t i.ctx).vreg m)
        ∧ (u.hart t i.ctx).fflags = (s.hart t i.ctx).fflags ||| fl ∧ BytesKept s u)
      ∧ (∀ n v lat, n ≠ 0 → i.kind = .scalar (.s n) v lat → Completes .landing s fun u =>
        (u.bun t i.ctx).sreg n = v ∧ (∀ m, m ≠ n → (u.bun t i.ctx).sreg m = (s.bun t i.ctx).sreg m) ∧ BytesKept s u)
      ∧ ∀ n mask bits fl, n ≠ 0 → i.kind = .pred n mask bits fl → Completes .landing s fun u =>
        (u.bun t i.ctx).pred n = (((s.bun t i.ctx).pred n &&& ~~~mask) ||| (bits &&& mask))
          ∧ (∀ m, m ≠ n → (u.bun t i.ctx).pred m = (s.bun t i.ctx).pred m) ∧ BytesKept s u := by
  have hnow (h : ∀ a d, i.kind ≠ .accPending a d) : (landingsLeft s t).landsNow t i = true := by
    unfold State.landsNow
    split
    · next a d hk => exact absurd hk (h a d)
    · rfl
  refine ⟨fun n mask data lat fl hk => ?_, fun n v lat hn hk => ?_, fun n mask bits fl hn hk => ?_⟩
  all_goals
    refine exec_landing_result ht hdue hcur (by simp [hk]) (by simp [hk]) (hnow (by simp [hk])) fun u hbun hflags hbytes => ?_
  case refine_1 =>
    refine ⟨fun j hj => ?_, fun m hm => ?_, ?_, hbytes⟩
    · rw [hbun, vreg_land hk, if_pos rfl, laneMerge, laneAt_lanesOf _ hj]
    · rw [hbun, vreg_land hk, if_neg hm]
    · rw [hflags, hk]
      rfl
  case refine_2 =>
    refine ⟨?_, fun m hm => ?_, hbytes⟩
    · rw [hbun, sreg_land hk hn, if_pos rfl]
    · rw [hbun, sreg_land hk hn, if_neg hm]
  case refine_3 =>
    refine ⟨?_, fun m hm => ?_, hbytes⟩
    · rw [hbun, pred_land hk hn, if_pos rfl]
    · rw [hbun, pred_land hk hn, if_neg hm]

theorem completes_landings (s : State) : Completes .landing s fun u => RegsKept s u
    ∧ ((∀ i gs a l w r, i ∈ (s.engine s.focus.tile).dueLandings → i.kind = .window gs a l w → r ∈ l →
        s.localBad s.focus.tile r.1 r.2 = false) →
      placesOn u s.focus.tile = ((s.engine s.focus.tile).items.filter fun i => !landsAt (s.engine s.focus.tile).ic i).map itemPlace) := by
  obtain ⟨u, hu, hregs, hplaces⟩ := regsKept_landing (s := s) rfl
  refine ⟨u, hu, hregs, fun hgood => ?_⟩
  rw [hplaces, placesOn_landDue s _ hgood, placesOn, engine_landingsLeft]

/-- Settles O54: each row of the bundle engine by the lemma about it; no row needs another. -/
theorem bundleEngineRows : Obligations.BundleEngineRows := by
  unfold Obligations.BundleEngineRows
  refine ⟨?select, ?switch, ?start, ?complete, ?drain, ?landings, ?landing, ?access, ?bank, ?spill, ?fetch, ?swait, ?late, ?wcol,
    ?sample, ?watchdog⟩
  case select => exact fun s c h => completes_contextSelect h
  case switch => exact fun s c h _ => completes_segmentBudgetSwitch h
  case start =>
    intro s t c e ht hturn hsome hrun
    exact ⟨completes_runStart ht hturn hrun, fun f hcheck hst hd => completes_runFails ht hturn hsome hrun hcheck hst hd⟩
  case complete =>
    intro s t c e l h hd hruns
    obtain ⟨w, hexec⟩ := exec_runComplete_leaves h hd
    exact ⟨_, hexec, leaveRun_spec hruns⟩
  case drain => exact fun s i h => ⟨_, exec_drainIssue_charges h, rfl⟩
  case landings => exact completes_landings
  case landing =>
    intro s t i ht hdue hcur _
    obtain ⟨hvec, hscalar, hpred⟩ := completes_landing ht hdue hcur
    exact ⟨hvec, hscalar, hpred, fun _ _ _ _ _ hk hr => exec_landing_badWindow ht hdue hcur hk hr⟩
  case access =>
    intro s t i ht hdue
    exact ⟨fun _ hr _ => completes_accessBad ht hdue hr, fun _ _ _ _ hk hgood => completes_accessLoad ht hdue hk hgood,
      fun _ _ _ _ _ hk hgood => completes_accessLoadWide ht hdue hk hgood, fun _ _ _ hk => completes_accessStore ht hdue hk,
      fun _ _ _ _ hk => completes_accessCredit ht hdue hk, fun _ _ _ hk => completes_accessArm ht hdue hk,
      fun _ _ hk hgood => completes_accessFormat ht hdue hk hgood, fun _ _ h hn => completes_bankNoted ht hdue h hn⟩
  case bank => exact fun s n c b h => ⟨_, exec_bankFreeze_begins h, rfl⟩
  case spill =>
    intro s t i id a k host mask tgt isFill got ht _ hfind hk
    refine ⟨?_, ?_, ?_⟩
    · rintro rfl rfl halone
      exact completes_spillDone ht hfind hk halone
    · rintro x code reason off rfl hf
      exact completes_spillFault ht hfind hk hf
    · rintro x rfl rfl hf
      exact completes_fillDone ht hfind hk hf
  case fetch => exact fun s t c e h he => ⟨_, exec_fetchFreeze_begins h he, rfl⟩
  case swait => exact fun s f hf hc => ⟨_, exec_swaitRelease_ends hf hc, rfl⟩
  case late => exact fun s t c r l h hl hst hd h1 h2 => completes_lateStop h hl hst hd h1 h2
  case wcol => exact fun s t c e h he hst hd => completes_wcol h he hst hd
  case sample =>
    intro s
    obtain ⟨u, hu, hcase⟩ := exec_sample_counts (s := s) rfl
    obtain ⟨hsamples, hbytes, hregs⟩ := sample_frame hcase
    refine ⟨u, hu, hsamples, hbytes, hregs, fun k hk hmine => ?_⟩
    rw [exec_sample_charged rfl rfl hk, if_pos ((samplesCharge_iff s _ _).mpr hmine)] at hu
    cases hu
    rfl
  case watchdog =>
    exact fun s t c h => ⟨fun n hn => completes_bundleWatchdog h hn, fun w n hb hw => completes_hartWatchdog h hb hw⟩

end Sys2Proof.Proofs
end
